-- ==== Sys2Proof/Word.lean ====
section
/-! DEFINITION. The plain word types and bit-field arithmetic the model is written in: bytes, bit ranges
`[msb:lsb]` of a number, and little-endian conversion between byte lists and numbers (00_scope.md, Conventions:
values in multi-byte fields are little-endian). -/

namespace Sys2Proof

/-- One byte of data. -/
abbrev Byte := BitVec 8

/-- The value of bits `[hi:lo]` of `x`. -/
def bits (x hi lo : Nat) : Nat := (x >>> lo) % 2 ^ (hi + 1 - lo)

/-- Bit `n` of `x` as a number 0 or 1. -/
def bit (x n : Nat) : Nat := (x >>> n) % 2

/-- Bit `n` of `x` as a truth value. -/
def flag (x n : Nat) : Bool := bit x n == 1

/-- `x` with bits `[hi:lo]` replaced by the low bits of `v`. -/
def setBits (x hi lo v : Nat) : Nat :=
  x % 2 ^ lo + (v % 2 ^ (hi + 1 - lo)) * 2 ^ lo + (x >>> (hi + 1)) * 2 ^ (hi + 1)

/-- A Bool as the number 0 or 1. -/
def b2n (b : Bool) : Nat := if b then 1 else 0

/-- The number a little-endian byte list spells. -/
def leNat : List Byte → Nat
  | [] => 0
  | b :: bs => b.toNat + 256 * leNat bs

/-- The `n` low bytes of `x`, least significant first. -/
def leBytes : Nat → Nat → List Byte
  | 0, _ => []
  | n + 1, x => BitVec.ofNat 8 x :: leBytes n (x / 256)

/-- The two's complement value of the low `w` bits of `x`. -/
def toSigned (w x : Nat) : Int :=
  let y := x % 2 ^ w
  if y < 2 ^ (w - 1) then (y : Int) else (y : Int) - (2 ^ w : Nat)

/-- The low `w` bits of an integer, as a number. -/
def ofSigned (w : Nat) (x : Int) : Nat := (x % ((2 ^ w : Nat) : Int)).toNat

/-- `a` divided by `b`, rounded up. -/
def ceilDiv (a b : Nat) : Nat := (a + b - 1) / b

/-- `x` rounded up to a multiple of `a`. -/
def roundUp (x a : Nat) : Nat := ceilDiv x a * a

end Sys2Proof
end

