-- ==== Sys2Proof/Syntax.lean ====
section
/-! DEFINITION. The commands of the block: one constructor of `Instr` per row of spec/opcode_table.json, with the
operands the spec's rules give the step. What the device cannot decide by itself (a sensor reading, a detected
hardware error, a frame received, a board event) is an operand of the command that reports it (log entry 2). -/

namespace Sys2Proof

/-- A path of Amiso traffic (R423): the management network, I3C, or a function of host port A or B. -/
inductive Path where
  | mgmt | i3c | hostA | hostB
deriving DecidableEq, Repr

/-- Who sends a dictionary request (R423): its path, the requester identity on that path (the function number 0-7
on a host path; address and port of a management-network requester; 0 on I3C) and the session named (0: none). -/
structure Requester where
  path : Path
  ident : Nat
  session : Nat
deriving DecidableEq, Repr

/-- The header fields of an Amiso request that its sender chooses (R426). -/
structure MsgHead where
  tag : Nat
  version : Nat
deriving DecidableEq, Repr

/-- The fields of a mailbox go word besides its kind (R305). -/
structure GoWord where
  tag : Nat
  context : Nat
  reserved : Nat
  len : Nat
deriving DecidableEq, Repr

/-- The place a `REGISTER_WRITE` goes to: a BAR0 register of function `ff` (R399), or a dictionary object. -/
inductive RegTarget where
  | bar0 (ff off : Nat)
  | object (r : Requester) (index sub : Nat)
deriving DecidableEq, Repr

/-- An op of a quire: the context, the ring count of the submission entry that runs the quire, and the op index. -/
structure OpRef where
  ctx : Nat
  entry : Nat
  op : Nat
deriving DecidableEq, Repr

/-- Whose request reaches a shared port (R240): an op's, or one of those whose class the rule names itself. `other` is what the rule names
no class for (the management core, records, swarms, MSI-X, completions of host reads): it brings the class. -/
inductive Issuer where
  | op (o : OpRef)
  | scrub | placement | shardMove
  | walk (cls : Nat)
  | hello | routing
  | transit (cls : Nat)
  | other (cls : Nat)
deriving DecidableEq, Repr

/-- A request that arrives at a shared port (R239, R240): its source (0 to 7), issuer and beats, whether it is an indivisible access
(R245), and how many beats the grant in force has transferred when it arrives. -/
structure Arrival where
  source : Nat
  issuer : Issuer
  beats : Nat
  whole : Bool
  since : Nat
deriving DecidableEq, Repr

/-- Where a tidy-core instruction executes: core `4 c + k` of logical cluster `c`, and whether its first attempt failed
a residue check or the checked-mode compare and the retry in place passed (R81, R334 step 1). -/
structure At where
  core : Nat
  retried : Bool
deriving DecidableEq, Repr

/-- The operand fields of a tidy-core instruction word besides class and op (R64). -/
structure Fields where
  dst : Nat
  a : Nat
  b : Nat
  mask : Nat
  zero : Nat
  ew : Nat
deriving DecidableEq, Repr

/-- Where a chunk of records is read: the ring count of the queue's entry; and an op of it whose held record failed its check, with how
often it did (R330, R338). -/
structure ChunkAt where
  entry : Nat
  again : Option (Nat × Nat)
deriving DecidableEq, Repr

/-- A core whose task cannot go on where it stands; `parity` says that its instruction memory failed its parity (R335). -/
structure CoreFail where
  core : Nat
  parity : Bool
deriving DecidableEq, Repr

/-- An op that sends to a peer or writes what one sent, and the errors its checks meet (R338). -/
structure RemoteRun where
  o : OpRef
  errors : Nat
deriving DecidableEq, Repr

/-- A unit that is to be spared: its logical number, and whether a failure of it is found now (R349, R355). -/
structure SpareOf where
  n : Nat
  failed : Bool
deriving DecidableEq, Repr

/-- The hardware errors met by one run of a MATMUL tile: a residue or parity failure of the feeder path (R44), and
accumulator cells of physical lanes that came out wrong by a given difference (R50, R51). -/
structure TileRun where
  feeder : Bool
  lanes : List (Nat × Nat × Nat)
deriving DecidableEq, Repr

/-- A received Sharel frame: the header fields of R370 and the payload. -/
structure Frame where
  version : Nat
  type : Nat
  cls : Nat
  last : Bool
  opens : Bool
  hops : Nat
  dst : Nat
  src : Nat
  dstCheck : Nat
  seq : Nat
  ack : Nat
  tag : Nat
  poison : Nat
  offset : Nat
  status : Nat
  sigMode : Nat
  fence : Nat
  payload : List (BitVec 8)
deriving DecidableEq, Repr

/-- A received frame. With the last frame of a gather request comes how often a check of each of its table slices fails while the lookup
runs (R390; log entry 74). -/
structure Received where
  f : Frame
  errors : List Nat := []
deriving DecidableEq, Repr

/-- The payload of a HELLO (R378). -/
structure HelloMsg where
  addr : Nat
  held : Bool
  port : Nat
  versions : Nat
  heard : List Nat
  hash : List (BitVec 8)
deriving DecidableEq, Repr

/-- The payload of an LSA (R380): adjacencies are (neighbour address, cost, version). -/
structure LsaMsg where
  addr : Nat
  hash : List (BitVec 8)
  versions : Nat
  seq : Nat
  adj : List (Nat × Nat × Nat)
deriving DecidableEq, Repr

/-- The registers of configuration space, and of the MSI-X table in BAR4, whose host writes the spec gives an effect (R235, R394, R397, R398,
R402, R403). An MSI-X table entry holds a message's address and data. -/
inductive CfgReg where
  | numVFs | bar2Size | busMaster | msixEnable | msixFunctionMask | msixVectorMask | relaxedOrdering | maxPayload
  | maxReadRequest | powerState | msixAddress (vector : Nat) | msixData (vector : Nat)
deriving DecidableEq, Repr

/-- A command of the block. Each constructor is the row of spec/opcode_table.json whose mnemonic it spells. -/
inductive Instr where
  /-- POWER_ON (R469): A supply ramp resets the whole device to its power-on state, which clears memory and loads the maps from the fuses. -/
  | powerOn (straps : Nat)
  /-- BOARD_RESET (R499): DEV_RESET_N asserted for 1 µs or more begins a board reset, which the device stretches internally to 1 ms. -/
  | boardReset
  /-- RESET_STRETCH_END (R499): The 1 ms internal reset stretch ends, and bring-up starts at the later of this moment and the deassertion of DEV_RESET_N. -/
  | resetStretchEnd
  /-- DEV_RESET_N_RELEASE (R497): Release of DEV_RESET_N starts bring-up: the mask ROM runs, and memory training and cluster self-tests begin. -/
  | devResetNRelease (straps : Nat)
  /-- RAIL_UNDERVOLTAGE (R499): A rail below its threshold for 5 µs makes the device reset as at power-on. -/
  | railUndervoltage
  /-- WARM_RESET_RETRAINED (R471): A write of warm_reset with retain 0 performs a device-wide reset in which the tiers are retrained and memory is lost. -/
  | warmResetRetrained (r : Requester)
  /-- WARM_RESET_RETAINED (R471): A write of warm_reset with retain 1 performs a device-wide reset with memory kept in self-refresh. -/
  | warmResetRetained (r : Requester)
  /-- DEVICE_RESET_BEGIN (R471): A warm reset begins 1 ms after its answer: grants end, controllers drain, tiers may enter self-refresh, and units reset. -/
  | deviceResetBegin
  /-- CLUSTER_RESET (R473): A write of cluster_reset stops the cluster's slices, zeroes its store, self-tests it and returns it to service. -/
  | clusterReset (r : Requester) (cc : Nat)
  /-- MGMT_RESTART (R469): A write of mgmt_restart restarts the management core as on watchdog expiry. -/
  | mgmtRestart (r : Requester)
  /-- WATCHDOG_EXPIRY (R458): The watchdog expires; the ROM checks and reloads the running image without any reset, or falls back to the other image. -/
  | watchdogExpiry
  /-- CLUSTER_SELF_TEST_COMPLETE (R466): A physical cluster's self-test ends; rdy_cluster becomes ready, or the cluster is remapped to a spare or retired. -/
  | clusterSelfTestComplete (phys : Nat) (pass : Bool)
  /-- MEMORY_TRAINING_COMPLETE (R467): A cover layer or HBM stack finishes training or self-refresh exit and zeroing, reports ready, and releases its held accesses. -/
  | memoryTrainingComplete (unit : Nat) (failed : List Nat)
  /-- HOST_PORT_READY (R464): A host port links up and serves configuration space, and rdy_host_port becomes ready. -/
  | hostPortReady (port width speed : Nat) (flit : Bool)
  /-- PERST (R403): PERST#, hot reset or Link Disable of a host port resets its configuration, tears down non-shared contexts and orphans shared ones. -/
  | perst (port kind : Nat)
  /-- HOST_LINK_DOWN (R403): A host link is lost without a reset; host writes fail and records are held. -/
  | hostLinkDown (port : Nat)
  /-- FLR_PF (R403): An FLR of a PF returns it to its defaults, disables its VFs and tears down every context of its functions. -/
  | flrPf (port : Nat)
  /-- FLR_VF (R403): An FLR of a VF, or its removal by a NumVFs change, tears down its contexts. -/
  | flrVf (port vf : Nat) (removed : Bool)
  /-- BUS_MASTER_ENABLE_CLEAR (R403): Clearing Bus Master Enable, or entering D3hot, keeps contexts but makes host writes fail and records be held. -/
  | busMasterEnableClear (ff : Nat) (d3hot : Bool)
  /-- SQ_PRODUCED (R280): A doorbell write announces submission entries up to the written count, or is ignored. -/
  | sqProduced (ff ctx v : Nat)
  /-- CQ_CONSUMED (R282): Host software advances cq_consumed; a FULL queue writes its waiting records and returns to ACTIVE. -/
  | cqConsumed (ff ctx v : Nat)
  /-- WAKE_ARM (R283): A wake write with bit 32 set arms an MSI-X wake-up for a target count of posted records. -/
  | wakeArm (ff ctx target : Nat)
  /-- WAKE_DISARM (R283): A wake write with bit 32 clear disarms the queue's wake-up. -/
  | wakeDisarm (ff ctx target : Nat)
  /-- RELEASE (R302): A write of 1 to release writes the held completion records in ring order and reactivates the queue. -/
  | release (ff ctx v : Nat)
  /-- REGISTER_WRITE (R421): A write to a BAR0 register or an RW dictionary object that has no row of its own is performed or discarded under that register's or object's rules. -/
  | registerWrite (t : RegTarget) (size v : Nat)
  /-- MBOX_NOP (R307): A mailbox go word of kind NOP is answered with no payload. -/
  | mboxNop (ff slot : Nat) (g : GoWord) (payload : List (BitVec 8))
  /-- MBOX_READ (R308): A mailbox READ returns up to 240 bytes read in the context's space, never stalling. -/
  | mboxRead (ff slot : Nat) (g : GoWord) (payload : List (BitVec 8))
  /-- MBOX_WRITE (R308): A mailbox WRITE stores up to 232 bytes and replies once the write is performed. -/
  | mboxWrite (ff slot : Nat) (g : GoWord) (payload : List (BitVec 8))
  /-- MBOX_FENCE_SIGNAL (R307): A mailbox FENCE_SIGNAL adds to, raises or sets a fence. -/
  | mboxFenceSignal (ff slot : Nat) (g : GoWord) (payload : List (BitVec 8))
  /-- FENCE_READ (R307): A mailbox FENCE_READ returns a fence's value. -/
  | fenceRead (ff slot : Nat) (g : GoWord) (payload : List (BitVec 8))
  /-- MBOX_STATUS (R307): A mailbox STATUS request returns q_state, the queue counts and the held records. -/
  | mboxStatus (ff slot : Nat) (g : GoWord) (payload : List (BitVec 8))
  /-- BAR2_READ (R401): A host read through BAR2 returns device memory, or all ones when refused. -/
  | bar2Read (ff off len : Nat)
  /-- BAR2_WRITE (R401): A host write through BAR2 stores device memory, or is discarded when refused. -/
  | bar2Write (ff off : Nat) (data : List (BitVec 8)) (ep : Bool)
  /-- WIN_GO (R433): A write of win_go performs the Amiso message in the BAR0 dictionary window and posts its reply. -/
  | winGo (ff v : Nat)
  /-- FAULT_RESUME_RETRY (R219): fault_resume with action retry makes the stalled accesses of a swarm walk again. -/
  | faultResumeRetry (r : Requester) (port seq : Nat)
  /-- FAULT_RESUME_FAIL (R219): fault_resume with action fail fails the stalled accesses of a swarm. -/
  | faultResumeFail (r : Requester) (port seq : Nat)
  /-- READ (R427): An Amiso READ message returns the values of up to 64 items. -/
  | read (r : Requester) (h : MsgHead) (payload trailer : List (BitVec 8))
  /-- WRITE (R427): An Amiso WRITE message writes or stages up to 64 items. -/
  | write (r : Requester) (h : MsgHead) (payload trailer : List (BitVec 8))
  /-- COMMIT (R435): An Amiso COMMIT checks the whole stage set and applies it at once, or refuses it. -/
  | commit (r : Requester) (h : MsgHead) (payload trailer : List (BitVec 8))
  /-- COMMIT_DISCARD (R435): A COMMIT with discard set drops the stage set. -/
  | commitDiscard (r : Requester) (h : MsgHead) (payload trailer : List (BitVec 8))
  /-- BULK_PUT (R438): A BULK-PUT chunk extends a BLOB transfer, and its last chunk makes the object act on the whole value. -/
  | bulkPut (r : Requester) (h : MsgHead) (payload trailer : List (BitVec 8))
  /-- BULK_GET (R439): A BULK-GET takes a snapshot of a BLOB at offset 0, or reads a chunk of the snapshot. -/
  | bulkGet (r : Requester) (h : MsgHead) (payload trailer : List (BitVec 8))
  /-- BULK_TRANSFER_TIMEOUT (R438): A bulk transfer that receives no chunk for 10 s is dropped. -/
  | bulkTransferTimeout (index sub : Nat)
  /-- SNAPSHOT_TIMEOUT (R439): A BULK-GET snapshot with no get for 1 s is dropped. -/
  | snapshotTimeout (r : Requester) (index sub : Nat)
  /-- SESS_CHALLENGE (R440): A read of sess_challenge issues a new single-use challenge to the requester. -/
  | sessChallenge (r : Requester)
  /-- SESS_OPEN (R441): A write of sess_open checks the keyed response and opens a session with a derived key. -/
  | sessOpen (r : Requester) (value : List (BitVec 8))
  /-- SESS_CLOSE (R440): A write of sess_close ends the named session. -/
  | sessClose (r : Requester) (n : Nat)
  /-- SESSION_IDLE_TIMEOUT (R440): A session with no request for sess_idle_s ends, and its stage set is discarded. -/
  | sessionIdleTimeout (n : Nat)
  /-- OWNER_GRANT (R443): A grant written to owner_grant is verified and gives the session the owner rule over its index ranges. -/
  | ownerGrant (r : Requester) (grant : List (BitVec 8))
  /-- OP_KEY (R453): A write of op_key sets an operator key slot. -/
  | opKey (r : Requester) (slot : Nat) (value : List (BitVec 8))
  /-- KEY_PROVISION (R451): A write of key_provision fuses an image-signing key hash into a blank slot. -/
  | keyProvision (r : Requester) (value : List (BitVec 8))
  /-- KEY_REVOKE (R451): A write of key_revoke fuses the revocation of a key slot. -/
  | keyRevoke (r : Requester) (v : Nat)
  /-- ROLLBACK_RAISE (R451): A write of rollback_raise raises the fused anti-rollback floor. -/
  | rollbackRaise (r : Requester) (v : Nat)
  /-- OWNER_ENROLL (R452): A write of owner_enroll fuses the next owner bank with an owner key hash. -/
  | ownerEnroll (r : Requester) (hash : List (BitVec 8))
  /-- ATTN_ACK (R299): A reader acknowledges attention entries on its own path by writing attn_ack. -/
  | attnAck (r : Requester) (rr v : Nat)
  /-- ATTENTION_LOG_WRITE (R298): The firmware writes a pending attention event into the log and advances attn_head. -/
  | attentionLogWrite
  /-- CTX_CREATE (R316): A write of ctx_create checks the request and creates a context with negotiated versions. -/
  | ctxCreate (r : Requester) (req : Nat)
  /-- CTX_TEARDOWN (R318): A write of ctx_teardown closes the context, cancels its work and writes its records. -/
  | ctxTeardown (r : Requester) (n : Nat)
  /-- TEARDOWN_COMPLETE (R318): Once every write of a tearing-down context is performed, its resources are freed and it becomes closed. -/
  | teardownComplete (n : Nat)
  /-- CTX_ORPHAN (R405): A write of ctx_orphan orphans a shared context. -/
  | ctxOrphan (r : Requester) (n : Nat)
  /-- ORPHAN_MS_EXPIRY (R405): The owning port's link stays lost for orphan_ms, so its shared contexts are orphaned. -/
  | orphanMsExpiry (port : Nat)
  /-- ORPHAN_LIMIT_EXPIRY (R406): An orphaned context without an attach for orphan_limit_s is torn down and its held records are discarded. -/
  | orphanLimitExpiry (n : Nat)
  /-- CTX_ATTACH (R409): A write of ctx_attach hands an orphaned shared context to a new owner, with new rings and reposted swarms. -/
  | ctxAttach (r : Requester) (req : Nat)
  /-- SPARE_REQUEST (R349): A write of spare_request triggers the sparing of a logical cluster. -/
  | spareRequest (r : Requester) (cc v : Nat)
  /-- INJECT_POISON (R363): A write of inject_poison poisons one atom without changing its data. -/
  | injectPoison (r : Requester) (v : Nat)
  /-- FW_STAGE (R457): The last chunk of an image written to fw_stage places it in the staging region and checks it. -/
  | fwStage (r : Requester) (image : List (BitVec 8))
  /-- FW_ACTIVATE (R457): A write of fw_activate checks the staged image again and starts waiting for a quiescent point. -/
  | fwActivate (r : Requester) (v : Nat)
  /-- FW_QUIESCENT_POINT (R457): A quiescent point arrives; the firmware saves its state and hands over to the staged image. -/
  | fwQuiescentPoint
  /-- FW_QUIESCE_TIMEOUT (R457): No quiescent point comes within fw_quiesce_s, and the activation is refused. -/
  | fwQuiesceTimeout
  /-- FW_ALIVE_TIMEOUT (R459): A new image fails to report alive within 200 ms, and the ROM falls back to the other image. -/
  | fwAliveTimeout
  /-- ROM_ANNOUNCE (R454): In the ROM stage the device announces itself once per second on the management network. -/
  | romAnnounce
  /-- ATTEST_NONCE (R463): A write of attest_nonce starts signing an attestation report for the requester. -/
  | attestNonce (r : Requester) (nonce : List (BitVec 8))
  /-- ATTEST_SIGN_COMPLETE (R463): The attestation report's signature is complete, and the report becomes readable. -/
  | attestSignComplete (r : Requester)
  /-- SUBMIT (R251): The Spine takes a SUBMIT entry, checks its quire header and runs the quire. -/
  | submit (ctx : Nat)
  /-- BIND (R271): The Spine checks a quire and copies it into the graph store as a stored graph. -/
  | bind (ctx : Nat)
  /-- PATCH (R272): The Spine makes a new generation of a stored graph by applying a patch list. -/
  | patch (ctx : Nat)
  /-- LAUNCH (R273): The Spine pins the current generation of a graph and runs it. -/
  | launch (ctx : Nat)
  /-- UNBIND (R274): The Spine withdraws a graph handle, and its generations are freed when unpinned. -/
  | unbind (ctx : Nat)
  /-- OP_CHUNK_READ (R264): With 64 op places free, the Spine reads the next chunk of a queue's op records. -/
  | opChunkRead (ctx : Nat) (entry : ChunkAt)
  /-- SLICE_PLACEMENT (R267): A waiting slice is placed on the first eligible cluster that becomes free for its class. -/
  | slicePlacement (o : OpRef) (k : Nat)
  /-- SLICE_END (R269): A Stitcher reports the end and status of a slice to the Spine. -/
  | sliceEnd (o : OpRef) (k : Nat)
  /-- OP_COMPLETION (R259): An op's status is fixed and its writes are performed, which releases successors, may complete the quire and issues its record. -/
  | opCompletion (o : OpRef)
  /-- STATUS_ECHO (R300): A queue silent for echo_us gets a status echo record. -/
  | statusEcho (ctx : Nat)
  /-- FENCE_TIMEOUT (R288): A fence wait not met within its timeout fails its op or STREAM block with FENCE_TIMEOUT. -/
  | fenceTimeout (o : OpRef)
  /-- NOP_OP (R257): The NOP op completes OK once its dependencies are met. -/
  | nopOp (o : OpRef)
  /-- BARRIER (R257): The BARRIER op waits for every earlier op, then completes or is cancelled. -/
  | barrier (o : OpRef)
  /-- FENCE_WAIT (R289): The FENCE_WAIT op completes once every enabled wait is met, or times out. -/
  | fenceWait (o : OpRef)
  /-- FENCE_SIGNAL (R290): The FENCE_SIGNAL op applies up to four fence signals in order. -/
  | fenceSignal (o : OpRef)
  /-- HOST_FLAG (R236): The HOST_FLAG op writes a flag to host memory behind its dependencies' host writes. -/
  | hostFlag (o : OpRef)
  /-- READ_BACK_COMPLETE (R237): A zero-length read-back completes, and the flag or record that waited for it is sent. -/
  | readBackComplete (ctx entry : Nat) (flag : Option Nat)
  /-- INLINE_DATA (R310): The INLINE_DATA op writes up to 192 bytes carried in the quire through the posted word path. -/
  | inlineData (o : OpRef)
  /-- MATMUL (R57): The MATMUL op checks its record and descriptors and is cut into row-block slices. -/
  | matmul (o : OpRef)
  /-- MATMUL_TILE (R45): An engine starts a tile's K-steps into a free accumulator buffer. -/
  | matmulTile (cc e : Nat)
  /-- TILE_DRAIN (R45): A tile's buffer drains: the checksum compare, the epilogue, the output writes and the side-band merges. -/
  | tileDrain (cc e : Nat) (runs : List TileRun) (epilogueFails : Nat)
  /-- TILE_REPLAY_OTHER_ENGINE (R52): A failed tile is replayed once on the cluster's other engine after that engine's current tile. -/
  | tileReplayOtherEngine (cc e : Nat) (run : TileRun)
  /-- LANE_MAP_OUT_RECORD (R54): The firmware records a lane map-out in the repair fuses. -/
  | laneMapOutRecord (cc e : Nat)
  /-- IDLE_HOLD_END (R49): An engine's 64-cycle idle hold ends, and ramp-down begins. -/
  | idleHoldEnd (cc e : Nat)
  /-- RAMP_TOKEN_GRANT (R485): A ramp waiting for a ramp token receives one and switches its lane groups. -/
  | rampTokenGrant (cc e : Nat)
  /-- VECTOR_RUN (R83): The VECTOR_RUN op spreads its tasks over clusters. -/
  | vectorRun (o : OpRef)
  /-- TASK_START (R84): A Stitcher starts a task on the lowest-numbered free core with its images and initial registers. -/
  | taskStart (cc : Nat)
  /-- CYCLE_LIMIT_EXCEEDED (R85): A task exceeds cycle_limit, stops, and no further task of the op starts. -/
  | cycleLimitExceeded (core : Nat)
  /-- TASK_MOVE (R334): After a repeated check failure, a task's state moves to another core and resumes at the failing instruction. -/
  | taskMove (core : Nat) (first second : Bool)
  /-- TASK_RESTART (R335): A task with unsound state is undone from the undo log and restarted from entry on another core. -/
  | taskRestart (core : CoreFail) (first second : Bool)
  /-- CANARY_RUN (R340): The step count reaches 64, and every core runs the known-answer canary before its next task. -/
  | canaryRun (cc first second : Nat)
  /-- NOP (R65): The tidy-core NOP does nothing. -/
  | nop (x : At) (f : Fields)
  /-- HALT (R85): The task waits as FENCE.ALL does and then ends. -/
  | halt (x : At) (f : Fields)
  /-- FENCE_DEV (R77): Waits for earlier accesses to device memory, CXL and fabric peers. -/
  | fenceDev (x : At) (f : Fields)
  /-- FENCE_HOST (R77): Read-backs to host ports with outstanding stores, then waits for their replies. -/
  | fenceHost (x : At) (f : Fields)
  /-- FENCE_ALL (R77): Performs FENCE.DEV and FENCE.HOST together. -/
  | fenceAll (x : At) (f : Fields)
  /-- JR (R65): Jumps to a register address and saves the return address. -/
  | jr (x : At) (f : Fields)
  /-- FLAGS_R (R70): Copies the sticky flags into a scalar register. -/
  | flagsR (x : At) (f : Fields)
  /-- FLAGS_C (R70): Clears the sticky flags. -/
  | flagsC (x : At) (f : Fields)
  /-- CYCLE (R65): Reads the core's cycle count into a scalar register. -/
  | cycle (x : At) (f : Fields)
  /-- TLOAD (R65): Loads a lookup-table slot from data memory. -/
  | tload (x : At) (f : Fields)
  /-- ADD (R65): Scalar wrapping add. -/
  | add (x : At) (f : Fields)
  /-- SUB (R65): Scalar wrapping subtract. -/
  | sub (x : At) (f : Fields)
  /-- MUL (R65): Scalar multiply, low part. -/
  | mul (x : At) (f : Fields)
  /-- MULH (R65): Scalar signed multiply, high part. -/
  | mulh (x : At) (f : Fields)
  /-- MULHU (R65): Scalar unsigned multiply, high part. -/
  | mulhu (x : At) (f : Fields)
  /-- AND (R65): Scalar bitwise and. -/
  | and (x : At) (f : Fields)
  /-- OR (R65): Scalar bitwise or. -/
  | or (x : At) (f : Fields)
  /-- XOR (R65): Scalar bitwise exclusive or. -/
  | xor (x : At) (f : Fields)
  /-- SLL (R68): Scalar logical shift left. -/
  | sll (x : At) (f : Fields)
  /-- SRL (R68): Scalar logical shift right. -/
  | srl (x : At) (f : Fields)
  /-- SRA (R68): Scalar arithmetic shift right. -/
  | sra (x : At) (f : Fields)
  /-- SLT (R65): Scalar signed set-less-than. -/
  | slt (x : At) (f : Fields)
  /-- SLTU (R65): Scalar unsigned set-less-than. -/
  | sltu (x : At) (f : Fields)
  /-- MIN (R65): Scalar signed minimum. -/
  | min (x : At) (f : Fields)
  /-- MAX (R65): Scalar signed maximum. -/
  | max (x : At) (f : Fields)
  /-- MINU (R65): Scalar unsigned minimum. -/
  | minu (x : At) (f : Fields)
  /-- MAXU (R65): Scalar unsigned maximum. -/
  | maxu (x : At) (f : Fields)
  /-- ADDS (R68): Scalar saturating add. -/
  | adds (x : At) (f : Fields)
  /-- SUBS (R68): Scalar saturating subtract. -/
  | subs (x : At) (f : Fields)
  /-- ADD_IMM (R65): Scalar add with a 9-bit immediate. -/
  | addImm (x : At) (f : Fields)
  /-- SUB_IMM (R65): Scalar subtract of a 9-bit immediate. -/
  | subImm (x : At) (f : Fields)
  /-- MUL_IMM (R65): Scalar multiply by an immediate. -/
  | mulImm (x : At) (f : Fields)
  /-- MULH_IMM (R65): Scalar signed high multiply by an immediate. -/
  | mulhImm (x : At) (f : Fields)
  /-- MULHU_IMM (R65): Scalar unsigned high multiply by an immediate. -/
  | mulhuImm (x : At) (f : Fields)
  /-- AND_IMM (R65): Scalar and with an immediate. -/
  | andImm (x : At) (f : Fields)
  /-- OR_IMM (R65): Scalar or with an immediate. -/
  | orImm (x : At) (f : Fields)
  /-- XOR_IMM (R65): Scalar exclusive or with an immediate. -/
  | xorImm (x : At) (f : Fields)
  /-- SLL_IMM (R65): Scalar logical shift left by an immediate. -/
  | sllImm (x : At) (f : Fields)
  /-- SRL_IMM (R65): Scalar logical shift right by an immediate. -/
  | srlImm (x : At) (f : Fields)
  /-- SRA_IMM (R65): Scalar arithmetic shift right by an immediate. -/
  | sraImm (x : At) (f : Fields)
  /-- SLT_IMM (R65): Scalar signed set-less-than against an immediate. -/
  | sltImm (x : At) (f : Fields)
  /-- SLTU_IMM (R65): Scalar unsigned set-less-than against an immediate. -/
  | sltuImm (x : At) (f : Fields)
  /-- MIN_IMM (R65): Scalar signed minimum with an immediate. -/
  | minImm (x : At) (f : Fields)
  /-- MAX_IMM (R65): Scalar signed maximum with an immediate. -/
  | maxImm (x : At) (f : Fields)
  /-- MINU_IMM (R65): Scalar unsigned minimum with an immediate. -/
  | minuImm (x : At) (f : Fields)
  /-- MAXU_IMM (R65): Scalar unsigned maximum with an immediate. -/
  | maxuImm (x : At) (f : Fields)
  /-- ADDS_IMM (R68): Scalar saturating add of an immediate. -/
  | addsImm (x : At) (f : Fields)
  /-- SUBS_IMM (R68): Scalar saturating subtract of an immediate. -/
  | subsImm (x : At) (f : Fields)
  /-- LDK (R65): Loads a zero-extended 22-bit constant into a scalar register. -/
  | ldk (x : At) (dst imm : Nat)
  /-- SHK (R65): Shifts a scalar register left by 22 bits and ors in a 22-bit constant. -/
  | shk (x : At) (dst imm : Nat)
  /-- BR_EQ (R65): Branches when two scalars are equal. -/
  | brEq (x : At) (a b off : Nat)
  /-- BR_NE (R65): Branches when two scalars differ. -/
  | brNe (x : At) (a b off : Nat)
  /-- BR_LT (R65): Branches on signed less-than. -/
  | brLt (x : At) (a b off : Nat)
  /-- BR_GE (R65): Branches on signed greater-or-equal. -/
  | brGe (x : At) (a b off : Nat)
  /-- BR_LTU (R65): Branches on unsigned less-than. -/
  | brLtu (x : At) (a b off : Nat)
  /-- BR_GEU (R65): Branches on unsigned greater-or-equal. -/
  | brGeu (x : At) (a b off : Nat)
  /-- JAL (R65): Jumps by an offset and saves the return address. -/
  | jal (x : At) (dst off : Nat)
  /-- LD (R77): Signed scalar load. -/
  | ld (x : At) (f : Fields)
  /-- LDU (R77): Unsigned scalar load. -/
  | ldu (x : At) (f : Fields)
  /-- ST (R77): Scalar store. -/
  | st (x : At) (f : Fields)
  /-- STORE_REL (R78): Store performed only after every earlier store of the core has been acknowledged. -/
  | storeRel (x : At) (f : Fields)
  /-- LD_ACQ (R77): Load performed before any later access of the core. -/
  | ldAcq (x : At) (f : Fields)
  /-- AADD (R80): Atomic add in the own cluster store. -/
  | aadd (x : At) (f : Fields)
  /-- AAND (R80): Atomic and. -/
  | aand (x : At) (f : Fields)
  /-- AOR (R80): Atomic or. -/
  | aor (x : At) (f : Fields)
  /-- AXOR (R80): Atomic exclusive or. -/
  | axor (x : At) (f : Fields)
  /-- ASWAP (R80): Atomic swap. -/
  | aswap (x : At) (f : Fields)
  /-- ACAS (R80): Atomic compare and swap. -/
  | acas (x : At) (f : Fields)
  /-- AMIN (R80): Atomic signed minimum. -/
  | amin (x : At) (f : Fields)
  /-- AMAX (R80): Atomic signed maximum. -/
  | amax (x : At) (f : Fields)
  /-- AMINU (R80): Atomic unsigned minimum. -/
  | aminu (x : At) (f : Fields)
  /-- AMAXU (R80): Atomic unsigned maximum. -/
  | amaxu (x : At) (f : Fields)
  /-- AFADD (R80): Atomic fp32 add. -/
  | afadd (x : At) (f : Fields)
  /-- AFMIN (R80): Atomic fp32 minimum. -/
  | afmin (x : At) (f : Fields)
  /-- AFMAX (R80): Atomic fp32 maximum. -/
  | afmax (x : At) (f : Fields)
  /-- VADD (R68): Vector wrapping add. -/
  | vadd (x : At) (f : Fields) (sc : Bool)
  /-- VSUB (R68): Vector wrapping subtract. -/
  | vsub (x : At) (f : Fields) (sc : Bool)
  /-- VMUL (R68): Vector multiply, low part. -/
  | vmul (x : At) (f : Fields) (sc : Bool)
  /-- VMULH (R68): Vector signed multiply, high part. -/
  | vmulh (x : At) (f : Fields) (sc : Bool)
  /-- VMULHU (R68): Vector unsigned multiply, high part. -/
  | vmulhu (x : At) (f : Fields) (sc : Bool)
  /-- VAND (R68): Vector and. -/
  | vand (x : At) (f : Fields) (sc : Bool)
  /-- VOR (R68): Vector or. -/
  | vor (x : At) (f : Fields) (sc : Bool)
  /-- VXOR (R68): Vector exclusive or. -/
  | vxor (x : At) (f : Fields) (sc : Bool)
  /-- VSLL (R68): Vector logical shift left. -/
  | vsll (x : At) (f : Fields) (sc : Bool)
  /-- VSRL (R68): Vector logical shift right. -/
  | vsrl (x : At) (f : Fields) (sc : Bool)
  /-- VSRA (R68): Vector arithmetic shift right. -/
  | vsra (x : At) (f : Fields) (sc : Bool)
  /-- VMIN (R68): Vector signed minimum. -/
  | vmin (x : At) (f : Fields) (sc : Bool)
  /-- VMAX (R68): Vector signed maximum. -/
  | vmax (x : At) (f : Fields) (sc : Bool)
  /-- VMINU (R68): Vector unsigned minimum. -/
  | vminu (x : At) (f : Fields) (sc : Bool)
  /-- VMAXU (R68): Vector unsigned maximum. -/
  | vmaxu (x : At) (f : Fields) (sc : Bool)
  /-- VABS (R68): Vector wrapping absolute value. -/
  | vabs (x : At) (f : Fields) (sc : Bool)
  /-- VADDS (R68): Vector signed saturating add. -/
  | vadds (x : At) (f : Fields) (sc : Bool)
  /-- VSUBS (R68): Vector signed saturating subtract. -/
  | vsubs (x : At) (f : Fields) (sc : Bool)
  /-- VADDSU (R68): Vector unsigned saturating add. -/
  | vaddsu (x : At) (f : Fields) (sc : Bool)
  /-- VSUBSU (R68): Vector unsigned saturating subtract. -/
  | vsubsu (x : At) (f : Fields) (sc : Bool)
  /-- VMULS (R68): Vector saturating multiply. -/
  | vmuls (x : At) (f : Fields) (sc : Bool)
  /-- VSLLS (R68): Vector saturating shift left. -/
  | vslls (x : At) (f : Fields) (sc : Bool)
  /-- VABSS (R68): Vector saturating absolute value. -/
  | vabss (x : At) (f : Fields) (sc : Bool)
  /-- VEQ (R66): Vector compare equal into a mask. -/
  | veq (x : At) (f : Fields)
  /-- VNE (R66): Vector compare not-equal into a mask. -/
  | vne (x : At) (f : Fields)
  /-- VLT (R66): Vector signed less-than into a mask. -/
  | vlt (x : At) (f : Fields)
  /-- VLE (R66): Vector signed less-or-equal into a mask. -/
  | vle (x : At) (f : Fields)
  /-- VLTU (R66): Vector unsigned less-than into a mask. -/
  | vltu (x : At) (f : Fields)
  /-- VLEU (R66): Vector unsigned less-or-equal into a mask. -/
  | vleu (x : At) (f : Fields)
  /-- VFEQ (R66): Vector float equal into a mask. -/
  | vfeq (x : At) (f : Fields)
  /-- VFLT (R66): Vector float less-than into a mask. -/
  | vflt (x : At) (f : Fields)
  /-- VFLE (R66): Vector float less-or-equal into a mask. -/
  | vfle (x : At) (f : Fields)
  /-- VFUN (R66): Vector float unordered compare into a mask. -/
  | vfun (x : At) (f : Fields)
  /-- VFADD (R69): Vector float add. -/
  | vfadd (x : At) (f : Fields) (sc : Bool)
  /-- VFSUB (R69): Vector float subtract. -/
  | vfsub (x : At) (f : Fields) (sc : Bool)
  /-- VFMUL (R69): Vector float multiply. -/
  | vfmul (x : At) (f : Fields) (sc : Bool)
  /-- VFMA (R65): Vector fused multiply-add into the destination. -/
  | vfma (x : At) (f : Fields) (sc : Bool)
  /-- VFNMA (R65): Vector negated fused multiply-add into the destination. -/
  | vfnma (x : At) (f : Fields) (sc : Bool)
  /-- VFMIN (R69): Vector float minimumNumber. -/
  | vfmin (x : At) (f : Fields) (sc : Bool)
  /-- VFMAX (R69): Vector float maximumNumber. -/
  | vfmax (x : At) (f : Fields) (sc : Bool)
  /-- VFABS (R69): Vector float absolute value. -/
  | vfabs (x : At) (f : Fields) (sc : Bool)
  /-- VFNEG (R69): Vector float negate. -/
  | vfneg (x : At) (f : Fields) (sc : Bool)
  /-- F32_BF16 (R65): Converts two fp32 vectors to one bf16 vector. -/
  | f32Bf16 (x : At) (f : Fields)
  /-- BF16_F32_LO (R65): Widens the low bf16 half to fp32. -/
  | bf16F32Lo (x : At) (f : Fields)
  /-- BF16_F32_HI (R65): Widens the high bf16 half to fp32. -/
  | bf16F32Hi (x : At) (f : Fields)
  /-- I32_F32 (R18): Converts int32 to fp32. -/
  | i32F32 (x : At) (f : Fields)
  /-- F32_I32 (R69): Converts fp32 to int32 with saturation. -/
  | f32I32 (x : At) (f : Fields)
  /-- WIDEN_LO (R65): Sign-extends the low half of the elements. -/
  | widenLo (x : At) (f : Fields)
  /-- WIDEN_HI (R65): Sign-extends the high half of the elements. -/
  | widenHi (x : At) (f : Fields)
  /-- WIDENU_LO (R65): Zero-extends the low half of the elements. -/
  | widenuLo (x : At) (f : Fields)
  /-- WIDENU_HI (R65): Zero-extends the high half of the elements. -/
  | widenuHi (x : At) (f : Fields)
  /-- NARROW (R68): Truncates elements to half width. -/
  | narrow (x : At) (f : Fields)
  /-- NARROW_S (R68): Narrows elements with signed saturation. -/
  | narrowS (x : At) (f : Fields)
  /-- NARROW_SU (R68): Narrows signed elements into the unsigned narrower range. -/
  | narrowSu (x : At) (f : Fields)
  /-- VPERM (R65): Vector permute. -/
  | vperm (x : At) (f : Fields)
  /-- VBCAST (R65): Vector broadcast. -/
  | vbcast (x : At) (f : Fields)
  /-- VSLIDEUP (R65): Slides elements up. -/
  | vslideup (x : At) (f : Fields)
  /-- VSLIDEDN (R65): Slides elements down. -/
  | vslidedn (x : At) (f : Fields)
  /-- VEXT (R65): Extracts a vector element into a scalar register. -/
  | vext (x : At) (f : Fields)
  /-- VINS (R65): Inserts a scalar into a vector element. -/
  | vins (x : At) (f : Fields)
  /-- VIOTA (R65): Writes element indices. -/
  | viota (x : At) (f : Fields)
  /-- VMV (R65): Vector move. -/
  | vmv (x : At) (f : Fields)
  /-- VREDADD (R67): Integer sum reduction. -/
  | vredadd (x : At) (f : Fields)
  /-- VREDMIN (R67): Signed minimum reduction. -/
  | vredmin (x : At) (f : Fields)
  /-- VREDMAX (R67): Signed maximum reduction. -/
  | vredmax (x : At) (f : Fields)
  /-- VREDMINU (R67): Unsigned minimum reduction. -/
  | vredminu (x : At) (f : Fields)
  /-- VREDMAXU (R67): Unsigned maximum reduction. -/
  | vredmaxu (x : At) (f : Fields)
  /-- VFREDADD (R67): Float sum reduction over a fixed tree. -/
  | vfredadd (x : At) (f : Fields)
  /-- VFREDMIN (R67): Float minimum reduction. -/
  | vfredmin (x : At) (f : Fields)
  /-- VFREDMAX (R67): Float maximum reduction. -/
  | vfredmax (x : At) (f : Fields)
  /-- TLU_I (R71): Indexed lookup in a table slot. -/
  | tluI (x : At) (f : Fields)
  /-- TLU_F (R71): Interpolated lookup in a table slot. -/
  | tluF (x : At) (f : Fields)
  /-- RANGE_INIT (R72): Sets element 0 to the empty side-band entry. -/
  | rangeInit (x : At) (f : Fields)
  /-- RANGE (R72): Merges the finite active elements into a side-band minimum and maximum. -/
  | range (x : At) (f : Fields)
  /-- VLD (R75): Unit-stride vector load. -/
  | vld (x : At) (f : Fields)
  /-- VST (R75): Unit-stride vector store. -/
  | vst (x : At) (f : Fields)
  /-- VLDS (R75): Strided vector load. -/
  | vlds (x : At) (f : Fields)
  /-- VSTS (R75): Strided vector store. -/
  | vsts (x : At) (f : Fields)
  /-- VLDX (R75): Indexed vector load in the local window. -/
  | vldx (x : At) (f : Fields)
  /-- VSTX (R75): Indexed vector store in the local window. -/
  | vstx (x : At) (f : Fields)
  /-- MAND (R65): Mask and. -/
  | mand (x : At) (f : Fields)
  /-- MOR (R65): Mask or. -/
  | mor (x : At) (f : Fields)
  /-- MXOR (R65): Mask exclusive or. -/
  | mxor (x : At) (f : Fields)
  /-- MANDN (R65): Mask and-not. -/
  | mandn (x : At) (f : Fields)
  /-- MNOT (R65): Mask not. -/
  | mnot (x : At) (f : Fields)
  /-- MPOP (R65): Counts the set mask bits into a scalar register. -/
  | mpop (x : At) (f : Fields)
  /-- MFIRST (R65): Returns the index of the lowest set mask bit. -/
  | mfirst (x : At) (f : Fields)
  /-- MSET_N (R65): Sets the low k bits of a mask. -/
  | msetN (x : At) (f : Fields)
  /-- GATHER_POOL (R157): The GATHER_POOL op checks its structures and sends one table slice to each lead Weevil. -/
  | gatherPool (o : OpRef)
  /-- UPDATE_ROWS (R175): The UPDATE_ROWS op checks its structures and sends table slices to lead Weevils. -/
  | updateRows (o : OpRef)
  /-- TABLE_SLICE_START (R158): A lead Weevil takes a slice: intake, dedup or combining into segments, and Hive resolution. -/
  | tableSliceStart (o : OpRef) (k errors : Nat)
  /-- ROW_FETCH (R164): An owner fetches a row slot under its row lock, and the lead verifies check and dequantises the row. -/
  | rowFetch (o : OpRef) (k : Nat)
  /-- SLICE_DELIVERY (R158): After a slice's last segment has been pooled, the lead writes the slice's output vectors. -/
  | sliceDelivery (o : OpRef) (k : Nat) (errors : Nat)
  /-- ROW_RMW (R177): An owner reads, updates, requantises and writes a row, mirroring it into Hive replicas. -/
  | rowRmw (o : OpRef) (k errors : Nat)
  /-- REPLACE (R184): A REPLACE_ROWS op with action 0 writes whole rows from a source array, or performs a REBIND run. -/
  | replace (o : OpRef) (errors : List (Nat × Nat))
  /-- HIVE_ADMIT (R188): A REPLACE_ROWS op with action HIVE_ADMIT copies rows into all replicas and publishes their directory entries. -/
  | hiveAdmit (o : OpRef)
  /-- HIVE_EVICT (R190): A REPLACE_ROWS op with action HIVE_EVICT withdraws directory entries and stops mirroring. -/
  | hiveEvict (o : OpRef)
  /-- HIVE_SLOT_FREE (R190): A draining slot's drain counter reaches zero, and the slot and its entry are freed. -/
  | hiveSlotFree (entry : Nat)
  /-- REBIND_MARK_BEGIN (R185): Begins a REBIND: increments rebind_gen and sets the target. -/
  | rebindMarkBegin (o : OpRef)
  /-- REBIND_MARK_END (R185): Ends a completed REBIND. -/
  | rebindMarkEnd (o : OpRef)
  /-- REBIND_MARK_ABORT (R185): Aborts a REBIND. -/
  | rebindMarkAbort (o : OpRef)
  /-- STREAM (R224): The STREAM op reads its first block list and starts on a cluster or central stream engine. -/
  | stream (o : OpRef)
  /-- COPY_BLOCK (R226): A COPY block copies rows between two virtual ranges. -/
  | copyBlock (o : OpRef)
  /-- RING_BLOCK (R230): A RING block, once its free-fence credit is met, copies into the next ring buffer and signals fill_fence. -/
  | ringBlock (o : OpRef)
  /-- WAIT_BLOCK (R226): A WAIT block holds the op until a fence reaches its value. -/
  | waitBlock (o : OpRef)
  /-- SIGNAL_BLOCK (R226): A SIGNAL block signals a fence once the writes of earlier blocks are performed. -/
  | signalBlock (o : OpRef)
  /-- CHAIN_BLOCK (R227): A CHAIN block reads and continues with the next block list. -/
  | chainBlock (o : OpRef)
  /-- STREAM_BLOCK_REPLAY (R338): After the blocks in flight end, a block with a detected error runs again. -/
  | streamBlockReplay (o : OpRef) (fails : Bool)
  /-- COPY_TENSOR (R107): The COPY_TENSOR op copies a box between descriptors, staged through the bounce region on overlap. -/
  | copyTensor (o : OpRef) (errors : Nat)
  /-- MOVE (R127): MIGRATE kind MOVE changes folio homes between the bulk tier and the far window. -/
  | move (o : OpRef)
  /-- REPLICATE (R127): MIGRATE kind REPLICATE makes read-only copies and points the PTEs at them. -/
  | replicate (o : OpRef)
  /-- REFRESH (R127): MIGRATE kind REFRESH recopies homes into their copies. -/
  | refresh (o : OpRef)
  /-- WITHDRAW (R127): MIGRATE kind WITHDRAW points PTEs back at their homes. -/
  | withdraw (o : OpRef)
  /-- FOLIO_COPY_START (R130): A folio enters COPYING or FILLING once a mig_window place frees. -/
  | folioCopyStart (o : OpRef)
  /-- FOLIO_COPY_DONE (R129): A folio copy ends; its PTE is written, and its held writes are forwarded or mirrored. -/
  | folioCopyDone (o : OpRef)
  /-- FOLIO_HOLD_EXPIRY (R130): A hold reaches 15 µs; the folio copy is abandoned and retried, or given outcome 0x06. -/
  | folioHoldExpiry (o : OpRef)
  /-- DRAINED_INVALIDATION_COMPLETE (R131): A drained invalidation ends; frames are released and placement records are posted. -/
  | drainedInvalidationComplete (o : OpRef)
  /-- INVALIDATE_RANGE (R213): INVALIDATE of scope 0 removes the buffer entries covering a page range. -/
  | invalidateRange (o : OpRef)
  /-- INVALIDATE_SPACE (R213): INVALIDATE of scope 1 removes every entry of an address space. -/
  | invalidateSpace (o : OpRef)
  /-- INVALIDATE_PARTITION (R213): INVALIDATE of scope 2 removes the entries of every space bound to a context of the partition. -/
  | invalidatePartition (o : OpRef)
  /-- INVALIDATE_DRAIN_COMPLETE (R213): The walks and accesses of an INVALIDATE have ended, and the op completes. -/
  | invalidateDrainComplete (o : OpRef)
  /-- REMOTE_WRITE (R388): The REMOTE_WRITE op sends data to a peer's window, then a fence signal. -/
  | remoteWrite (o : RemoteRun)
  /-- REMOTE_GATHER (R389): The REMOTE_GATHER op runs a GATHER_POOL at a peer and writes the result locally. -/
  | remoteGather (o : RemoteRun)
  /-- PAGE_WALK (R197): A walker takes a missed translation from the queue and walks the page tables. -/
  | pageWalk
  /-- TAG_EVICTION_COMPLETE (R210): A tag eviction has removed every entry and ended every walk, and the tag is rebound. -/
  | tagEvictionComplete (tt : Nat)
  /-- SWARM_TIMER_CLOSE (R215): A swarm closes 4 µs after its first fault. -/
  | swarmTimerClose (port : Nat)
  /-- SWARM_POST (R220): A closed swarm is written to the fault ring once it can be, and requesters without an entry walk again. -/
  | swarmPost (port : Nat)
  /-- FAULT_RING_DISABLE (R221): Clearing enable of a fault ring fails the unposted swarms and all later faults of the port at once. -/
  | faultRingDisable (r : Requester) (port : Nat)
  /-- ARBITER_ROUND (R244): An arbiter chooses one requesting slot and starts its grant. -/
  | arbiterRound (kk inst : Nat) (arrivals : List Arrival)
  /-- GRANT_END (R245): A grant ends at a beat boundary, and is saved for resumption when preempted. -/
  | grantEnd (kk inst beats : Nat) (arrivals : List Arrival)
  /-- CONTEXT_SWITCH (R321): A switch begins: the outgoing context's units stop at their switch points and are saved to a slot. -/
  | contextSwitch (cc : Nat)
  /-- CONTEXT_RESTORE_COMPLETE (R323): The incoming context is restored or zeroed, and its slices run. -/
  | contextRestoreComplete (cc : Nat)
  /-- CLUSTER_MOVE_HANDOVER (R328): The old partition's slices on a moving cluster end; the store is cleared and the cluster joins the new partition. -/
  | clusterMoveHandover (cc : Nat)
  /-- MOVE_WAIT_EXPIRY (R328): Slices still running after move_wait_us stop, and their ops fail with INTERNAL. -/
  | moveWaitExpiry (cc : Nat)
  /-- CLUSTER_SPARING_START (R350): The firmware starts sparing a triggered cluster and self-tests a spare. -/
  | clusterSparingStart (cc : SpareOf)
  /-- SPARE_SELF_TEST_DONE (R350): The spare's self-test ends, and the hardware handover starts, or the next spare is tried. -/
  | spareSelfTestDone (pass : Bool)
  /-- HANDOVER_COPY_COMPLETE (R350): The store and unit state are copied; the map changes and slices resume on the spare. -/
  | handoverCopyComplete (unreadable : List Nat)
  /-- HANDOVER_STOP_TIMEOUT (R352): A unit not at its switch point 100 µs into a handover is abandoned, and its ops fail. -/
  | handoverStopTimeout (unit : Nat)
  /-- COVER_CHANNEL_SPARING_START (R355): The firmware starts copying a logical cover channel onto a spare, or withdraws it. -/
  | coverChannelSparingStart (nn : SpareOf)
  /-- COVER_CHANNEL_COPY_COMPLETE (R355): The channel copy ends, and cover_chan_map switches to the spare. -/
  | coverChannelCopyComplete (nn : Nat) (unreadable : List Nat)
  /-- ROW_REMAP_COMPLETE (R141): A remapped row finishes copying, and its remap entry takes effect. -/
  | rowRemapComplete (chan row : Nat)
  /-- PATROL_SCRUB (R140): The patrol scrub reads every cover and bulk row once per scrub_hours. -/
  | patrolScrub (chan row corrected : Nat) (uncorrectable : List Nat)
  /-- EPOCH_END (R135): At each 10 ms epoch end the device applies delegated placement and shard rebalancing. -/
  | epochEnd (sample : Nat)
  /-- THERMAL_LOOP_TICK (R144): Every 50 µs each cluster island steps against its cover and die temperatures. -/
  | thermalLoopTick (cover die : List Nat)
  /-- CHANNEL_BANDWIDTH_CAP (R145): A cover channel at 95 °C for 1 ms is capped at 50% of its bandwidth. -/
  | channelBandwidthCap (nn : Nat)
  /-- HBM_THERMAL_CAP (R146): An HBM stack reaching 95 °C is capped at 50% until it falls below 90 °C. -/
  | hbmThermalCap (stack : Nat)
  /-- DIE_TEMP_LIMIT (R487): A junction reading of 105 °C drops the island to step 0 at once. -/
  | dieTempLimit (cc : Nat)
  /-- THERM_TRIP (R488): 115 °C on any sensor stops every clock and asserts THERM_TRIP_N. -/
  | thermTrip
  /-- POWER_SAMPLE (R482): Every 100 µs the power manager takes or undoes one rung of the ladder. -/
  | powerSample (watts joules : Nat)
  /-- CORE_CURRENT_TRIP (R486): VDD_CORE current above core_trip_a makes the backstop drop steps and caps. -/
  | coreCurrentTrip
  /-- BACKSTOP_LIFT (R486): After 1 ms below 90%, the backstop lifts one step and cap 2 every 100 µs. -/
  | backstopLift
  /-- VOLTAGE_RAIL_REPORT (R480): The VDD_CORE regulator reports the new voltage, and islands may rise. -/
  | voltageRailReport (mv : Nat)
  /-- AVS_TIMEOUT (R496): An AVSBus command unanswered for 1 ms holds the voltage and caps the steps. -/
  | avsTimeout
  /-- CXL_LINK_FAIL (R417): A CXL link fails and its range returns poison on reads and discards writes. -/
  | cxlLinkFail (link : Nat)
  /-- CXL_MEM_TIMEOUT (R417): A CXL.mem request without response within cxl_mem_timeout_us fails the link. -/
  | cxlMemTimeout (link : Nat)
  /-- CXL_EVENT_RECORD (R416): The firmware reads an expander event record and raises attention. -/
  | cxlEventRecord (link : Nat) (severe : Bool) (dpa : Nat)
  /-- WRITE_FRAME (R376): A received Sharel WRITE frame is performed in order in the inbound window. -/
  | writeFrame (port : Nat) (f : Frame)
  /-- READ_REQ (R385): A received READ_REQ reads the window and returns READ_REPLY frames. -/
  | readReq (port : Nat) (f : Frame)
  /-- READ_REPLY (R386): A received READ_REPLY delivers read data with its poison bits. -/
  | readReply (port : Nat) (f : Frame)
  /-- GATHER_REQ (R389): A received GATHER_REQ runs a lookup on the peer's Weevils. -/
  | gatherReq (port : Nat) (r : Received)
  /-- GATHER_REPLY (R389): A received GATHER_REPLY delivers output vectors or the final part report. -/
  | gatherReply (port : Nat) (f : Frame)
  /-- FENCE (R376): A received FENCE frame signals a fence after the earlier writes of its stream. -/
  | fence (port : Nat) (f : Frame)
  /-- ACK (R375): A received ACK acknowledges frames of a stream. -/
  | ack (port : Nat) (f : Frame)
  /-- NAK (R377): A received NAK triggers a resend or fails the request. -/
  | nak (port : Nat) (f : Frame)
  /-- HELLO (R378): A received HELLO forms or refreshes an adjacency and negotiates a version. -/
  | hello (port : Nat) (m : HelloMsg)
  /-- CLAIM (R379): A received CLAIM is compared, and the higher identity hash re-addresses. -/
  | claim (port addr : Nat) (hash : List (BitVec 8))
  /-- LSA (R380): A received newer LSA is stored and flooded onward. -/
  | lsa (port : Nat) (m : LsaMsg)
  /-- HELLO_SEND (R378): Every hello_ms each up port sends a HELLO. -/
  | helloSend
  /-- ADJACENCY_TIMEOUT (R378): An adjacency ends after dead_count intervals without a HELLO. -/
  | adjacencyTimeout (port addr : Nat)
  /-- SHAREL_LINK_FAULT (R378): A PCS link fault ends the port's adjacencies at once. -/
  | sharelLinkFault (port : Nat)
  /-- SHAREL_LINK_UP (R367): A Sharel port links at 800 Gb/s, or at 400 Gb/s on retry. -/
  | sharelLinkUp (port speed : Nat)
  /-- ADDRESS_HELD (R379): No conflicting CLAIM for 3 × hello_ms, so the address becomes held. -/
  | addressHeld
  /-- LSA_REFRESH (R380): The device floods its LSA again every 10 s. -/
  | lsaRefresh
  /-- ROUTE_COMPUTE (R380): The firmware computes shortest paths and installs the forwarding table. -/
  | routeCompute
  /-- ACK_SEND (R375): After 16 frames or 2 µs unacknowledged, the receiver sends an ACK frame. -/
  | ackSend (peer cls : Nat)
  /-- RETRANSMIT_TIMEOUT (R375): rto_us passes without progress, and the sender resends from the first unacknowledged frame. -/
  | retransmitTimeout (peer cls : Nat)
  /-- STREAM_IDLE_CLOSE (R374): A stream idle for 10 ms with every frame acknowledged is closed. -/
  | streamIdleClose (peer cls : Nat)
  /-- FABRIC_TIMEOUT (R383): A stream without progress or route for fabric_timeout_ms fails its ops with FABRIC_UNREACHABLE. -/
  | fabricTimeout (peer cls : Nat)
  /-- CXL_LINK_UP (R412): A CXL link finishes training and enumeration and goes to up and CXL.mem ready, or to refused, so rdy_cxl changes. -/
  | cxlLinkUp (link width speed capacity decoders : Nat) (accepted : Bool)
  /-- IMAGE_REPORTS_ALIVE (R457): A started firmware image reports alive to the watchdog; rdy_mgmt becomes ready and held Amiso requests are served. -/
  | imageReportsAlive
  /-- TRANSIT_FRAME (R381): A received Sharel frame addressed to another device is forwarded by the port hardware with hops decremented, or discarded. -/
  | transitFrame (port : Nat) (f : Frame)
  /-- PFC_FRAME (R373): A received IEEE 802.1Qbb PFC frame pauses or resumes sending on a priority in pfc_mask. -/
  | pfcFrame (port prio : Nat) (xoff : Bool)
  /-- FRAME_DISCARD (R369): A received frame with a bad FCS, another EtherType, a bad header or a PAUSE type is discarded and counted in rx_discards. -/
  | frameDiscard (port reason : Nat)
  /-- COMPLETION_TIMEOUT (R394): A device read to a host port meets its PCIe completion timeout, fails its block and counts in cpl_timeouts. -/
  | completionTimeout (o : OpRef) (port : Nat)
  /-- HBM_THERMAL_CAP_RELEASE (R146): An HBM stack that was capped falls below 90 °C, and its controllers lift the 50% bandwidth cap. -/
  | hbmThermalCapRelease (stack : Nat)
  /-- BULK_GROUP_FAILURE (R356): A bulk pseudo-channel or its controller fails, and the whole group is withdrawn with blk_group_state 1. -/
  | bulkGroupFailure (group : Nat)
  /-- MCTP_CONTROL_MESSAGE (R432): An MCTP control message, such as endpoint ID assignment, on I3C or PCIe VDM is answered as DSP0236 requires of an endpoint. -/
  | mctpControlMessage (path : Path) (command arg : Nat)
  /-- I3C_DYNAMIC_ADDRESS (R502): The I3C controller assigns the device's dynamic address by SETDASA or ENTDAA. -/
  | i3cDynamicAddress (addr : Nat)
  /-- CONFIG_SPACE_WRITE (R397): A host write to PCIe configuration space, such as setting NumVFs, resizing BAR2, setting Bus Master Enable or MSI-X Enable, takes effect. -/
  | configSpaceWrite (ff : Nat) (reg : CfgReg) (v : Nat)
  /-- ROUTER_ADVERTISEMENT (R431): A received IPv6 router advertisement on the management port sets the link MTU and addresses by stateless autoconfiguration. -/
  | routerAdvertisement (mtu prefix64 : Nat)
  /-- POWER_DOWN (R498): The board removes the rails while DEV_RESET_N is low, or after a thermal trip, and THERM_TRIP_N is released with VDD_IO. -/
  | powerDown
deriving DecidableEq, Repr

end Sys2Proof
end

