-- ==== Sys2Proof/WellFormed.lean ====
section
/-! DEFINITION. Which commands are well formed: the ranges the spec gives the operands. `exec` answers for every command;
what it answers for one that is not well formed stands for nothing. -/

namespace Sys2Proof

namespace WF

/-- `n` is below `m`. -/
def lt (n m : Nat) : Bool := decide (n < m)

/-- `n` fits in `w` bits. -/
def fits (w n : Nat) : Bool := decide (n < 2 ^ w)

/-- A logical cluster (R11). -/
def clusterOk (n : Nat) : Bool := decide (n < 64)

/-- A function: 8 * port + number (R399). -/
def fnOk (n : Nat) : Bool := decide (n < 16)

/-- A context number (R315). -/
def ctxOk (n : Nat) : Bool := decide (n < 1024)

/-- A tidy core: 4 * cluster + core. -/
def coreOk (n : Nat) : Bool := decide (n < 256)

/-- A VF number (R396). -/
def vfOk (n : Nat) : Bool := decide (1 ≤ n) && decide (n < 8)

/-- The size of a register access in bytes. -/
def sizeOk (n : Nat) : Bool := n == 1 || n == 2 || n == 4 || n == 8

/-- `l` has `n` bytes. -/
def len (l : List Byte) (n : Nat) : Bool := l.length == n

/-- `l` has at most `n` bytes. -/
def lenUpTo (l : List Byte) (n : Nat) : Bool := decide (l.length ≤ n)

/-- The trailer of a message: none, or the 16 bytes of R442. -/
def trailerOk (l : List Byte) : Bool := l.length == 0 || l.length == 16

/-- Every member meets a condition. -/
def all {α : Type} (l : List α) (p : α → Bool) : Bool := l.all p

/-- No port, or one of the two. -/
def portOpt (o : Option Nat) : Bool := o.all fun p => decide (p < 2)

/-- A request that arrives at a shared port (R239, R240): a source from 0 to 7, and a class from 0 to 3. -/
def arrivalOk (e : Arrival) : Bool :=
  decide (e.source < 8) && match e.issuer with
    | .walk c => decide (c < 4)
    | .transit c => decide (c < 4)
    | .other c => decide (c < 4)
    | _ => true

/-- One temperature per logical cluster (R144). -/
def temps (l : List Nat) : Bool := l.length == 64 && l.all fun t => decide (t < 256)

end WF

open WF

/-- R423: a function number on a host path, an address and port on the management network. -/
def Requester.wf (r : Requester) : Bool :=
  fits 32 r.session &&
    match r.path with
    | .mgmt => fits 144 r.ident
    | .i3c => r.ident == 0
    | .hostA => lt r.ident 8
    | .hostB => lt r.ident 8

/-- R426. -/
def MsgHead.wf (h : MsgHead) : Bool := fits 32 h.tag && fits 8 h.version

/-- R305. -/
def GoWord.wf (g : GoWord) : Bool := fits 32 g.tag && fits 10 g.context && fits 6 g.reserved && fits 8 g.len

def RegTarget.wf (t : RegTarget) : Bool :=
  match t with
  | .bar0 ff off => fnOk ff && fits 34 off
  | .object r index sub => r.wf && fits 16 index && fits 8 sub

/-- A context, a ring count (R280) and an op index (R252). -/
def OpRef.wf (o : OpRef) : Bool := ctxOk o.ctx && fits 32 o.entry && fits 13 o.op

def At.wf (x : At) : Bool := coreOk x.core

/-- R64. -/
def Fields.wf (f : Fields) : Bool := lt f.dst 32 && lt f.a 32 && lt f.b 32 && lt f.mask 8 && lt f.zero 2 && lt f.ew 4

/-- Physical lanes 0 to 32 of an engine (R54), and a cell's difference that is not zero. -/
def TileRun.wf (t : TileRun) : Bool := t.lanes.all fun l => lt l.1 33 && decide (l.2.2 ≠ 0)

/-- R370. -/
def Frame.wf (f : Frame) : Bool :=
  fits 4 f.version && fits 4 f.type && fits 2 f.cls && fits 8 f.hops && fits 20 f.dst && fits 20 f.src &&
    fits 16 f.dstCheck && fits 32 f.seq && fits 32 f.ack && fits 32 f.tag && fits 64 f.poison && fits 32 f.offset &&
    fits 16 f.status && fits 2 f.sigMode && fits 12 f.fence && lenUpTo f.payload 4096

/-- R378. -/
def HelloMsg.wf (m : HelloMsg) : Bool :=
  fits 20 m.addr && lt m.port 6 && fits 8 m.versions && decide (m.heard.length ≤ 16) && all m.heard (fits 20) &&
    len m.hash 32

/-- R380. -/
def LsaMsg.wf (m : LsaMsg) : Bool :=
  fits 20 m.addr && len m.hash 32 && fits 8 m.versions && fits 32 m.seq &&
    m.adj.all fun a => fits 20 a.1 && fits 16 a.2.1 && fits 8 a.2.2

/-- The operands lie in the ranges the spec gives them. -/
def wellFormed (i : Instr) : Bool :=
  match i with
  | .powerOn straps => lt straps 4
  | .boardReset => true
  | .resetStretchEnd => true
  | .devResetNRelease straps => lt straps 4
  | .railUndervoltage => true
  | .warmResetRetrained r => r.wf
  | .warmResetRetained r => r.wf
  | .deviceResetBegin => true
  | .clusterReset r cc => r.wf && clusterOk cc
  | .mgmtRestart r => r.wf
  | .watchdogExpiry => true
  | .clusterSelfTestComplete phys _ => lt phys 66
  | .memoryTrainingComplete unit failed => lt unit 8 && all failed (lt · 64)
  | .hostPortReady port width speed _ => lt port 2 && lt width 17 && lt speed 7
  | .perst port kind => lt port 2 && lt kind 3
  | .hostLinkDown port => lt port 2
  | .flrPf port => lt port 2
  | .flrVf port vf _ => lt port 2 && vfOk vf
  | .busMasterEnableClear ff _ => fnOk ff
  | .sqProduced ff ctx v => fnOk ff && ctxOk ctx && fits 32 v
  | .cqConsumed ff ctx v => fnOk ff && ctxOk ctx && fits 32 v
  | .wakeArm ff ctx target => fnOk ff && ctxOk ctx && fits 32 target
  | .wakeDisarm ff ctx target => fnOk ff && ctxOk ctx && fits 32 target
  | .release ff ctx v => fnOk ff && ctxOk ctx && fits 32 v
  | .registerWrite t size v => t.wf && sizeOk size && fits 64 v
  | .mboxNop ff slot g payload => fnOk ff && lt slot 32 && g.wf && lenUpTo payload 240
  | .mboxRead ff slot g payload => fnOk ff && lt slot 32 && g.wf && lenUpTo payload 240
  | .mboxWrite ff slot g payload => fnOk ff && lt slot 32 && g.wf && lenUpTo payload 240
  | .mboxFenceSignal ff slot g payload => fnOk ff && lt slot 32 && g.wf && lenUpTo payload 240
  | .fenceRead ff slot g payload => fnOk ff && lt slot 32 && g.wf && lenUpTo payload 240
  | .mboxStatus ff slot g payload => fnOk ff && lt slot 32 && g.wf && lenUpTo payload 240
  | .bar2Read ff off len => fnOk ff && fits 64 off && decide (len ≤ 4096)
  | .bar2Write ff off data _ => fnOk ff && fits 64 off && lenUpTo data 4096
  | .winGo ff v => fnOk ff && fits 64 v
  | .read r h payload trailer => r.wf && h.wf && lenUpTo payload 1472 && trailerOk trailer
  | .write r h payload trailer => r.wf && h.wf && lenUpTo payload 1472 && trailerOk trailer
  | .commit r h payload trailer => r.wf && h.wf && lenUpTo payload 1472 && trailerOk trailer
  | .commitDiscard r h payload trailer => r.wf && h.wf && lenUpTo payload 1472 && trailerOk trailer
  | .bulkPut r h payload trailer => r.wf && h.wf && lenUpTo payload 1472 && trailerOk trailer
  | .bulkGet r h payload trailer => r.wf && h.wf && lenUpTo payload 1472 && trailerOk trailer
  | .bulkTransferTimeout index sub => fits 16 index && fits 8 sub
  | .snapshotTimeout r index sub => r.wf && fits 16 index && fits 8 sub
  | .sessChallenge r => r.wf
  | .sessOpen r value => r.wf && lenUpTo value 64
  | .sessClose r n => r.wf && fits 32 n
  | .sessionIdleTimeout n => fits 32 n
  | .ownerGrant r grant => r.wf && lenUpTo grant 65536
  | .opKey r slot value => r.wf && fits 8 slot && len value 33
  | .keyProvision r value => r.wf && len value 33
  | .keyRevoke r v => r.wf && fits 8 v
  | .rollbackRaise r v => r.wf && fits 8 v
  | .ownerEnroll r hash => r.wf && len hash 32
  | .attnAck r rr v => r.wf && lt rr 18 && fits 32 v
  | .attentionLogWrite => true
  | .ctxCreate r req => r.wf && fits 64 req
  | .ctxTeardown r n => r.wf && ctxOk n
  | .teardownComplete n => ctxOk n
  | .ctxOrphan r n => r.wf && ctxOk n
  | .orphanMsExpiry port => lt port 2
  | .orphanLimitExpiry n => ctxOk n
  | .ctxAttach r req => r.wf && fits 64 req
  | .spareRequest r cc v => r.wf && clusterOk cc && fits 8 v
  | .injectPoison r v => r.wf && fits 64 v
  | .fwStage r image => r.wf && lenUpTo image 67108864
  | .fwActivate r v => r.wf && fits 8 v
  | .fwQuiescentPoint => true
  | .fwQuiesceTimeout => true
  | .fwAliveTimeout => true
  | .romAnnounce => true
  | .attestNonce r nonce => r.wf && len nonce 32
  | .attestSignComplete r => r.wf
  | .submit ctx => ctxOk ctx
  | .bind ctx => ctxOk ctx
  | .patch ctx => ctxOk ctx
  | .launch ctx => ctxOk ctx
  | .unbind ctx => ctxOk ctx
  | .opChunkRead ctx entry => ctxOk ctx && fits 32 entry.entry
  | .slicePlacement o k => o.wf && lt k 1000
  | .sliceEnd o k => o.wf && lt k 1000
  | .opCompletion o => o.wf
  | .statusEcho ctx => ctxOk ctx
  | .fenceTimeout o => o.wf
  | .nopOp o => o.wf
  | .barrier o => o.wf
  | .fenceWait o => o.wf
  | .fenceSignal o => o.wf
  | .hostFlag o => o.wf
  | .readBackComplete ctx entry flag => ctxOk ctx && fits 32 entry && portOpt flag
  | .inlineData o => o.wf
  | .matmul o => o.wf
  | .matmulTile cc e => clusterOk cc && lt e 2
  | .tileDrain cc e runs epilogueFails => clusterOk cc && lt e 2 && all runs TileRun.wf && lt epilogueFails 3
  | .tileReplayOtherEngine cc e run => clusterOk cc && lt e 2 && run.wf
  | .laneMapOutRecord cc e => clusterOk cc && lt e 2
  | .idleHoldEnd cc e => clusterOk cc && lt e 2
  | .rampTokenGrant cc e => clusterOk cc && lt e 2
  | .vectorRun o => o.wf
  | .taskStart cc => clusterOk cc
  | .cycleLimitExceeded core => coreOk core
  | .taskMove core _ _ => coreOk core
  | .taskRestart core _ _ => coreOk core.core
  | .canaryRun cc first second => clusterOk cc && lt first 16 && lt second 16
  | .nop x f => x.wf && f.wf
  | .halt x f => x.wf && f.wf
  | .fenceDev x f => x.wf && f.wf
  | .fenceHost x f => x.wf && f.wf
  | .fenceAll x f => x.wf && f.wf
  | .jr x f => x.wf && f.wf
  | .flagsR x f => x.wf && f.wf
  | .flagsC x f => x.wf && f.wf
  | .cycle x f => x.wf && f.wf
  | .tload x f => x.wf && f.wf
  | .add x f => x.wf && f.wf
  | .sub x f => x.wf && f.wf
  | .mul x f => x.wf && f.wf
  | .mulh x f => x.wf && f.wf
  | .mulhu x f => x.wf && f.wf
  | .and x f => x.wf && f.wf
  | .or x f => x.wf && f.wf
  | .xor x f => x.wf && f.wf
  | .sll x f => x.wf && f.wf
  | .srl x f => x.wf && f.wf
  | .sra x f => x.wf && f.wf
  | .slt x f => x.wf && f.wf
  | .sltu x f => x.wf && f.wf
  | .min x f => x.wf && f.wf
  | .max x f => x.wf && f.wf
  | .minu x f => x.wf && f.wf
  | .maxu x f => x.wf && f.wf
  | .adds x f => x.wf && f.wf
  | .subs x f => x.wf && f.wf
  | .addImm x f => x.wf && f.wf
  | .subImm x f => x.wf && f.wf
  | .mulImm x f => x.wf && f.wf
  | .mulhImm x f => x.wf && f.wf
  | .mulhuImm x f => x.wf && f.wf
  | .andImm x f => x.wf && f.wf
  | .orImm x f => x.wf && f.wf
  | .xorImm x f => x.wf && f.wf
  | .sllImm x f => x.wf && f.wf
  | .srlImm x f => x.wf && f.wf
  | .sraImm x f => x.wf && f.wf
  | .sltImm x f => x.wf && f.wf
  | .sltuImm x f => x.wf && f.wf
  | .minImm x f => x.wf && f.wf
  | .maxImm x f => x.wf && f.wf
  | .minuImm x f => x.wf && f.wf
  | .maxuImm x f => x.wf && f.wf
  | .addsImm x f => x.wf && f.wf
  | .subsImm x f => x.wf && f.wf
  | .ldk x dst imm => x.wf && lt dst 32 && fits 22 imm
  | .shk x dst imm => x.wf && lt dst 32 && fits 22 imm
  | .brEq x a b off => x.wf && lt a 32 && lt b 32 && fits 12 off
  | .brNe x a b off => x.wf && lt a 32 && lt b 32 && fits 12 off
  | .brLt x a b off => x.wf && lt a 32 && lt b 32 && fits 12 off
  | .brGe x a b off => x.wf && lt a 32 && lt b 32 && fits 12 off
  | .brLtu x a b off => x.wf && lt a 32 && lt b 32 && fits 12 off
  | .brGeu x a b off => x.wf && lt a 32 && lt b 32 && fits 12 off
  | .jal x dst off => x.wf && lt dst 32 && fits 22 off
  | .ld x f => x.wf && f.wf
  | .ldu x f => x.wf && f.wf
  | .st x f => x.wf && f.wf
  | .storeRel x f => x.wf && f.wf
  | .ldAcq x f => x.wf && f.wf
  | .aadd x f => x.wf && f.wf
  | .aand x f => x.wf && f.wf
  | .aor x f => x.wf && f.wf
  | .axor x f => x.wf && f.wf
  | .aswap x f => x.wf && f.wf
  | .acas x f => x.wf && f.wf
  | .amin x f => x.wf && f.wf
  | .amax x f => x.wf && f.wf
  | .aminu x f => x.wf && f.wf
  | .amaxu x f => x.wf && f.wf
  | .afadd x f => x.wf && f.wf
  | .afmin x f => x.wf && f.wf
  | .afmax x f => x.wf && f.wf
  | .vadd x f _ => x.wf && f.wf
  | .vsub x f _ => x.wf && f.wf
  | .vmul x f _ => x.wf && f.wf
  | .vmulh x f _ => x.wf && f.wf
  | .vmulhu x f _ => x.wf && f.wf
  | .vand x f _ => x.wf && f.wf
  | .vor x f _ => x.wf && f.wf
  | .vxor x f _ => x.wf && f.wf
  | .vsll x f _ => x.wf && f.wf
  | .vsrl x f _ => x.wf && f.wf
  | .vsra x f _ => x.wf && f.wf
  | .vmin x f _ => x.wf && f.wf
  | .vmax x f _ => x.wf && f.wf
  | .vminu x f _ => x.wf && f.wf
  | .vmaxu x f _ => x.wf && f.wf
  | .vabs x f _ => x.wf && f.wf
  | .vadds x f _ => x.wf && f.wf
  | .vsubs x f _ => x.wf && f.wf
  | .vaddsu x f _ => x.wf && f.wf
  | .vsubsu x f _ => x.wf && f.wf
  | .vmuls x f _ => x.wf && f.wf
  | .vslls x f _ => x.wf && f.wf
  | .vabss x f _ => x.wf && f.wf
  | .veq x f => x.wf && f.wf
  | .vne x f => x.wf && f.wf
  | .vlt x f => x.wf && f.wf
  | .vle x f => x.wf && f.wf
  | .vltu x f => x.wf && f.wf
  | .vleu x f => x.wf && f.wf
  | .vfeq x f => x.wf && f.wf
  | .vflt x f => x.wf && f.wf
  | .vfle x f => x.wf && f.wf
  | .vfun x f => x.wf && f.wf
  | .vfadd x f _ => x.wf && f.wf
  | .vfsub x f _ => x.wf && f.wf
  | .vfmul x f _ => x.wf && f.wf
  | .vfma x f _ => x.wf && f.wf
  | .vfnma x f _ => x.wf && f.wf
  | .vfmin x f _ => x.wf && f.wf
  | .vfmax x f _ => x.wf && f.wf
  | .vfabs x f _ => x.wf && f.wf
  | .vfneg x f _ => x.wf && f.wf
  | .f32Bf16 x f => x.wf && f.wf
  | .bf16F32Lo x f => x.wf && f.wf
  | .bf16F32Hi x f => x.wf && f.wf
  | .i32F32 x f => x.wf && f.wf
  | .f32I32 x f => x.wf && f.wf
  | .widenLo x f => x.wf && f.wf
  | .widenHi x f => x.wf && f.wf
  | .widenuLo x f => x.wf && f.wf
  | .widenuHi x f => x.wf && f.wf
  | .narrow x f => x.wf && f.wf
  | .narrowS x f => x.wf && f.wf
  | .narrowSu x f => x.wf && f.wf
  | .vperm x f => x.wf && f.wf
  | .vbcast x f => x.wf && f.wf
  | .vslideup x f => x.wf && f.wf
  | .vslidedn x f => x.wf && f.wf
  | .vext x f => x.wf && f.wf
  | .vins x f => x.wf && f.wf
  | .viota x f => x.wf && f.wf
  | .vmv x f => x.wf && f.wf
  | .vredadd x f => x.wf && f.wf
  | .vredmin x f => x.wf && f.wf
  | .vredmax x f => x.wf && f.wf
  | .vredminu x f => x.wf && f.wf
  | .vredmaxu x f => x.wf && f.wf
  | .vfredadd x f => x.wf && f.wf
  | .vfredmin x f => x.wf && f.wf
  | .vfredmax x f => x.wf && f.wf
  | .tluI x f => x.wf && f.wf
  | .tluF x f => x.wf && f.wf
  | .rangeInit x f => x.wf && f.wf
  | .range x f => x.wf && f.wf
  | .vld x f => x.wf && f.wf
  | .vst x f => x.wf && f.wf
  | .vlds x f => x.wf && f.wf
  | .vsts x f => x.wf && f.wf
  | .vldx x f => x.wf && f.wf
  | .vstx x f => x.wf && f.wf
  | .mand x f => x.wf && f.wf
  | .mor x f => x.wf && f.wf
  | .mxor x f => x.wf && f.wf
  | .mandn x f => x.wf && f.wf
  | .mnot x f => x.wf && f.wf
  | .mpop x f => x.wf && f.wf
  | .mfirst x f => x.wf && f.wf
  | .msetN x f => x.wf && f.wf
  | .gatherPool o => o.wf
  | .updateRows o => o.wf
  | .tableSliceStart o k errors => o.wf && lt k 1000 && lt errors 3
  | .rowFetch o k => o.wf && lt k 1000
  | .sliceDelivery o k errors => o.wf && lt k 1000 && lt errors 3
  | .rowRmw o k errors => o.wf && lt k 1000 && lt errors 3
  | .replace o errors => o.wf && errors.all fun e => lt e.1 65536 && lt e.2 3
  | .hiveAdmit o => o.wf
  | .hiveEvict o => o.wf
  | .hiveSlotFree entry => fits 32 entry
  | .rebindMarkBegin o => o.wf
  | .rebindMarkEnd o => o.wf
  | .rebindMarkAbort o => o.wf
  | .stream o => o.wf
  | .copyBlock o => o.wf
  | .ringBlock o => o.wf
  | .waitBlock o => o.wf
  | .signalBlock o => o.wf
  | .chainBlock o => o.wf
  | .streamBlockReplay o _ => o.wf
  | .copyTensor o errors => o.wf && lt errors 3
  | .move o => o.wf
  | .replicate o => o.wf
  | .refresh o => o.wf
  | .withdraw o => o.wf
  | .folioCopyStart o => o.wf
  | .folioCopyDone o => o.wf
  | .folioHoldExpiry o => o.wf
  | .drainedInvalidationComplete o => o.wf
  | .invalidateRange o => o.wf
  | .invalidateSpace o => o.wf
  | .invalidatePartition o => o.wf
  | .invalidateDrainComplete o => o.wf
  | .remoteWrite o => o.o.wf
  | .remoteGather o => o.o.wf
  | .pageWalk => true
  | .tagEvictionComplete tt => lt tt 64
  | .swarmTimerClose port => lt port 2
  | .swarmPost port => lt port 2
  | .faultResumeRetry r port seq => r.wf && lt port 2 && fits 32 seq
  | .faultResumeFail r port seq => r.wf && lt port 2 && fits 32 seq
  | .faultRingDisable r port => r.wf && lt port 2
  | .arbiterRound kk inst arrivals => lt kk 6 && lt inst 256 && all arrivals arrivalOk
  | .grantEnd kk inst beats arrivals => fits 32 beats && lt kk 6 && lt inst 256 && all arrivals arrivalOk
  | .contextSwitch cc => clusterOk cc
  | .contextRestoreComplete cc => clusterOk cc
  | .clusterMoveHandover cc => clusterOk cc
  | .moveWaitExpiry cc => clusterOk cc
  | .clusterSparingStart cc => clusterOk cc.n
  | .spareSelfTestDone _ => true
  | .handoverCopyComplete unreadable => all unreadable (fits 43)
  | .handoverStopTimeout unit => lt unit 16
  | .coverChannelSparingStart nn => lt nn.n 128
  | .coverChannelCopyComplete nn unreadable => lt nn 128 && all unreadable (fits 43)
  | .rowRemapComplete chan row => lt chan 320 && fits 16 row
  | .patrolScrub chan row corrected uncorrectable => lt chan 389 && fits 16 row && fits 32 corrected && all uncorrectable (fits 52)
  | .epochEnd sample => lt sample 1024
  | .thermalLoopTick cover die => temps cover && temps die
  | .channelBandwidthCap nn => lt nn 128
  | .hbmThermalCap stack => lt stack 6
  | .dieTempLimit cc => clusterOk cc
  | .thermTrip => true
  | .powerSample watts joules => fits 16 watts && fits 64 joules
  | .coreCurrentTrip => true
  | .backstopLift => true
  | .voltageRailReport mv => fits 16 mv
  | .avsTimeout => true
  | .cxlLinkFail link => lt link 4
  | .cxlMemTimeout link => lt link 4
  | .cxlEventRecord link _ dpa => lt link 4 && fits 52 dpa
  | .writeFrame port f => lt port 6 && f.wf
  | .readReq port f => lt port 6 && f.wf
  | .readReply port f => lt port 6 && f.wf
  | .gatherReq port r => lt port 6 && r.f.wf && decide (r.errors.length ≤ 4096)
  | .gatherReply port f => lt port 6 && f.wf
  | .fence port f => lt port 6 && f.wf
  | .ack port f => lt port 6 && f.wf
  | .nak port f => lt port 6 && f.wf
  | .hello port m => lt port 6 && m.wf
  | .claim port addr hash => lt port 6 && fits 20 addr && len hash 32
  | .lsa port m => lt port 6 && m.wf
  | .helloSend => true
  | .adjacencyTimeout port addr => lt port 6 && fits 20 addr
  | .sharelLinkFault port => lt port 6
  | .sharelLinkUp port speed => lt port 6 && lt speed 3
  | .addressHeld => true
  | .lsaRefresh => true
  | .routeCompute => true
  | .ackSend peer cls => fits 20 peer && lt cls 4
  | .retransmitTimeout peer cls => fits 20 peer && lt cls 4
  | .streamIdleClose peer cls => fits 20 peer && lt cls 4
  | .fabricTimeout peer cls => fits 20 peer && lt cls 4
  | .cxlLinkUp link width speed capacity decoders _ => lt link 4 && lt width 17 && lt speed 7 && fits 52 capacity && fits 8 decoders
  | .imageReportsAlive => true
  | .transitFrame port f => lt port 6 && f.wf
  | .pfcFrame port prio _ => lt port 6 && lt prio 8
  | .frameDiscard port reason => lt port 6 && lt reason 8
  | .completionTimeout o port => o.wf && lt port 2
  | .hbmThermalCapRelease stack => lt stack 6
  | .bulkGroupFailure group => lt group 24
  | .mctpControlMessage _ command arg => fits 8 command && fits 8 arg
  | .i3cDynamicAddress addr => fits 7 addr
  | .configSpaceWrite ff reg v => fnOk ff && fits 64 v && (match reg with
    | .msixAddress n => lt n 2048
    | .msixData n => lt n 2048 && fits 32 v
    | _ => true)
  | .routerAdvertisement mtu prefix64 => fits 32 mtu && fits 64 prefix64
  | .powerDown => true

end Sys2Proof
end

