-- ==== Sys2Proof/Decode.lean ====
section
/-! DEFINITION. Commands as words. The block takes its commands from outside and the opcode table gives no row any bits, so
no word spells a command (log entry 3). -/

namespace Sys2Proof

/-- The command that the `nbits` bits of `w` spell by the table: the table gives no bits to any row, so there is none. -/
def decodeTableWord (_nbits _w : Nat) : Option Instr := none

end Sys2Proof
end

