-- ==== Sys2Proof/Machine/Sigmoid.lean ====
section
/-! DEFINITION. The fixed table of the epilogue's sigmoid (R46): sigma(-8 + n / 16) for n = 0 to 256, each rounded to nearest
even to fp32. -/

namespace Sys2Proof.Machine.Sigmoid

/-- Entries 0 to 31. -/
def part0 : List Nat := [
  0x39AFD1EF, 0x39BB27CA, 0x39C738A9, 0x39D41096, 0x39E1BC65, 0x39F049B7, 0x39FFC713, 0x3A0821F6,
  0x3A10E859, 0x3A1A3F73, 0x3A243093, 0x3A2EC5A2, 0x3A3A092D, 0x3A46066A, 0x3A52C94B, 0x3A605E85,
  0x3A6ED39C, 0x3A7E36F4, 0x3A874BED, 0x3A90034C, 0x3A994A41, 0x3AA32A03, 0x3AADAC60, 0x3AB8DBC7,
  0x3AC4C351, 0x3AD16ECC, 0x3ADEEAC6, 0x3AED449A, 0x3AFC8A7D, 0x3B0665C4, 0x3B0F0BE8, 0x3B184033]

/-- Entries 32 to 63. -/
def part1 : List Nat := [
  0x3B220BBC, 0x3B2C782A, 0x3B378FC2, 0x3B435D6E, 0x3B4FECC9, 0x3B5D4A28, 0x3B6B82A6, 0x3B7AA430,
  0x3B855ECA, 0x3B8DEF46, 0x3B970BE5, 0x3BA0BD87, 0x3BAB0D97, 0x3BB60616, 0x3BC1B1A4, 0x3BCE1B86,
  0x3BDB4FB4, 0x3BE95AE0, 0x3BF84A82, 0x3C041671, 0x3C0C8895, 0x3C1583B3, 0x3C1F104D, 0x3C293769,
  0x3C340294, 0x3C3F7BEA, 0x3C4BAE1F, 0x3C58A489, 0x3C666B21, 0x3C750E91, 0x3C824E1F, 0x3C8A9125]

/-- Entries 64 to 95. -/
def part2 : List Nat := [
  0x3C9357D1, 0x3C9CAA03, 0x3CA69009, 0x3CB112A3, 0x3CBC3B0A, 0x3CC812EF, 0x3CD4A486, 0x3CE1FA88,
  0x3CF02034, 0x3CFF2159, 0x3D07852A, 0x3D0FF40B, 0x3D18E414, 0x3D225C56, 0x3D2C642E, 0x3D37034A,
  0x3D4241A2, 0x3D4E277E, 0x3D5ABD73, 0x3D680C60, 0x3D761D6B, 0x3D827D02, 0x3D8A55EB, 0x3D929E68,
  0x3D9B5B89, 0x3DA49275, 0x3DAE4868, 0x3DB882AD, 0x3DC34695, 0x3DCE9974, 0x3DDA8099, 0x3DE70147]

/-- Entries 96 to 127. -/
def part3 : List Nat := [
  0x3DF420A9, 0x3E00F1E6, 0x3E0827C7, 0x3E0FB44E, 0x3E1799AF, 0x3E1FD9F6, 0x3E287701, 0x3E317277,
  0x3E3ACDC2, 0x3E448A07, 0x3E4EA820, 0x3E592891, 0x3E640B81, 0x3E6F50B8, 0x3E7AF791, 0x3E837F7C,
  0x3E89B2B1, 0x3E901465, 0x3E96A358, 0x3E9D5E08, 0x3EA442B1, 0x3EAB4F4F, 0x3EB2819D, 0x3EB9D71A,
  0x3EC14D03, 0x3EC8E05F, 0x3ED08E01, 0x3ED85287, 0x3EE02A67, 0x3EE811F0, 0x3EF00553, 0x3EF800AB]

/-- Entries 128 to 159. -/
def part4 : List Nat := [
  0x3F000000, 0x3F03FFAB, 0x3F07FD56, 0x3F0BF708, 0x3F0FEACD, 0x3F13D6BC, 0x3F17B900, 0x3F1B8FD0,
  0x3F1F597F, 0x3F231473, 0x3F26BF31, 0x3F2A5859, 0x3F2DDEA8, 0x3F3150FC, 0x3F34AE54, 0x3F37F5CD,
  0x3F3B26A8, 0x3F3E4042, 0x3F41421C, 0x3F442BD2, 0x3F46FD20, 0x3F49B5DC, 0x3F4C55F8, 0x3F4EDD7E,
  0x3F514C90, 0x3F53A362, 0x3F55E240, 0x3F580982, 0x3F5A1994, 0x3F5C12EC, 0x3F5DF60E, 0x3F5FC387]

/-- Entries 160 to 191. -/
def part5 : List Nat := [
  0x3F617BEB, 0x3F631FD7, 0x3F64AFED, 0x3F662CD2, 0x3F67972D, 0x3F68EFAA, 0x3F6A36F3, 0x3F6B6DB1,
  0x3F6C948F, 0x3F6DAC33, 0x3F6EB543, 0x3F6FB060, 0x3F709E29, 0x3F717F3A, 0x3F725429, 0x3F731D88,
  0x3F73DBE6, 0x3F748FCB, 0x3F7539BD, 0x3F75DA3B, 0x3F7671BF, 0x3F7700BF, 0x3F7787AD, 0x3F7806F5,
  0x3F787EFE, 0x3F78F02C, 0x3F795ADC, 0x3F79BF69, 0x3F7A1E28, 0x3F7A776B, 0x3F7ACB80, 0x3F7B1AB0]

/-- Entries 192 to 223. -/
def part6 : List Nat := [
  0x3F7B6541, 0x3F7BAB77, 0x3F7BED8F, 0x3F7C2BC6, 0x3F7C6653, 0x3F7C9D6E, 0x3F7CD148, 0x3F7D0210,
  0x3F7D2FF6, 0x3F7D5B22, 0x3F7D83BF, 0x3F7DA9F1, 0x3F7DCDDE, 0x3F7DEFA6, 0x3F7E0F6B, 0x3F7E2D4A,
  0x3F7E4961, 0x3F7E63C9, 0x3F7E7C9D, 0x3F7E93F4, 0x3F7EA9E5, 0x3F7EBE85, 0x3F7ED1E8, 0x3F7EE421,
  0x3F7EF542, 0x3F7F055C, 0x3F7F147D, 0x3F7F22B6, 0x3F7F3013, 0x3F7F3CA3, 0x3F7F4870, 0x3F7F5388]

/-- Entries 224 to 255. -/
def part7 : List Nat := [
  0x3F7F5DF4, 0x3F7F67C0, 0x3F7F70F4, 0x3F7F799A, 0x3F7F81BB, 0x3F7F895E, 0x3F7F908B, 0x3F7F9749,
  0x3F7F9D9E, 0x3F7FA392, 0x3F7FA92A, 0x3F7FAE6B, 0x3F7FB35B, 0x3F7FB7FE, 0x3F7FBC5A, 0x3F7FC072,
  0x3F7FC44B, 0x3F7FC7E8, 0x3F7FCB4E, 0x3F7FCE7E, 0x3F7FD17E, 0x3F7FD44F, 0x3F7FD6F4, 0x3F7FD970,
  0x3F7FDBC6, 0x3F7FDDF8, 0x3F7FE007, 0x3F7FE1F7, 0x3F7FE3C8, 0x3F7FE57E, 0x3F7FE719, 0x3F7FE89B]

/-- Entries 256 to 256. -/
def part8 : List Nat := [
  0x3F7FEA06]

/-- The table. -/
def table : List Nat := part0 ++ part1 ++ part2 ++ part3 ++ part4 ++ part5 ++ part6 ++ part7 ++ part8

/-- Entry `n`. -/
def entry (n : Nat) : Nat := table.getD n 0

end Sys2Proof.Machine.Sigmoid
end

