-- ==== Sys2Proof/Machine/Float.lean ====
section
/-! DEFINITION. Floating point of 02_formats_and_quantisation.md: exact dyadic values, one rounding to nearest even (R17, R18,
R69), the condition flags of R70, and the flush of subnormals that the matrix engines make (R17). Numbers are the formats'
bit patterns. -/

namespace Sys2Proof.Machine

/-- A binary format: exponent bits and fraction bits (R15). -/
structure Fmt where
  eb : Nat
  fb : Nat
deriving DecidableEq, Repr

def bf16 : Fmt := ⟨8, 7⟩
def fp16 : Fmt := ⟨5, 10⟩
def fp32 : Fmt := ⟨8, 23⟩

namespace Fmt

/-- Bits of the format. -/
def width (f : Fmt) : Nat := 1 + f.eb + f.fb

/-- The exponent bias. -/
def bias (f : Fmt) : Nat := 2 ^ (f.eb - 1) - 1

/-- The bit pattern of the sign. -/
def signBit (f : Fmt) : Nat := 2 ^ (f.eb + f.fb)

/-- Infinity with the given sign. -/
def infBits (f : Fmt) (neg : Bool) : Nat := b2n neg * f.signBit + (2 ^ f.eb - 1) * 2 ^ f.fb

/-- The canonical quiet NaN (R17). -/
def nanBits (f : Fmt) : Nat := (2 ^ f.eb - 1) * 2 ^ f.fb + 2 ^ (f.fb - 1)

/-- The largest finite number with the given sign. -/
def maxFinite (f : Fmt) (neg : Bool) : Nat := b2n neg * f.signBit + (2 ^ f.eb - 1) * 2 ^ f.fb - 1

end Fmt

/-- The value of a bit pattern: a NaN, an infinity, or plus or minus `m * 2 ^ e`. -/
inductive FNum where
  | nan
  | inf (neg : Bool)
  | fin (neg : Bool) (m : Nat) (e : Int)
deriving DecidableEq, Repr

/-- Conditions met by a float operation (R70): invalid, overflow, underflow, inexact. -/
structure FF where
  nv : Bool := false
  ovf : Bool := false
  uf : Bool := false
  nx : Bool := false
deriving DecidableEq, Repr

/-- The union of two sets of conditions. -/
def FF.or (a b : FF) : FF := ⟨a.nv || b.nv, a.ovf || b.ovf, a.uf || b.uf, a.nx || b.nx⟩

/-- The value a bit pattern holds. -/
def fdecode (f : Fmt) (x : Nat) : FNum :=
  let neg := flag x (f.eb + f.fb)
  let ex := bits x (f.eb + f.fb - 1) f.fb
  let fr := x % 2 ^ f.fb
  if ex = 2 ^ f.eb - 1 then
    if fr = 0 then .inf neg else .nan
  else if ex = 0 then .fin neg fr (1 - (f.bias : Int) - f.fb)
  else .fin neg (2 ^ f.fb + fr) ((ex : Int) - f.bias - f.fb)

/-- A signalling NaN: a NaN whose first fraction bit is clear. -/
def isSignalling (f : Fmt) (x : Nat) : Bool :=
  fdecode f x == .nan && !flag x (f.fb - 1)

def isNan (f : Fmt) (x : Nat) : Bool := fdecode f x == .nan

/-- Neither a NaN nor an infinity. -/
def isFinite (f : Fmt) (x : Nat) : Bool :=
  match fdecode f x with
  | .fin _ _ _ => true
  | _ => false

/-- `m * 2 ^ e` with the given sign, rounded once to nearest even. Tininess is judged after rounding (R17). -/
def fround (f : Fmt) (neg : Bool) (m : Nat) (e : Int) : Nat × FF :=
  let s := b2n neg * f.signBit
  if m = 0 then (s, {}) else
  let emin : Int := 1 - (f.bias : Int)
  let q : Int := max ((Nat.log2 m : Int) + e - f.fb) (emin - f.fb)
  let d : Int := q - e
  let (n, nx) : Nat × Bool :=
    if d ≤ 0 then (m * 2 ^ (-d).toNat, false)
    else
      let k := d.toNat
      let n := m >>> k
      let r := m % 2 ^ k
      let up := decide (2 ^ (k - 1) < r) || (decide (r = 2 ^ (k - 1)) && n % 2 == 1)
      (n + b2n up, r != 0)
  if n < 2 ^ f.fb then (s + n, { uf := nx, nx := nx })
  else
    let (n, q) := if 2 ^ (f.fb + 1) ≤ n then (n / 2, q + 1) else (n, q)
    let ex := (q + f.fb + f.bias).toNat
    if 2 ^ f.eb - 1 ≤ ex then (f.infBits neg, { ovf := true, nx := true })
    else (s + ex * 2 ^ f.fb + (n - 2 ^ f.fb), { nx := nx })

/-- A value as a bit pattern, rounded once. -/
def fencode (f : Fmt) : FNum → Nat × FF
  | .nan => (f.nanBits, {})
  | .inf neg => (f.infBits neg, {})
  | .fin neg m e => fround f neg m e

/-- The exact product. -/
def fmulX : FNum → FNum → FNum × Bool
  | .nan, _ => (.nan, false)
  | _, .nan => (.nan, false)
  | .inf a, .inf b => (.inf (a != b), false)
  | .inf a, .fin b m _ => if m = 0 then (.nan, true) else (.inf (a != b), false)
  | .fin a m _, .inf b => if m = 0 then (.nan, true) else (.inf (a != b), false)
  | .fin a m e, .fin b n d => (.fin (a != b) (m * n) (e + d), false)

/-- The exact sum; a sum of zero is +0 unless both terms are -0. -/
def faddX : FNum → FNum → FNum × Bool
  | .nan, _ => (.nan, false)
  | _, .nan => (.nan, false)
  | .inf a, .inf b => if a = b then (.inf a, false) else (.nan, true)
  | .inf a, _ => (.inf a, false)
  | _, .inf b => (.inf b, false)
  | .fin a m e, .fin b n d =>
    let l := min e d
    let x : Int := (if a then -1 else 1) * ((m * 2 ^ (e - l).toNat : Nat) : Int)
    let y : Int := (if b then -1 else 1) * ((n * 2 ^ (d - l).toNat : Nat) : Int)
    let z := x + y
    if z = 0 then (.fin (a && b) 0 l, false)
    else (.fin (decide (z < 0)) z.natAbs l, false)

def fnegX : FNum → FNum
  | .nan => .nan
  | .inf a => .inf !a
  | .fin a m e => .fin (!a) m e

/-- Whether some operand is a signalling NaN, which every operation reports as invalid (R70). -/
def anySignalling (f : Fmt) (xs : List Nat) : Bool := xs.any (isSignalling f)

def fadd (f : Fmt) (a b : Nat) : Nat × FF :=
  let (z, nv) := faddX (fdecode f a) (fdecode f b)
  let (r, fl) := fencode f z
  (r, { fl with nv := nv || anySignalling f [a, b] })

/-- The pattern with its sign inverted. -/
def fneg (f : Fmt) (a : Nat) : Nat := if flag a (f.eb + f.fb) then a - f.signBit else a + f.signBit

/-- The pattern with its sign cleared. -/
def fabs (f : Fmt) (a : Nat) : Nat := a % f.signBit

def fsub (f : Fmt) (a b : Nat) : Nat × FF :=
  let (z, nv) := faddX (fdecode f a) (fnegX (fdecode f b))
  let (r, fl) := fencode f z
  (r, { fl with nv := nv || anySignalling f [a, b] })

def fmul (f : Fmt) (a b : Nat) : Nat × FF :=
  let (z, nv) := fmulX (fdecode f a) (fdecode f b)
  let (r, fl) := fencode f z
  (r, { fl with nv := nv || anySignalling f [a, b] })

/-- `a * b + c`, rounded once. -/
def ffma (f : Fmt) (a b c : Nat) : Nat × FF :=
  let (p, nv1) := fmulX (fdecode f a) (fdecode f b)
  let (z, nv2) := faddX p (fdecode f c)
  let (r, fl) := fencode f z
  (r, { fl with nv := nv1 || nv2 || anySignalling f [a, b, c] })

/-- `-(a * b) + c`, rounded once. -/
def ffnma (f : Fmt) (a b c : Nat) : Nat × FF :=
  let (p, nv1) := fmulX (fdecode f a) (fdecode f b)
  let (z, nv2) := faddX (fnegX p) (fdecode f c)
  let (r, fl) := fencode f z
  (r, { fl with nv := nv1 || nv2 || anySignalling f [a, b, c] })

/-- The quotient, correctly rounded. -/
def fdiv (f : Fmt) (a b : Nat) : Nat :=
  match fdecode f a, fdecode f b with
  | .nan, _ => f.nanBits
  | _, .nan => f.nanBits
  | .inf _, .inf _ => f.nanBits
  | .inf s, .fin t _ _ => f.infBits (s != t)
  | .fin s _ _, .inf t => b2n (s != t) * f.signBit
  | .fin s m e, .fin t n d =>
    if n = 0 then (if m = 0 then f.nanBits else f.infBits (s != t))
    else
      let k := f.fb + 4 + Nat.log2 n
      let q := (m * 2 ^ k) / n
      let r := (m * 2 ^ k) % n
      (fround f (s != t) (2 * q + b2n (r != 0)) (e - d - k - 1)).1

/-- The largest `r` built from the bits `2 ^ i` down to 1 on top of `r` with `r * r ≤ n`. -/
def isqrtFrom (n : Nat) : Nat → Nat → Nat
  | 0, r => if (r + 1) * (r + 1) ≤ n then r + 1 else r
  | i + 1, r => isqrtFrom n i (if (r + 2 ^ (i + 1)) * (r + 2 ^ (i + 1)) ≤ n then r + 2 ^ (i + 1) else r)

/-- The integer square root. -/
def isqrt (n : Nat) : Nat := isqrtFrom n (Nat.log2 n / 2 + 1) 0

/-- The square root, correctly rounded. -/
def fsqrt (f : Fmt) (a : Nat) : Nat :=
  match fdecode f a with
  | .nan => f.nanBits
  | .inf false => f.infBits false
  | .inf true => f.nanBits
  | .fin s m e =>
    if m = 0 then b2n s * f.signBit
    else if s then f.nanBits
    else
      let k := 2 * (f.fb + 3) + b2n (e % 2 != 0)
      let x := m * 2 ^ k
      let r := isqrt x
      (fround f false (2 * r + b2n (r * r != x)) ((e - k) / 2 - 1)).1

/-- The order of R69 and R72: -0.0 below +0.0. Not for NaNs. -/
def forderKey (f : Fmt) (x : Nat) : Int :=
  if flag x (f.eb + f.fb) then -((x % f.signBit : Nat) : Int) - 1 else x

/-- minimumNumber (R69). -/
def fmin (f : Fmt) (a b : Nat) : Nat :=
  if isNan f a then (if isNan f b then f.nanBits else b)
  else if isNan f b then a
  else if forderKey f a ≤ forderKey f b then a else b

/-- maximumNumber (R69). -/
def fmax (f : Fmt) (a b : Nat) : Nat :=
  if isNan f a then (if isNan f b then f.nanBits else b)
  else if isNan f b then a
  else if forderKey f a ≤ forderKey f b then b else a

/-- `a = b` as numbers. -/
def feq (f : Fmt) (a b : Nat) : Bool :=
  !isNan f a && !isNan f b && (a == b || (a % f.signBit == 0 && b % f.signBit == 0))

/-- `a < b` as numbers. -/
def flt (f : Fmt) (a b : Nat) : Bool :=
  !isNan f a && !isNan f b && !feq f a b && decide (forderKey f a < forderKey f b)

/-- `a ≤ b` as numbers. -/
def fle (f : Fmt) (a b : Nat) : Bool := flt f a b || feq f a b

/-- Conversion between formats, one rounding; a NaN becomes the canonical NaN (R18). -/
def fconv (f g : Fmt) (x : Nat) : Nat × FF :=
  let (r, fl) := fencode g (fdecode f x)
  (r, { fl with nv := isSignalling f x })

/-- An integer as a float, one rounding (R18). -/
def fofInt (f : Fmt) (z : Int) : Nat × FF := fround f (decide (z < 0)) z.natAbs 0

/-- A finite value rounded to the nearest integer, ties to even. -/
def rneInt (neg : Bool) (m : Nat) (e : Int) : Int :=
  let n : Nat :=
    if 0 ≤ e then m * 2 ^ e.toNat
    else
      let k := (-e).toNat
      let n := m >>> k
      let r := m % 2 ^ k
      if 2 ^ (k - 1) < r || (r = 2 ^ (k - 1) && n % 2 = 1) then n + 1 else n
  if neg then -(n : Int) else n

/-- The largest integer not above a finite value. -/
def floorInt (neg : Bool) (m : Nat) (e : Int) : Int :=
  if 0 ≤ e then (if neg then -((m * 2 ^ e.toNat : Nat) : Int) else ((m * 2 ^ e.toNat : Nat) : Int))
  else
    let k := (-e).toNat
    let n := m >>> k
    if neg then (if m % 2 ^ k = 0 then -(n : Int) else -(n : Int) - 1) else n

/-- Whether a finite value is an integer. -/
def isInteger (m : Nat) (e : Int) : Bool := decide (0 ≤ e) || m % 2 ^ (-e).toNat == 0

/-- `rne_int` of R22 on an fp32 pattern; 0 for a NaN or an infinity, which R22 never meets. -/
def frneInt (f : Fmt) (x : Nat) : Int :=
  match fdecode f x with
  | .fin s m e => rneInt s m e
  | _ => 0

/-- Float to signed integer of `w` bits with saturation; NaN gives 0 (R18, R69). -/
def ftoInt (f : Fmt) (w : Nat) (x : Nat) : Int × FF :=
  let lo : Int := -((2 ^ (w - 1) : Nat) : Int)
  let hi : Int := ((2 ^ (w - 1) : Nat) : Int) - 1
  match fdecode f x with
  | .nan => (0, { nv := true })
  | .inf s => (if s then lo else hi, { nv := true })
  | .fin s m e =>
    let z := rneInt s m e
    if z < lo then (lo, { nv := true })
    else if hi < z then (hi, { nv := true })
    else (z, { nx := !isInteger m e })

/-- A subnormal pattern as zero of the same sign (the engines' inputs and results, R17). -/
def flush (f : Fmt) (x : Nat) : Nat :=
  if bits x (f.eb + f.fb - 1) f.fb = 0 then b2n (flag x (f.eb + f.fb)) * f.signBit else x

/-- The engines' fp32 operations: subnormal inputs and results are zero (R17). -/
def eAdd (a b : Nat) : Nat := flush fp32 (fadd fp32 (flush fp32 a) (flush fp32 b)).1
def eSub (a b : Nat) : Nat := flush fp32 (fsub fp32 (flush fp32 a) (flush fp32 b)).1
def eMul (a b : Nat) : Nat := flush fp32 (fmul fp32 (flush fp32 a) (flush fp32 b)).1
def eFma (a b c : Nat) : Nat := flush fp32 (ffma fp32 (flush fp32 a) (flush fp32 b) (flush fp32 c)).1
def eDiv (a b : Nat) : Nat := flush fp32 (fdiv fp32 (flush fp32 a) (flush fp32 b))

/-- bf16 widened exactly to fp32. -/
def bfToF32 (x : Nat) : Nat := (x % 65536) * 65536

/-- The pattern of fp32 1.0. -/
def f32One : Nat := 0x3F800000

end Sys2Proof.Machine
end

