-- ==== Sys2Proof/Machine/Keccak.lean ====
section
/-! DEFINITION. SHAKE256 (FIPS 202) and KMAC256 (SP 800-185), which R379, R441, R442, R443 and R463 name. -/

namespace Sys2Proof.Machine

namespace Keccak

def rotl (x n : Nat) : Nat := ((x <<< n) ||| (x >>> (64 - n))) % 2 ^ 64

/-- Lane `i` of a state of 25 lanes. -/
def lane (a : List Nat) (i : Nat) : Nat := a.getD i 0

/-- Rotation offsets of the rho step, by lane x + 5 y. -/
def offsets : List Nat :=
  [0, 1, 62, 28, 27, 36, 44, 6, 55, 20, 3, 10, 43, 25, 39, 41, 45, 15, 21, 8, 18, 2, 61, 56, 14]

/-- Round constants of the iota step. -/
def constants : List Nat :=
  [0x1, 0x8082, 0x800000000000808A, 0x8000000080008000, 0x808B, 0x80000001, 0x8000000080008081, 0x8000000000008009,
   0x8A, 0x88, 0x80008009, 0x8000000A, 0x8000808B, 0x800000000000008B, 0x8000000000008089, 0x8000000000008003,
   0x8000000000008002, 0x8000000000000080, 0x800A, 0x800000008000000A, 0x8000000080008081, 0x8000000000008080,
   0x80000001, 0x8000000080008008]

def theta (a : List Nat) : List Nat :=
  let c := (List.range 5).map fun x => lane a x ^^^ lane a (x + 5) ^^^ lane a (x + 10) ^^^ lane a (x + 15) ^^^ lane a (x + 20)
  let d := (List.range 5).map fun x => lane c ((x + 4) % 5) ^^^ rotl (lane c ((x + 1) % 5)) 1
  (List.range 25).map fun i => lane a i ^^^ lane d (i % 5)

/-- Rho and pi: lane (x, y) moves to (y, 2x + 3y). -/
def rhoPi (a : List Nat) : List Nat :=
  (List.range 25).map fun i =>
    let x := i % 5
    let y := i / 5
    let j := (x + 3 * y) % 5 + 5 * x
    rotl (lane a j) (offsets.getD j 0)

def chi (a : List Nat) : List Nat :=
  (List.range 25).map fun i =>
    let x := i % 5
    let y := i / 5
    lane a i ^^^ ((2 ^ 64 - 1 - lane a ((x + 1) % 5 + 5 * y)) &&& lane a ((x + 2) % 5 + 5 * y))

def iota (a : List Nat) (rc : Nat) : List Nat :=
  match a with
  | [] => []
  | x :: xs => (x ^^^ rc) :: xs

/-- The permutation Keccak-f[1600]. -/
def permute (a : List Nat) : List Nat := constants.foldl (fun a rc => iota (chi (rhoPi (theta a))) rc) a

/-- The state after absorbing one block of 17 lanes (rate 1,088 bits). -/
def absorb (a : List Nat) (block : List (BitVec 8)) : List Nat :=
  permute ((List.range 25).map fun i => lane a i ^^^ leNat ((block.drop (8 * i)).take (if i < 17 then 8 else 0)))

/-- Blocks of 136 bytes. -/
def absorbAll : Nat → List Nat → List (BitVec 8) → List Nat
  | 0, a, _ => a
  | n + 1, a, m => absorbAll n (absorb a (m.take 136)) (m.drop 136)

/-- The bytes of the rate part of a state. -/
def rateBytes (a : List Nat) : List (BitVec 8) := (a.take 17).flatMap (leBytes 8)

/-- `n` blocks of output. -/
def squeeze : Nat → List Nat → List (BitVec 8)
  | 0, _ => []
  | n + 1, a => rateBytes a ++ squeeze n (permute a)

/-- Padding: the domain suffix, zeros, and the top bit of the last byte of the block. -/
def pad (suffix : Nat) (m : List (BitVec 8)) : List (BitVec 8) :=
  let k := 136 - m.length % 136
  if k = 1 then m ++ [BitVec.ofNat 8 (suffix + 128)]
  else m ++ BitVec.ofNat 8 suffix :: List.replicate (k - 2) 0 ++ [128]

/-- The sponge with capacity 512. -/
def sponge (suffix : Nat) (m : List (BitVec 8)) (n : Nat) : List (BitVec 8) :=
  let p := pad suffix m
  (squeeze (n / 136 + 1) (absorbAll (p.length / 136) (List.replicate 25 0) p)).take n

/-- `left_encode` of SP 800-185 for values below 2^24. -/
def leftEncode (n : Nat) : List (BitVec 8) :=
  let b := if n < 256 then 1 else if n < 65536 then 2 else 3
  BitVec.ofNat 8 b :: (leBytes b n).reverse

/-- `right_encode` of SP 800-185 for values below 2^24. -/
def rightEncode (n : Nat) : List (BitVec 8) :=
  let b := if n < 256 then 1 else if n < 65536 then 2 else 3
  (leBytes b n).reverse ++ [BitVec.ofNat 8 b]

def encodeString (m : List (BitVec 8)) : List (BitVec 8) := leftEncode (8 * m.length) ++ m

def bytepad (m : List (BitVec 8)) : List (BitVec 8) :=
  let x := leftEncode 136 ++ m
  x ++ List.replicate ((136 - x.length % 136) % 136) 0

end Keccak

/-- SHAKE256: `n` bytes of output. -/
def shake256 (m : List (BitVec 8)) (n : Nat) : List (BitVec 8) := Keccak.sponge 0x1F m n

/-- The ASCII bytes of a string. -/
def ascii (t : String) : List (BitVec 8) := t.toList.map fun c => BitVec.ofNat 8 c.toNat

/-- KMAC256 with an output of `nbits` bits and a customisation string. -/
def kmac256 (key m : List (BitVec 8)) (nbits : Nat) (custom : String) : List (BitVec 8) :=
  Keccak.sponge 0x04
    (Keccak.bytepad (Keccak.encodeString (ascii "KMAC") ++ Keccak.encodeString (ascii custom)) ++
      Keccak.bytepad (Keccak.encodeString key) ++ m ++ Keccak.rightEncode nbits) (nbits / 8)

end Sys2Proof.Machine
end

