-- ==== Sys2Proof/Config.lean ====
section
/-! DEFINITION. What one implementation or one board fixes, and the values the spec leaves open. Every constant here is
opaque: no proof can see its value, so a claim about it holds for every value (log entries 5 to 9). -/

namespace Sys2Proof.Config

/-- The `n`-th arbitrary number the device produces: cycle stamps, cycle counts, challenge bytes, and every value the spec
leaves open. `State.free` counts how many have been taken (log entry 5). -/
opaque freeValue : Nat → Nat

/-- The byte that bus address `a` of the memory behind host port `p` holds when the device reads it for the `n`-th time it
has drawn an arbitrary number: host software may change its memory at any moment, so no two reads are tied (log entry 6). -/
opaque hostByte (p a n : Nat) : Byte

/-- The byte at device-physical address `a` of the expander on CXL link `l` that the device has not written since the link
was trained (R411: the memory is volatile and the spec gives it no initial content) (log entry 7). -/
opaque farByte (l a : Nat) : Byte

/-- Which burst of every group of `2^sample_shift` the sampling of R135 takes: the spec says one in so many, not which
(log entry 87). -/
opaque samplePhase : Nat

/-- The hash of source, destination and class that picks a stream's next hop among equal-cost ones (R381 names no hash)
(log entry 5). -/
opaque hopHash (src dst cls : Nat) : Nat

/-- The threshold of a priority's ingress buffer at a Sharel port, in bytes, past which the port sends PFC XOFF (R373 gives none)
(log entry 50). -/
opaque pfcThreshold (port prio : Nat) : Nat

/-- SLH-DSA-SHAKE-256s verification (FIPS 205): public key, message, signature (log entry 8). -/
opaque slhVerify (pk msg sig : List Byte) : Bool

/-- SLH-DSA-SHAKE-256f signing with the device identity key (R461, R463) (log entry 8). -/
opaque identitySign (msg : List Byte) : List Byte

/-- The 64-byte identity public key derived from the fused seed (R461) (log entry 9). -/
opaque identityPk : List Byte

/-- The certificate fused at manufacture (R462) (log entry 9). -/
opaque identityCert : List Byte

/-- SHAKE256 of the mask ROM, measurement 0 of R463 (log entry 9). -/
opaque romDigest : List Byte

/-- The hash Drelutric fuses into key slot 0 at manufacture (R450) (log entry 9). -/
opaque keySlot0 : List Byte

/-- The subsystem identifier fused by the board maker (R396) (log entry 9). -/
opaque subsystemId : Nat

/-- The fused offset of step `n` in the voltage table; R479 bounds the entry to 600-800 mV (log entry 9). -/
opaque vfRaw (n : Nat) : Nat

/-- Millivolts of VDD_CORE that frequency step `n` needs (0xB012, R479: fused, 600-800). -/
def vfTable (n : Nat) : Nat := 600 + vfRaw n % 201

end Sys2Proof.Config
end

