-- ==== Sys2Proof/Machine/Catalog.lean ====
section
/-! DEFINITION. The objects of the Amiso dictionary (19_amiso_dictionary.md, R419 to R425, R445, and the object tables of every
other chapter): index, subindices, type, access kind, rights, default, range and encodings. -/

namespace Sys2Proof.Machine

/-- What the subindex of an object numbers, for the scope rule of R425. -/
inductive Scope where
  | device
  | partition
  | cluster
  | engine
  | context
  | fn
  | slot
  | reader
  | hostPort
deriving DecidableEq, Repr

/-- The access kinds of R421. -/
inductive Acc where
  | ro | rw | wo | rwc | const
deriving DecidableEq, Repr

/-- One run of objects of one index: subindices `lo` to `hi` (R419, R422). `ty` is the type code of R420 and `size` the
bytes of a BLOB's or STR's maximum or of a REC. `wr` is the write rule code of R424; the read rule is that of R424.
`min`, `max` and `step` bound a scalar value. -/
structure ObjDef where
  index : Nat
  lo : Nat
  hi : Nat
  ty : Nat
  acc : Acc
  scope : Scope := .device
  wr : Nat := 3
  size : Nat := 0
  dflt : Nat := 0
  min : Nat := 0
  max : Nat := 2 ^ 512
  step : Nat := 1
deriving DecidableEq, Repr

namespace Catalog

/-- Objects of identity, readiness, partitions and contexts (0x1000 to 0x3FFF). -/
def part1 : List ObjDef := [
  { index := 0x1000, lo := 1, hi := 1, ty := 7, acc := .const, size := 7 },
  { index := 0x1000, lo := 2, hi := 2, ty := 2, acc := .const, dflt := 0x00B1 },
  { index := 0x1010, lo := 1, hi := 6, ty := 2, acc := .const },
  { index := 0x1020, lo := 0, hi := 0, ty := 8, acc := .ro, size := 4096 },
  { index := 0x1030, lo := 1, hi := 1, ty := 3, acc := .ro },
  { index := 0x1040, lo := 1, hi := 1, ty := 1, acc := .ro },
  { index := 0x2000, lo := 1, hi := 1, ty := 3, acc := .ro },
  { index := 0x2000, lo := 2, hi := 2, ty := 1, acc := .ro },
  { index := 0x2001, lo := 0, hi := 1, ty := 1, acc := .ro },
  { index := 0x2002, lo := 0, hi := 63, ty := 1, acc := .ro, scope := .cluster },
  { index := 0x2003, lo := 0, hi := 1, ty := 1, acc := .ro },
  { index := 0x2004, lo := 0, hi := 5, ty := 1, acc := .ro },
  { index := 0x2005, lo := 0, hi := 31, ty := 1, acc := .ro },
  { index := 0x2006, lo := 0, hi := 5, ty := 1, acc := .ro },
  { index := 0x2007, lo := 0, hi := 3, ty := 1, acc := .ro },
  { index := 0x2008, lo := 1, hi := 1, ty := 1, acc := .ro },
  { index := 0x2010, lo := 1, hi := 1, ty := 1, acc := .wo, max := 1 },
  { index := 0x2010, lo := 2, hi := 2, ty := 1, acc := .wo, max := 63 },
  { index := 0x2010, lo := 3, hi := 3, ty := 1, acc := .wo, min := 1, max := 1 },
  { index := 0x3000, lo := 0, hi := 7, ty := 4, acc := .rwc, scope := .partition, dflt := 48 * 2 ^ 53 + 500 * 2 ^ 38 },
  { index := 0x3001, lo := 0, hi := 63, ty := 1, acc := .rwc, scope := .cluster, dflt := 0xF },
  { index := 0x3002, lo := 1, hi := 1, ty := 1, acc := .ro },
  { index := 0x3002, lo := 2, hi := 2, ty := 3, acc := .rw, dflt := 20000, min := 100, max := 1000000 },
  { index := 0x3010, lo := 0, hi := 255, ty := 4, acc := .ro, scope := .context },
  { index := 0x3011, lo := 0, hi := 255, ty := 4, acc := .ro, scope := .context },
  { index := 0x3012, lo := 0, hi := 255, ty := 4, acc := .ro, scope := .context },
  { index := 0x3013, lo := 0, hi := 255, ty := 4, acc := .ro, scope := .context },
  { index := 0x3020, lo := 1, hi := 1, ty := 8, acc := .wo, wr := 2, size := 64 },
  { index := 0x3020, lo := 2, hi := 2, ty := 2, acc := .wo, wr := 2, max := 1023 },
  { index := 0x3030, lo := 0, hi := 7, ty := 4, acc := .rwc, scope := .partition },
  { index := 0x3031, lo := 0, hi := 7, ty := 2, acc := .ro, scope := .partition },
  { index := 0x3032, lo := 0, hi := 7, ty := 4, acc := .ro, scope := .partition },
  { index := 0x3040, lo := 0, hi := 7, ty := 9, acc := .rwc, scope := .partition, size := 8 },
  { index := 0x3060, lo := 0, hi := 7, ty := 4, acc := .ro, scope := .partition },
  { index := 0x3061, lo := 0, hi := 7, ty := 4, acc := .ro, scope := .partition },
  { index := 0x3062, lo := 0, hi := 7, ty := 4, acc := .ro, scope := .partition },
  { index := 0x3070, lo := 0, hi := 7, ty := 3, acc := .rwc, scope := .partition, dflt := 512 * 2 ^ 12 },
  { index := 0x3071, lo := 1, hi := 1, ty := 3, acc := .rw, dflt := 2000000, max := 600000000 },
  { index := 0x3090, lo := 1, hi := 1, ty := 3, acc := .ro },
  { index := 0x3090, lo := 2, hi := 2, ty := 4, acc := .ro },
  { index := 0x3091, lo := 1, hi := 3, ty := 4, acc := .ro },
  { index := 0x3100, lo := 0, hi := 31, ty := 1, acc := .ro },
  { index := 0x3101, lo := 0, hi := 31, ty := 4, acc := .ro },
  { index := 0x3103, lo := 1, hi := 2, ty := 4, acc := .ro },
  { index := 0x3104, lo := 0, hi := 7, ty := 4, acc := .rwc },
  { index := 0x3105, lo := 1, hi := 1, ty := 4, acc := .ro },
  { index := 0x3106, lo := 1, hi := 1, ty := 1, acc := .ro },
  { index := 0x3107, lo := 1, hi := 1, ty := 4, acc := .ro } ]

/-- The sixteen indices of `graph_gen` (R271). -/
def graphGen : List ObjDef :=
  (List.range 16).map fun i => { index := 0x3050 + i, lo := 0, hi := 255, ty := 3, acc := .ro }

/-- Objects of tiers and placement (0x4000). -/
def part2 : List ObjDef := [
  { index := 0x4010, lo := 0, hi := 127, ty := 1, acc := .ro },
  { index := 0x4011, lo := 0, hi := 1, ty := 1, acc := .ro, dflt := 4 },
  { index := 0x4012, lo := 0, hi := 127, ty := 1, acc := .ro },
  { index := 0x4020, lo := 0, hi := 63, ty := 2, acc := .ro, scope := .cluster },
  { index := 0x4021, lo := 0, hi := 63, ty := 1, acc := .ro, scope := .cluster },
  { index := 0x4030, lo := 0, hi := 63, ty := 9, acc := .rwc, size := 8 },
  { index := 0x4050, lo := 0, hi := 127, ty := 3, acc := .ro },
  { index := 0x4051, lo := 0, hi := 191, ty := 3, acc := .ro },
  { index := 0x4053, lo := 1, hi := 1, ty := 1, acc := .rw, dflt := 24, min := 1, max := 168 },
  { index := 0x4054, lo := 1, hi := 1, ty := 1, acc := .rw, dflt := 3, min := 1, max := 255 },
  { index := 0x4055, lo := 0, hi := 127, ty := 2, acc := .ro },
  { index := 0x4056, lo := 0, hi := 191, ty := 2, acc := .ro },
  { index := 0x4057, lo := 1, hi := 1, ty := 1, acc := .rw, dflt := 8, min := 1, max := 255 },
  { index := 0x4060, lo := 1, hi := 3, ty := 4, acc := .ro },
  { index := 0x4062, lo := 0, hi := 23, ty := 1, acc := .ro },
  { index := 0x4100, lo := 0, hi := 63, ty := 9, acc := .rwc, size := 16 },
  { index := 0x4101, lo := 0, hi := 63, ty := 1, acc := .ro },
  { index := 0x4110, lo := 0, hi := 15, ty := 9, acc := .rw, size := 16, dflt := 6 * 2 ^ 48 },
  { index := 0x4111, lo := 0, hi := 15, ty := 4, acc := .ro },
  { index := 0x4120, lo := 0, hi := 1, ty := 9, acc := .rw, size := 16 },
  { index := 0x4122, lo := 0, hi := 1, ty := 4, acc := .ro },
  { index := 0x4123, lo := 0, hi := 1, ty := 4, acc := .ro },
  { index := 0x4130, lo := 1, hi := 1, ty := 3, acc := .rw, dflt := 2048, min := 64, max := 1048576 },
  { index := 0x4130, lo := 2, hi := 2, ty := 3, acc := .rw, dflt := 64, max := 1048576 },
  { index := 0x4130, lo := 3, hi := 3, ty := 1, acc := .rw, dflt := 16, min := 1, max := 255 },
  { index := 0x4130, lo := 4, hi := 4, ty := 3, acc := .rw, dflt := 6000, min := 100, max := 1000000 },
  { index := 0x4130, lo := 5, hi := 5, ty := 3, acc := .rw, dflt := 256, min := 1, max := 1048576 },
  { index := 0x4130, lo := 6, hi := 6, ty := 1, acc := .rw, dflt := 6, max := 10 },
  { index := 0x4130, lo := 7, hi := 7, ty := 1, acc := .rw, dflt := 4, min := 1, max := 16 },
  { index := 0x4200, lo := 0, hi := 1, ty := 9, acc := .rw, scope := .hostPort, wr := 2, size := 16 },
  { index := 0x4201, lo := 0, hi := 1, ty := 4, acc := .wo, scope := .hostPort, wr := 2 },
  { index := 0x4202, lo := 0, hi := 1, ty := 4, acc := .ro },
  { index := 0x4203, lo := 0, hi := 1, ty := 4, acc := .ro } ]

/-- Objects of compute and sparing (0x5000). -/
def part3 : List ObjDef := [
  { index := 0x5002, lo := 0, hi := 63, ty := 1, acc := .ro, scope := .cluster },
  { index := 0x5003, lo := 0, hi := 63, ty := 1, acc := .ro, scope := .cluster },
  { index := 0x5004, lo := 1, hi := 1, ty := 1, acc := .rw, dflt := 1, max := 1 },
  { index := 0x5004, lo := 3, hi := 3, ty := 1, acc := .rw, dflt := 4, min := 1, max := 255 },
  { index := 0x5005, lo := 0, hi := 63, ty := 1, acc := .wo, scope := .cluster, min := 1, max := 1 },
  { index := 0x5006, lo := 1, hi := 1, ty := 1, acc := .ro },
  { index := 0x5010, lo := 1, hi := 1, ty := 2, acc := .rw, dflt := 32, min := 16, max := 128, step := 8 },
  { index := 0x5010, lo := 2, hi := 2, ty := 1, acc := .rw, dflt := 10, min := 6, max := 16 },
  { index := 0x5020, lo := 0, hi := 127, ty := 1, acc := .ro, scope := .engine },
  { index := 0x5021, lo := 0, hi := 127, ty := 3, acc := .ro, scope := .engine },
  { index := 0x5030, lo := 0, hi := 63, ty := 4, acc := .ro, scope := .cluster },
  { index := 0x5031, lo := 0, hi := 63, ty := 4, acc := .ro, scope := .cluster },
  { index := 0x5032, lo := 0, hi := 63, ty := 4, acc := .ro, scope := .cluster },
  { index := 0x5033, lo := 0, hi := 63, ty := 4, acc := .ro, scope := .cluster },
  { index := 0x5034, lo := 0, hi := 63, ty := 4, acc := .ro, scope := .cluster },
  { index := 0x5035, lo := 0, hi := 7, ty := 1, acc := .rw, scope := .partition, wr := 2, max := 1 },
  { index := 0x5036, lo := 0, hi := 63, ty := 4, acc := .ro, scope := .cluster },
  { index := 0x5037, lo := 1, hi := 1, ty := 4, acc := .ro },
  { index := 0x5038, lo := 0, hi := 63, ty := 1, acc := .ro, scope := .cluster },
  { index := 0x5039, lo := 0, hi := 63, ty := 1, acc := .ro, scope := .cluster },
  { index := 0x503A, lo := 1, hi := 1, ty := 1, acc := .const, dflt := 64 },
  { index := 0x5040, lo := 0, hi := 63, ty := 3, acc := .ro, scope := .cluster },
  { index := 0x5041, lo := 0, hi := 67, ty := 4, acc := .ro },
  { index := 0x5050, lo := 0, hi := 63, ty := 8, acc := .ro, scope := .cluster, size := 1040 },
  { index := 0x5051, lo := 0, hi := 63, ty := 1, acc := .ro, scope := .cluster },
  { index := 0x5060, lo := 1, hi := 1, ty := 2, acc := .ro, dflt := 256 } ]

/-- Objects of the Weevils, the Hive, arbitration and streams (0x6000, 0x7000). -/
def part4 : List ObjDef := [
  { index := 0x6020, lo := 0, hi := 31, ty := 4, acc := .ro },
  { index := 0x6021, lo := 0, hi := 31, ty := 4, acc := .ro },
  { index := 0x6022, lo := 0, hi := 7, ty := 4, acc := .ro, scope := .partition },
  { index := 0x6023, lo := 0, hi := 31, ty := 4, acc := .ro },
  { index := 0x6024, lo := 0, hi := 31, ty := 4, acc := .ro },
  { index := 0x6025, lo := 0, hi := 31, ty := 4, acc := .ro },
  { index := 0x6030, lo := 1, hi := 1, ty := 2, acc := .const, dflt := 4096 },
  { index := 0x6031, lo := 0, hi := 31, ty := 4, acc := .ro },
  { index := 0x6032, lo := 0, hi := 31, ty := 4, acc := .ro },
  { index := 0x6033, lo := 0, hi := 31, ty := 4, acc := .ro },
  { index := 0x6034, lo := 0, hi := 31, ty := 4, acc := .ro },
  { index := 0x6040, lo := 0, hi := 31, ty := 4, acc := .ro },
  { index := 0x6041, lo := 0, hi := 31, ty := 4, acc := .ro },
  { index := 0x6110, lo := 1, hi := 1, ty := 1, acc := .rw, max := 1 },
  { index := 0x6110, lo := 2, hi := 2, ty := 1, acc := .rwc, max := 16 },
  { index := 0x6110, lo := 3, hi := 4, ty := 3, acc := .ro },
  { index := 0x6200, lo := 0, hi := 31, ty := 8, acc := .ro, size := 24576 },
  { index := 0x6201, lo := 0, hi := 31, ty := 3, acc := .ro },
  { index := 0x6210, lo := 1, hi := 1, ty := 1, acc := .rw, dflt := 60, min := 10, max := 100 },
  { index := 0x6210, lo := 2, hi := 2, ty := 1, acc := .rw, dflt := 30, max := 90 },
  { index := 0x6210, lo := 3, hi := 3, ty := 1, acc := .rw, dflt := 2, max := 16 },
  { index := 0x6210, lo := 4, hi := 4, ty := 2, acc := .rw, dflt := 100, min := 1, max := 65535 },
  { index := 0x7000, lo := 0, hi := 5, ty := 2, acc := .const },
  { index := 0x7001, lo := 1, hi := 1, ty := 1, acc := .ro },
  { index := 0x7010, lo := 0, hi := 31, ty := 3, acc := .rwc },
  { index := 0x7011, lo := 0, hi := 31, ty := 3, acc := .rwc },
  { index := 0x7012, lo := 0, hi := 31, ty := 3, acc := .rwc },
  { index := 0x7013, lo := 0, hi := 31, ty := 3, acc := .rwc },
  { index := 0x7014, lo := 0, hi := 31, ty := 3, acc := .rwc },
  { index := 0x7015, lo := 0, hi := 31, ty := 3, acc := .rwc },
  { index := 0x7020, lo := 0, hi := 5, ty := 4, acc := .ro },
  { index := 0x7021, lo := 0, hi := 5, ty := 4, acc := .ro },
  { index := 0x7022, lo := 0, hi := 5, ty := 4, acc := .ro },
  { index := 0x7100, lo := 0, hi := 7, ty := 3, acc := .rwc, scope := .partition, dflt := 0xC1420 } ]

/-- Objects of the fabric (0x8000). -/
def part5 : List ObjDef := [
  { index := 0x8001, lo := 1, hi := 1, ty := 2, acc := .const, dflt := 0x88B5 },
  { index := 0x8001, lo := 2, hi := 2, ty := 3, acc := .ro },
  { index := 0x8001, lo := 3, hi := 3, ty := 8, acc := .ro, size := 32 },
  { index := 0x8001, lo := 4, hi := 4, ty := 1, acc := .ro },
  { index := 0x8002, lo := 0, hi := 5, ty := 1, acc := .ro },
  { index := 0x8003, lo := 0, hi := 5, ty := 1, acc := .ro },
  { index := 0x8004, lo := 0, hi := 5, ty := 1, acc := .rw, max := 1 },
  { index := 0x8010, lo := 1, hi := 1, ty := 1, acc := .rw, dflt := 10, min := 1, max := 100 },
  { index := 0x8010, lo := 2, hi := 2, ty := 1, acc := .rw, dflt := 3, min := 2, max := 10 },
  { index := 0x8011, lo := 1, hi := 1, ty := 2, acc := .rw, dflt := 0x02AE },
  { index := 0x8011, lo := 2, hi := 2, ty := 1, acc := .rw, dflt := 0x60 },
  { index := 0x8012, lo := 1, hi := 1, ty := 2, acc := .rw, max := 4094 },
  { index := 0x8020, lo := 1, hi := 1, ty := 2, acc := .rw, dflt := 20, min := 5, max := 10000 },
  { index := 0x8020, lo := 2, hi := 2, ty := 3, acc := .rw, dflt := 1000, min := 250, max := 60000 },
  { index := 0x8021, lo := 1, hi := 1, ty := 1, acc := .rw, dflt := 16, min := 1, max := 255 },
  { index := 0x8022, lo := 0, hi := 5, ty := 2, acc := .rw, max := 65535 },
  { index := 0x8030, lo := 1, hi := 1, ty := 2, acc := .ro },
  { index := 0x8040, lo := 0, hi := 7, ty := 9, acc := .rwc, size := 16 },
  { index := 0x8050, lo := 0, hi := 5, ty := 4, acc := .ro },
  { index := 0x8051, lo := 1, hi := 5, ty := 4, acc := .ro },
  { index := 0x8052, lo := 0, hi := 5, ty := 4, acc := .ro },
  { index := 0x8053, lo := 0, hi := 5, ty := 4, acc := .ro },
  { index := 0x8054, lo := 0, hi := 5, ty := 4, acc := .ro } ]

/-- Objects of the host and CXL ports and of the attention log (0x9000, 0xA000). -/
def part6 : List ObjDef := [
  { index := 0x9001, lo := 2, hi := 2, ty := 2, acc := .const },
  { index := 0x9002, lo := 0, hi := 1, ty := 2, acc := .ro },
  { index := 0x9010, lo := 0, hi := 15, ty := 9, acc := .rw, scope := .fn, wr := 2, size := 16 },
  { index := 0x9011, lo := 0, hi := 15, ty := 4, acc := .ro, scope := .fn },
  { index := 0x9030, lo := 0, hi := 1, ty := 4, acc := .ro },
  { index := 0x9031, lo := 0, hi := 1, ty := 4, acc := .ro },
  { index := 0x9032, lo := 0, hi := 1, ty := 4, acc := .ro },
  { index := 0x9033, lo := 0, hi := 1, ty := 4, acc := .ro },
  { index := 0x9034, lo := 0, hi := 1, ty := 4, acc := .ro },
  { index := 0x9050, lo := 0, hi := 63, ty := 9, acc := .rw, scope := .slot, size := 16 },
  { index := 0x9051, lo := 0, hi := 1, ty := 4, acc := .ro },
  { index := 0x9052, lo := 0, hi := 1, ty := 4, acc := .ro },
  { index := 0x9060, lo := 1, hi := 1, ty := 8, acc := .wo, wr := 2, size := 64 },
  { index := 0x9061, lo := 0, hi := 7, ty := 1, acc := .rwc, scope := .partition },
  { index := 0x9062, lo := 1, hi := 1, ty := 2, acc := .rw, dflt := 100, min := 10, max := 10000 },
  { index := 0x9062, lo := 2, hi := 2, ty := 3, acc := .rw, dflt := 300, max := 86400 },
  { index := 0x9063, lo := 1, hi := 1, ty := 2, acc := .wo, max := 1023 },
  { index := 0x9070, lo := 0, hi := 255, ty := 1, acc := .ro, scope := .context },
  { index := 0x9071, lo := 0, hi := 255, ty := 1, acc := .ro, scope := .context },
  { index := 0x9072, lo := 0, hi := 255, ty := 1, acc := .ro, scope := .context },
  { index := 0x9073, lo := 0, hi := 255, ty := 1, acc := .ro, scope := .context },
  { index := 0x9100, lo := 1, hi := 1, ty := 1, acc := .rw, max := 2 },
  { index := 0x9101, lo := 0, hi := 3, ty := 2, acc := .ro },
  { index := 0x9102, lo := 0, hi := 3, ty := 3, acc := .ro },
  { index := 0x9103, lo := 1, hi := 1, ty := 3, acc := .rw, dflt := 1000, min := 100, max := 100000 },
  { index := 0x9104, lo := 1, hi := 2, ty := 4, acc := .ro },
  { index := 0x9110, lo := 0, hi := 7, ty := 4, acc := .rwc },
  { index := 0x9120, lo := 0, hi := 3, ty := 4, acc := .ro },
  { index := 0x9121, lo := 0, hi := 3, ty := 4, acc := .ro },
  { index := 0x9122, lo := 0, hi := 3, ty := 4, acc := .ro },
  { index := 0x9123, lo := 0, hi := 3, ty := 4, acc := .ro },
  { index := 0xA000, lo := 1, hi := 1, ty := 3, acc := .ro },
  { index := 0xA010, lo := 0, hi := 0, ty := 8, acc := .ro, size := 32768 },
  { index := 0xA020, lo := 0, hi := 17, ty := 3, acc := .rw, scope := .reader, wr := 1 },
  { index := 0xA021, lo := 0, hi := 17, ty := 4, acc := .ro, scope := .reader },
  { index := 0xA030, lo := 0, hi := 17, ty := 2, acc := .ro, scope := .reader } ]

/-- Objects of power and thermal, firmware and security, and diagnostics (0xB000, 0xC000, 0xD000). -/
def part7 : List ObjDef := [
  { index := 0xB000, lo := 1, hi := 1, ty := 2, acc := .rw, dflt := 1350, min := 600, max := 1500 },
  { index := 0xB000, lo := 2, hi := 2, ty := 2, acc := .const, dflt := 1600 },
  { index := 0xB000, lo := 3, hi := 3, ty := 2, acc := .rw, dflt := 25, min := 5, max := 200 },
  { index := 0xB000, lo := 4, hi := 4, ty := 1, acc := .rw, dflt := 24, max := 24 },
  { index := 0xB000, lo := 5, hi := 5, ty := 2, acc := .rw, dflt := 1500, min := 800, max := 1600 },
  { index := 0xB000, lo := 6, hi := 6, ty := 3, acc := .ro },
  { index := 0xB001, lo := 1, hi := 1, ty := 2, acc := .ro },
  { index := 0xB001, lo := 2, hi := 3, ty := 4, acc := .ro },
  { index := 0xB010, lo := 0, hi := 63, ty := 1, acc := .rw, scope := .cluster, dflt := 24, max := 24 },
  { index := 0xB011, lo := 0, hi := 63, ty := 1, acc := .ro, scope := .cluster, dflt := 24 },
  { index := 0xB012, lo := 0, hi := 24, ty := 2, acc := .ro },
  { index := 0xB013, lo := 0, hi := 63, ty := 1, acc := .ro, scope := .cluster },
  { index := 0xB014, lo := 0, hi := 63, ty := 1, acc := .ro, scope := .cluster, dflt := 16 },
  { index := 0xB040, lo := 0, hi := 63, ty := 5, acc := .ro, scope := .cluster },
  { index := 0xB041, lo := 1, hi := 1, ty := 1, acc := .rw, dflt := 90, min := 80, max := 94 },
  { index := 0xB041, lo := 2, hi := 2, ty := 1, acc := .rw, dflt := 2, min := 1, max := 5 },
  { index := 0xB042, lo := 0, hi := 63, ty := 5, acc := .ro, scope := .cluster },
  { index := 0xB043, lo := 1, hi := 1, ty := 1, acc := .rw, dflt := 100, min := 85, max := 104 },
  { index := 0xB050, lo := 1, hi := 1, ty := 1, acc := .rw, dflt := 16, min := 1, max := 128 },
  { index := 0xC001, lo := 0, hi := 3, ty := 8, acc := .ro, size := 32 },
  { index := 0xC002, lo := 1, hi := 2, ty := 1, acc := .ro },
  { index := 0xC002, lo := 3, hi := 3, ty := 8, acc := .wo, wr := 4, size := 33 },
  { index := 0xC002, lo := 4, hi := 4, ty := 1, acc := .wo, wr := 4, max := 3 },
  { index := 0xC002, lo := 5, hi := 5, ty := 1, acc := .wo, wr := 4, min := 1, max := 64 },
  { index := 0xC010, lo := 1, hi := 1, ty := 8, acc := .ro, size := 32 },
  { index := 0xC010, lo := 2, hi := 2, ty := 8, acc := .wo, wr := 1, size := 88 },
  { index := 0xC010, lo := 3, hi := 3, ty := 3, acc := .wo, wr := 1 },
  { index := 0xC010, lo := 4, hi := 4, ty := 2, acc := .rw, dflt := 60, min := 5, max := 3600 },
  { index := 0xC010, lo := 5, hi := 5, ty := 1, acc := .ro },
  { index := 0xC010, lo := 6, hi := 7, ty := 4, acc := .ro },
  { index := 0xC011, lo := 0, hi := 7, ty := 8, acc := .wo, wr := 4, size := 40 },
  { index := 0xC012, lo := 1, hi := 1, ty := 8, acc := .wo, wr := 1, size := 29992 },
  { index := 0xC012, lo := 2, hi := 2, ty := 8, acc := .ro, size := 32 },
  { index := 0xC012, lo := 3, hi := 3, ty := 8, acc := .wo, wr := 1, size := 32 },
  { index := 0xC012, lo := 4, hi := 4, ty := 1, acc := .ro },
  { index := 0xC020, lo := 1, hi := 1, ty := 8, acc := .wo, size := 4093152 },
  { index := 0xC020, lo := 2, hi := 2, ty := 3, acc := .wo },
  { index := 0xC020, lo := 3, hi := 4, ty := 3, acc := .ro },
  { index := 0xC020, lo := 5, hi := 5, ty := 1, acc := .ro },
  { index := 0xC020, lo := 6, hi := 6, ty := 3, acc := .ro },
  { index := 0xC020, lo := 7, hi := 7, ty := 1, acc := .rw, dflt := 10, min := 1, max := 60 },
  { index := 0xC040, lo := 1, hi := 1, ty := 2, acc := .rw, dflt := 100, min := 50, max := 1000 },
  { index := 0xC040, lo := 2, hi := 3, ty := 3, acc := .ro },
  { index := 0xC050, lo := 1, hi := 1, ty := 8, acc := .ro, size := 64 },
  { index := 0xC050, lo := 2, hi := 2, ty := 8, acc := .ro, size := 29896 },
  { index := 0xC050, lo := 3, hi := 3, ty := 8, acc := .wo, wr := 1, size := 32 },
  { index := 0xC050, lo := 4, hi := 4, ty := 8, acc := .ro, size := 50216 },
  { index := 0xD010, lo := 1, hi := 1, ty := 4, acc := .wo, wr := 4 },
  { index := 0xD020, lo := 1, hi := 2, ty := 1, acc := .rw, max := 0xFC, step := 4 },
  { index := 0xD020, lo := 3, hi := 3, ty := 1, acc := .ro } ]

/-- Every object of the device, in ascending order of index and subindex. -/
def all : List ObjDef := part1 ++ graphGen ++ part2 ++ part3 ++ part4 ++ part5 ++ part6 ++ part7

/-- The definition of object `index.sub`; none where it is absent, as all of 0xF000 to 0xFFFF is (R419). -/
def find (index sub : Nat) : Option ObjDef :=
  all.find? fun d => d.index == index && decide (d.lo ≤ sub) && decide (sub ≤ d.hi)

/-- The constants of the interface versions (R3). -/
def versions : List Nat := [0x030C, 0x030C, 0x0206, 0x0418, 0x0206, 0x0102]

/-- The default that depends on the subindex: fence ranges of 512 per partition (R285), arbiter slots by class (R242),
the PF's BAR2 map (R400), the identity maps of R11 and R122; otherwise the default of the run. -/
def dflt (index sub : Nat) : Nat :=
  if index = 0x3070 then 512 * 2 ^ 12 + 512 * sub
  else if index = 0x5002 then sub
  else if index = 0x4010 then sub % 64
  else if index = 0x1010 then versions.getD (sub - 1) 0
  else if index = 0x7000 then [136, 192, 104, 6, 2, 32].getD sub 0
  else if 0x7010 ≤ index ∧ index ≤ 0x7015 then
    match sub / 8 with
    | 0 => 16 * 2 ^ 16 + 4 * 2 ^ 8 + 15
    | 1 => 32 * 2 ^ 16 + 16 * 2 ^ 8 + 10
    | 2 => 64 * 2 ^ 16 + 64 * 2 ^ 8 + 6
    | _ => 64 * 2 ^ 16 + 255 * 2 ^ 8 + 2
  else if index = 0x9010 then (if sub % 8 = 0 then 8388608 * 2 ^ 64 + 3 else 0)
  else ((find index sub).map ObjDef.dflt).getD 0

/-- Bytes of a value of the object's type (R420); for a BLOB or STR its maximum. -/
def bytesOf (d : ObjDef) : Nat :=
  match d.ty with
  | 1 => 1
  | 2 => 2
  | 3 => 4
  | 4 => 8
  | 5 => 4
  | 6 => 4
  | _ => d.size

/-- The value's encodings beyond its scalar range (R7, R421): reserved fields zero and every field in its own range. -/
def encodingOk (index sub v : Nat) : Bool :=
  match index with
  | 0x3000 => bits v 37 0 == 0 &&
      (!flag v 63 || (decide (bits v 58 53 ≤ 48) && decide (20 ≤ bits v 52 38) && decide (bits v 52 38 ≤ 20000)))
  | 0x3001 => bits v 7 5 == 0 && (decide (bits v 3 0 ≤ 7) || bits v 3 0 == 15)
  | 0x3030 => bits v 62 46 == 0 && bits v 31 13 == 0 &&
      (!flag v 63 || (decide (1 ≤ bits v 45 32) && decide (bits v 45 32 ≤ 8192)))
  | 0x3040 => bits v 62 39 == 0 && (!flag v 63 || (decide (1 ≤ bits v 38 19) && decide (bits v 38 19 ≤ 524288)))
  | 0x3070 => bits v 31 25 == 0 && decide (bits v 24 12 ≤ 4096)
  | 0x3104 => bits v 63 52 == 0 && bits v 11 1 == 0
  | 0x4030 => bits v 59 39 == 0 && (!flag v 63 || (decide (1 ≤ bits v 38 19) && decide (bits v 38 19 ≤ 524288)))
  | 0x4100 => bits v 50 40 == 0 && decide (bits v 107 106 ≤ 2)
  | 0x4110 => bits v 47 31 == 0 && decide (6 ≤ bits v 55 48) && decide (bits v 55 48 ≤ 16) &&
      (decide (bits v 63 56 < 0x98) || bits v 63 56 == 0xA0)
  | 0x4120 => bits v 11 1 == 0
  | 0x4200 => bits v 11 1 == 0
  | 0x4201 => bits v 63 33 == 0
  | 0x8011 => sub != 1 || (bits v 15 12 == 0 && bits v 2 0 != bits v 5 3 && bits v 2 0 != bits v 8 6 &&
      bits v 2 0 != bits v 11 9 && bits v 5 3 != bits v 8 6 && bits v 5 3 != bits v 11 9 && bits v 8 6 != bits v 11 9)
  | 0x8040 => bits v 127 105 == 0 && bits v 45 4 == 0
  | 0x7100 => bits v 31 24 == 0 && decide (bits v 23 16 ≤ 62) && decide (1 ≤ bits v 15 8) && decide (bits v 15 8 ≤ 63) &&
      decide (1 ≤ bits v 7 0) && decide (bits v 7 0 ≤ 63)
  | 0x9010 => bits v 127 96 == 0 && bits v 27 2 == 0 && (!flag v 0 || decide (bits v 95 64 ≤ 8388608))
  | 0x9050 => bits v 71 4 == 0
  | 0x9061 => bits v 6 3 == 0
  | 0x9110 => bits v 62 56 == 0 && flag v 45 == false && bits v 29 14 == 0 &&
      (!flag v 63 || (decide (bits v 47 46 ≤ 2) && decide (1 ≤ bits v 44 30) && decide (bits v 44 30 ≤ 16384)))
  | 0xD010 => bits v 5 0 == 0 && bits v 63 52 == 0
  | _ =>
    if 0x7010 ≤ index ∧ index ≤ 0x7015 then
      bits v 31 29 == 0 && bits v 7 4 == 0 && decide (1 ≤ bits v 28 16) && decide (bits v 28 16 ≤ 4096) &&
        decide (1 ≤ bits v 15 8)
    else decide (sub ≤ 255)

/-- A scalar value's range and encodings (step 7 of R429). -/
def valueOk (d : ObjDef) (sub v : Nat) : Bool :=
  decide (d.min ≤ v) && decide (v ≤ d.max) && decide ((v - d.min) % d.step = 0) && encodingOk d.index sub v

/-- Bits of a REC value that a WRITE does not change: the read-only counts of R136, R137 and R218. -/
def readOnlyMask (index : Nat) : Nat :=
  if index = 0x4110 ∨ index = 0x4120 ∨ index = 0x4200 then (2 ^ 32 - 1) * 2 ^ 64 else 0

/-- The rights of an object on path `p` (0 management network, 1 I3C, 2 host A, 3 host B), coded as `obj_catalog` has
them (R422, R424): write rule in the upper three bits, read rule in the lower three. -/
def rights (d : ObjDef) (p : Nat) : Nat :=
  let rd := if 2 ≤ p && decide (d.scope ≠ .device) then 2 else 1
  let wr := if d.index = 0xA020 ∧ 2 ≤ p then 2 else d.wr
  wr * 8 + rd

/-- The code of an access kind in `obj_catalog` (R422). -/
def accCode : Acc → Nat
  | .ro => 0
  | .rw => 1
  | .wo => 2
  | .rwc => 3
  | .const => 4

/-- The 8-byte record of `obj_catalog` for one run (R422). -/
def record (d : ObjDef) : Nat :=
  d.index + d.lo * 2 ^ 16 + d.hi * 2 ^ 24 + accCode d.acc * 2 ^ 33 + d.ty * 2 ^ 36 +
    rights d 0 * 2 ^ 40 + rights d 1 * 2 ^ 46 + rights d 2 * 2 ^ 52 + rights d 3 * 2 ^ 58

/-- Two entries of the list form one run of `obj_catalog`: consecutive subindices of one index with one type, access and
rights (R422). -/
def joins (a b : ObjDef) : Bool :=
  a.index == b.index && a.hi + 1 == b.lo && a.ty == b.ty && accCode a.acc == accCode b.acc &&
    (List.range 4).all fun p => rights a p == rights b p

/-- The entries with runs joined. -/
def runs : List ObjDef → List ObjDef
  | [] => []
  | d :: rest =>
    match runs rest with
    | [] => [d]
    | e :: es => if joins d e then { d with hi := e.hi } :: es else d :: e :: es

/-- The contents of `obj_catalog` (R422). -/
def blob : List (BitVec 8) := (runs all).flatMap fun d => leBytes 8 (record d)

end Catalog

end Sys2Proof.Machine
end

