-- ==== Sys2Proof/Machine/Map.lean ====
section
/-! DEFINITION. Finite maps as plain data: lists of (key, value) pairs in ONE canonical form, keys strictly rising. The
sparse memories of the device are such maps with one more condition: no listed value equals what an unlisted key reads as,
so that equal memories are equal data. -/

namespace Sys2Proof.Machine

/-- A finite map from numbers, keys strictly rising. -/
abbrev AMap (α : Type) := List (Nat × α)

namespace AMap

variable {α : Type}

/-- The value at key `k`. -/
def get? : AMap α → Nat → Option α
  | [], _ => none
  | (j, v) :: m, k => if k = j then some v else get? m k

/-- The value at key `k`, or `d` where the map lists none. -/
def getD (m : AMap α) (k : Nat) (d : α) : α := (get? m k).getD d

/-- The map with `v` at key `k`. -/
def set : AMap α → Nat → α → AMap α
  | [], k, v => [(k, v)]
  | (j, w) :: m, k, v =>
    if k < j then (k, v) :: (j, w) :: m
    else if k = j then (k, v) :: m
    else (j, w) :: set m k v

/-- The map without key `k`. -/
def erase : AMap α → Nat → AMap α
  | [], _ => []
  | (j, w) :: m, k => if k = j then erase m k else (j, w) :: erase m k

/-- The map with `v` at key `k`, in the form that lists no value equal to the default `d`. -/
def put [DecidableEq α] (d : α) (m : AMap α) (k : Nat) (v : α) : AMap α :=
  if v = d then erase m k else set m k v

/-- The map with the value at `k` (or the default `d`) changed by `f`. -/
def update [DecidableEq α] (d : α) (m : AMap α) (k : Nat) (f : α → α) : AMap α :=
  put d m k (f (getD m k d))

/-- Keys strictly rising, all of them at least `lo`. -/
def sortedFrom : Nat → AMap α → Bool
  | _, [] => true
  | lo, (j, _) :: m => decide (lo ≤ j) && sortedFrom (j + 1) m

/-- Keys strictly rising. -/
def sorted (m : AMap α) : Bool := sortedFrom 0 m

/-- No listed value equals the default. -/
def noDefault [DecidableEq α] (d : α) (m : AMap α) : Bool := m.all fun p => decide (p.2 ≠ d)

end AMap

end Sys2Proof.Machine
end

