-- ==== Sys2Proof/Machine/State.lean ====
section
/-! DEFINITION. The state of the device (JP-7416): every register, buffer, queue, mode and pin the spec names, as plain
data, and the queue of commands that wait. INVENTORY.md lists each field with its rule and its value after reset. -/

namespace Sys2Proof.Machine

/-- Why a step stops with a fault. -/
inductive Fault where
  /-- A queue element that no command of the table spells. Raised by nothing: the queue's type holds commands only. Safe. -/
  | noCommand
deriving DecidableEq, Repr

/-- Why a step is refused. -/
inductive Refusal where
  /-- The command has no meaning in this model. Raised by `exec`'s arm of that command alone. Safe: the run ends there. -/
  | notModelled (mnemonic : String)
deriving DecidableEq, Repr

/-- Who makes an access, so that a stalled one is found again: the Spine for a context's ring or quire, an op (its slice
`k`, or its dispatch for `k = 1000`), a row of a table slice, a tidy core, an engine, the firmware for a ring of a port,
mailbox slot `nn = 32 port + slot`, or the frames of a peer in a class. -/
inductive Who where
  | spine (ctx : Nat)
  | op (o : OpRef) (k : Nat)
  | row (o : OpRef) (k row : Nat)
  | core (n : Nat)
  | engine (cc e : Nat)
  | port (p : Nat)
  | mailbox (nn : Nat)
  | fabric (peer cls : Nat)
deriving DecidableEq, Repr

/-- The kinds of access a leaf is checked for (R217). -/
inductive AccKind where
  | read | write | fetch
deriving DecidableEq, Repr

/-- A requester of memory accesses: who, the context it acts for, its class and partition, the root of the space it
accesses, the kind and number R217 reports, the cluster whose translation buffer serves it, the PTE targets it may use
as a mask, whether its faults may stall, and whether it arrived over the fabric. -/
structure Req where
  who : Who
  ctx : Nat
  cls : Nat
  part : Nat
  root : Nat
  kind : Nat
  id : Nat
  cluster : Option Nat
  targets : Nat
  mayStall : Bool
  fabric : Bool
deriving DecidableEq, Repr

/-- A Sharel frame that belongs to no stream (R371). -/
inductive Control where
  | hello (m : HelloMsg)
  | claim (addr : Nat) (hash : List (BitVec 8))
  | lsa (m : LsaMsg)
deriving DecidableEq, Repr

/-- Everything the device sends to the outside. -/
inductive Out where
  /-- A posted write to host memory: port, requester function, address, bytes, Relaxed Ordering, poisoned (EP). -/
  | hostWrite (port fn addr : Nat) (bytes : List (BitVec 8)) (ro ep : Bool)
  /-- A read request on a host port: requester function, address, bytes (R234). -/
  | hostRead (port fn addr len : Nat)
  /-- A zero-length read-back on a host port (R237). -/
  | readBack (port fn addr : Nat)
  /-- An MSI-X message (R398, R402): function, vector, and the address and data of the vector's table entry. -/
  | msix (ff vector addr data : Nat)
  /-- The completion of a host read of BAR0 or BAR2, with the EP bit. -/
  | readCompletion (ff : Nat) (bytes : List (BitVec 8)) (ep : Bool)
  /-- An Amiso message to a requester. -/
  | amiso (path : Path) (ident : Nat) (bytes : List (BitVec 8))
  /-- A datagram of the management network: the ROM's announcement (R454). -/
  | announce (bytes : List (BitVec 8))
  /-- A Sharel frame on a port, with its destination MAC, PCP and VLAN ID (R368, R369, R372). -/
  | frame (port mac pcp vlan : Nat) (f : Frame)
  /-- A Sharel frame outside the streams, likewise (R371, R372, R378). -/
  | control (port mac pcp vlan : Nat) (m : Control)
  /-- A PFC frame on a port and priority (R373). -/
  | pfc (port prio : Nat) (xoff : Bool)
  /-- A CXL.mem write (R416): link, device-physical address, bytes, poison. -/
  | cxlWrite (link dpa : Nat) (bytes : List (BitVec 8)) (poison : Bool)
  /-- HDM decoders programmed into an expander (R414). -/
  | cxlProgram (link : Nat) (decoders : List (Nat × Nat))
  /-- An MCTP control response (R432). -/
  | mctp (path : Path) (bytes : List (BitVec 8))
  /-- An AVSBus command asking for a voltage in mV (R480). -/
  | avs (mv : Nat)
deriving DecidableEq, Repr

/-! ### Contexts, queues, quires and ops -/

/-- The queue descriptor of R277. -/
structure QDesc where
  queue : Nat := 0
  vector : Nat := 0
  msixEn : Bool := false
  cqLog2 : Nat := 6
  sqLog2 : Nat := 4
  cqBase : Nat := 0
  sqBase : Nat := 0
deriving DecidableEq, Repr

/-- What keeps a queue from writing records, or, while its held records are released, from starting quires (R282, R302). -/
inductive QMode where
  | run | full | held | releasing
deriving DecidableEq, Repr

/-- The state of a context number (R317): no context, open, or being torn down. -/
inductive CtxPhase where
  | closed | opened | tearing
deriving DecidableEq, Repr

/-- The contents of a completion record apart from what is filled in when it is written (R292, R293). -/
structure Rec where
  seq : Nat
  status : Nat
  result : Nat := 0
  partMap : Nat := 0
  firstFail : Nat := 0x1FFF
  opsDone : Nat := 0
  stampStart : Nat := 0
  stampEnd : Nat := 0
deriving DecidableEq, Repr

/-- A fence signal: fence, mode (1 add, 2 max, 3 set) and value (R286). -/
structure Signal where
  fence : Nat
  mode : Nat
  value : Nat
deriving DecidableEq, Repr

/-- Where an op's record stands: read and waiting, dispatched to its unit, its status fixed, completed or failed, or
cancelled (R258 to R260). -/
inductive OpPhase where
  | waiting | dispatched | settled | done | cancelled
deriving DecidableEq, Repr

/-- Where a slice stands (R267, R269): at the Spine, queued at its unit, running, stopped at its end, reported. -/
inductive SlicePhase where
  | waiting | queued | running | ended | reported
deriving DecidableEq, Repr

/-- One row of a segment of a table slice (R159, R176): the segment's number, the row, the Hive entry it was resolved to as its
segment closed (R170), what it pools into (a bag with its count or weight, or a position), and in UPDATE_ROWS its combined gradient. -/
structure RowFetch where
  seg : Nat
  row : Nat
  hive : Option Nat := none
  uses : List (Nat × Nat) := []
  grad : List Nat := []
deriving DecidableEq, Repr

/-- The work of a table slice at its lead Weevil (R158 to R165, R176 to R181). -/
structure TableWork where
  /-- Whether the intake has been taken. -/
  begun : Bool := false
  /-- Whether the slice has been redone once. -/
  redone : Bool := false
  /-- The rows to fetch or update: segments in order, rows ascending. -/
  plan : List RowFetch := []
  /-- Rows done, by place in the plan: dequantised values as fp32 patterns; empty for a row updated, or one that failed. -/
  rows : AMap (List Nat) := []
  /-- Statuses of the causes met so far. -/
  causes : List Nat := []
  /-- Positions in each bag that were not skipped (R161). -/
  lens : AMap Nat := []
  /-- Positions skipped or failed for their index (R163), and how many. -/
  skipped : List Nat := []
  segments : Nat := 0
  /-- The cluster whose replica the slice reads (R170). -/
  near : Option Nat := none
  /-- The table's random state at the slice's start (R178). -/
  lfsr : Nat := 1
  /-- Positions whose row was committed (R181). -/
  committed : List Nat := []
  /-- Row fetches made, or row RMWs committed (R167, R181). -/
  fetched : Nat := 0
  /-- Rows fetched from a replica, or replica slots written. -/
  mirrors : Nat := 0
  /-- Positions of the slice taken in, and whether intake has come to its end (R158, R176). -/
  taken : Nat := 0
  closed : Bool := false
  /-- Inner offsets read (R155). -/
  inner : List Nat := []
  /-- The open segment: its entries, and its rows with what they pool into and, in UPDATE_ROWS, their gradients. -/
  entries : Nat := 0
  openRows : AMap (List (Nat × Nat) × List Nat) := []
deriving DecidableEq, Repr

/-- What a slice is doing in its unit. -/
inductive Work where
  | none
  /-- MATMUL: tiles not yet started, flags [invalid_input, overflow, nan_out], whether a tile has started. -/
  | me (todo : List Nat) (flags : Nat) (begun : Bool)
  /-- VECTOR_RUN share: next task, flags of its ended tasks, and its lowest-indexed stopped task with that task's status
  and cause. -/
  | tc (next flags : Nat) (stop : Option (Nat × Nat × Nat))
  | table (t : TableWork)
deriving DecidableEq, Repr

/-- A slice of an op (R268). -/
structure Slice where
  /-- 0 ME, 1 TC, 2 SE, 3 Weevil, 4 central engine. -/
  unit : Nat
  /-- The cluster, Weevil or central engine it is bound to, when it is. -/
  place : Option Nat := none
  /-- Its part of the op's work: row blocks or tasks from `lo` to before `hi`, or the table-list entry `lo`. -/
  lo : Nat := 0
  hi : Nat := 0
  phase : SlicePhase := .waiting
  status : Nat := 0
  /-- Result word bits [7:0] and [31:16] the slice gives. -/
  low : Nat := 0
  high : Nat := 0
  partMap : Nat := 0
  work : Work := .none
deriving DecidableEq, Repr

/-- The state of a folio under MIGRATE or delegated placement (R129). -/
inductive FolioPhase where
  | copying | filling | forwarding | mirroring
deriving DecidableEq, Repr

/-- A folio in flight, or a large page that migrates whole: index of its first folio, virtual address, level of its PTE,
the PTE's address and value, old and new place, bytes, state, copies abandoned so far, whether poison was carried. -/
structure Folio where
  i : Nat
  va : Nat
  level : Nat
  pteAddr : Nat
  pte : Nat
  src : Nat
  dst : Nat
  size : Nat
  phase : FolioPhase
  tries : Nat := 0
  poisoned : Bool := false
deriving DecidableEq, Repr

/-- The progress of a MIGRATE op (R127 to R131): its frame list, the next folio not yet started, folios whose copy was
abandoned and that start again (with how often), and the part map so far. -/
structure MigrateWork where
  frames : List Nat := []
  next : Nat := 0
  again : List (Nat × Nat) := []
  partMap : Nat := 0
deriving DecidableEq, Repr

/-- The progress of a STREAM op (R224 to R230): the current list, the place in it, blocks and RING blocks done so far, whether its
ring has been checked, and the destinations (address, pitch, bytes of a row, rows) of blocks that may still be writing. -/
structure StreamWork where
  list : List Nat := []
  idx : Nat := 0
  blocks : Nat := 0
  rings : Nat := 0
  ringChecked : Bool := false
  writing : List (Nat × Nat × Nat × Nat) := []
deriving DecidableEq, Repr

/-- The progress of a REMOTE_GATHER (R389): its peer and tag, the boundary offsets, the vectors received with their place in
the output rows and their poison marks, and the final reply: its status, part statuses and report. -/
structure RemoteWork where
  peer : Nat := 0
  tag : Nat := 0
  vectors : Nat := 0
  got : List (Nat × List (BitVec 8) × List Bool) := []
  finished : Bool := false
  status : Nat := 0
  code : Nat := 0
  parts : List Nat := []
  report : List (BitVec 8) := []
deriving DecidableEq, Repr

/-- What an op holds besides its record and slices. -/
inductive Body where
  | none
  | stream (w : StreamWork)
  | migrate (w : MigrateWork)
  | remote (w : RemoteWork)
  /-- INVALIDATE: the roots and the page range (first page, pages) it covers, or the whole spaces. -/
  | invalidate (roots : List Nat) (lo pages : Nat) (whole : Bool)
  /-- FENCE_WAIT: body waits already met. -/
  | fenceWait (met : List Nat)
  /-- HOST_FLAG: read-backs still outstanding. -/
  | flag (outstanding : List Nat)
  /-- GATHER_POOL and UPDATE_ROWS: the Spine's copies of the table list and of the TCBs, and the boundary offsets (R157). -/
  | tables (lists tcbs offs : List Nat)
  /-- HIVE_EVICT with its items checked: the failed ones with their statuses; it waits for its slots (R190). -/
  | evict (fails : List (Nat × Nat)) (items done : Nat)
deriving DecidableEq, Repr

/-- An op of a quire. -/
structure Op where
  word : Nat
  ext : List Nat := []
  phase : OpPhase := .waiting
  status : Nat := 0
  low : Nat := 0
  high : Nat := 0
  partMap : Nat := 0
  flags : Nat := 0
  replayed : Bool := false
  waitMet : Bool := false
  /-- When it became ready, and when it was dispatched, among all such events of the ops in progress; 0 before (R266, R267). -/
  readyAt : Nat := 0
  order : Nat := 0
  /-- Copies of the structures read at dispatch (descriptors, blocks), kept for replay (R98, R263). -/
  copies : List Nat := []
  slices : List Slice := []
  body : Body := .none
  /-- MATMUL: the side-band entry of each row of A that the feeder has read, with the free value drawn beside it (R22). -/
  fed : AMap (Nat × Nat) := []
  /-- Host ports written, with the first address each (R237). -/
  hostPorts : List (Nat × Nat) := []
deriving DecidableEq, Repr

/-- Where a quire's records are read from: a virtual address, or a generation of a stored graph. -/
inductive QSrc where
  | mem (va : Nat)
  | graph (handle gen : Nat)
deriving DecidableEq, Repr

/-- A quire in progress (R252). -/
structure Quire where
  src : QSrc
  fenceBase : Nat
  hdr : Nat
  /-- It has dispatched an op (R265, R282). -/
  started : Bool := false
  /-- Next record to be read, counted from the header. -/
  nextRec : Nat := 1
  ops : List Op := []
  /-- Whether no further record can be read: later ops are cancelled. -/
  cut : Bool := false
  /-- Cycle counts at the first slice start and the last slice end, by cluster (R293). -/
  stamps : AMap (Nat × Nat) := []
deriving DecidableEq, Repr

/-- A submission entry between being taken and having its record written or held (R281). -/
structure Entry where
  n : Nat
  kind : Nat
  seq : Nat
  quire : Option Quire := none
  record : Option Rec := none
  done : Option Signal := none
  /-- Whether the record holds a place of the held-record pool (R301). -/
  pooled : Bool := false
  /-- Whether it has found the pool full, which counts once. -/
  poolMissed : Bool := false
  /-- Ports whose read-back the record waits for (R237). -/
  readBacks : List Nat := []
  readBackDone : Bool := false
  graph : Option (Nat × Nat) := none
deriving DecidableEq, Repr

/-- A context (R315, R317, R407) with its queue (R277 to R283). -/
structure Ctx where
  phase : CtxPhase := .closed
  partition : Nat := 0
  cls : Nat := 0
  shared : Bool := false
  readback : Bool := false
  placeRight : Bool := false
  verQuire : Nat := 0
  verCpl : Nat := 0
  verMbox : Nat := 0
  root : Nat := 0
  c0 : Nat := 0
  q : QDesc := {}
  produced : Nat := 0
  consumed : Nat := 0
  cqConsumed : Nat := 0
  cqPosted : Nat := 0
  wake : Option Nat := none
  echoUs : Nat := 0
  mode : QMode := .run
  entries : List Entry := []
  /-- Records that its teardown has still to write (R303). -/
  tearing : List Rec := []
  lastSeq : Nat := 0
  orphaned : Bool := false
  attached : Bool := false
  port : Nat := 0
  fn : Nat := 0
deriving DecidableEq, Repr

/-- A generation of a stored graph: number, records it holds, pins, first 4 KiB unit and units in the store. Its bytes lie
in the partition's graph store (R270). -/
structure Gen where
  num : Nat
  len : Nat
  pins : Nat := 0
  base : Nat := 0
  units : Nat := 0
deriving DecidableEq, Repr

/-- A stored graph handle (R270 to R274). -/
structure Graph where
  ctx : Nat
  part : Nat
  current : Nat
  gens : List Gen
  unbound : Bool := false
deriving DecidableEq, Repr

/-! ### Translation -/

/-- An entry of a translation buffer (R203): tag, first page, pages mapped, the leaf, and whether it holds a pinned place. -/
structure TEnt where
  tag : Nat
  page : Nat
  pages : Nat
  leaf : Nat
  pinned : Bool
deriving DecidableEq, Repr

/-- A space tag (R208): the root bound, whether an eviction is in progress and for whom, and when it last left busy. -/
structure Tag where
  root : Option Nat := none
  pinned : Bool := false
  evicting : Bool := false
  nextRoot : Nat := 0
  nextPinned : Bool := false
  left : Nat := 0
deriving DecidableEq, Repr

/-- A fault as R217 reports it. -/
structure SwarmEntry where
  cls : Nat
  level : Nat
  access : AccKind
  cause : Nat
  reqKind : Nat
  reqId : Nat
  ctx : Nat
  tag : Nat
  va : Nat
deriving DecidableEq, Repr

/-- A swarm: its sequence, its entries, how it closed. -/
structure Swarm where
  seq : Nat
  close : Nat
  entries : List SwarmEntry
deriving DecidableEq, Repr

/-- A stalled access: its requester, page, access, the status it would fail with, its port, and the sequence of the swarm
that reports it (none: at its request point without an entry, R220). -/
structure Stall where
  req : Req
  va : Nat
  access : AccKind
  status : Nat
  port : Nat
  seq : Option Nat
deriving DecidableEq, Repr

/-- A request of the walker queue (R204). -/
structure Walk where
  req : Req
  va : Nat
  access : AccKind
deriving DecidableEq, Repr

/-- A drained invalidation in progress or waiting for its turn (R214): of an INVALIDATE or MIGRATE op, or of a tag's eviction. -/
inductive DrainRef where
  | op (o : OpRef)
  | tag (t : Nat)
deriving DecidableEq, Repr

/-- The fault ring side of a host port (R215 to R221): the open swarm, the closed ones that wait to be posted (one, and those that a
takeover posts again), the next sequence, and the posted ones not answered. -/
structure SwarmPort where
  opened : List SwarmEntry := []
  closed : List Swarm := []
  /-- Whether the closed swarm has waited to be posted (R220). -/
  waited : Bool := false
  nextSeq : Nat := 0
  posted : List Swarm := []
deriving DecidableEq, Repr

/-- The translation unit. -/
structure Trans where
  clusterBuf : AMap (List TEnt) := []
  centralBuf : List TEnt := []
  tags : List Tag := List.replicate 32 {}
  tick : Nat := 0
  walks : List Walk := []
  stalls : List Stall := []
  /-- Accesses to fail at once because their swarm was answered with fail: requester, page, status. -/
  failing : List (Who × Nat × Nat) := []
  ports : AMap SwarmPort := []
  /-- Contexts waiting for a tag, in order. -/
  tagWaiters : List Nat := []
  /-- Drained invalidations in order of arrival; the first eight drain (R214). -/
  drains : List DrainRef := []
  /-- Host commands that wait behind a BAR2 write which is held: port and command, in order of arrival (R129, R206, R466). -/
  hostHeld : List (Nat × Instr) := []
deriving DecidableEq, Repr

/-! ### Clusters -/

/-- A slice as a Stitcher lists it. -/
structure SliceRef where
  o : OpRef
  k : Nat
deriving DecidableEq, Repr

/-- What a cluster is doing as a whole. -/
inductive ClusterMode where
  | serving
  /-- A switch from a context (if one is resident) to another. -/
  | switching (from_ : Option Nat) (to_ : Nat)
  /-- A sparing handover, or a cluster reset, in progress. -/
  | handover
  | resetting
deriving DecidableEq, Repr

/-- An entry of the canary's list: an unchecked VECTOR_RUN that ran tasks on a core since its last passing canary (R342). The
submission entry tells apart quires of one sequence; the partition is the one the op ran in. -/
structure Suspect where
  entry : Nat
  part : Nat
  seq : Nat
  op : Nat
  ctx : Nat
  core : Nat
  first : Nat
  last : Nat
deriving DecidableEq, Repr

/-- One logged 128-byte word of the undo log (R336): offset in the store, old bytes, poisoned atoms. -/
structure Undo where
  off : Nat
  old : List (BitVec 8)
  poisoned : List Nat
deriving DecidableEq, Repr

/-- The task a tidy core runs. -/
structure Task where
  o : OpRef
  k : Nat
  index : Nat
  checked : Bool
  restartable : Bool
  restarted : Bool := false
  /-- Moved to this core by R334, and the instruction at the program counter has not yet passed. -/
  moved : Bool := false
  /-- The code image has been fetched again for the instruction at the program counter (R335). -/
  refetched : Bool := false
  log : List Undo := []
deriving DecidableEq, Repr

/-- The code image a core holds (R84): the op that fetched it, its address and length in 256-byte units, and whether it
is kept across ops. -/
structure CodeImage where
  o : OpRef
  code : Nat
  len : Nat
  keep : Bool
deriving DecidableEq, Repr

/-- A tidy core (R61). Registers not listed hold zero; `m0` and `s0` are constants (R61). -/
structure Core where
  s : AMap (BitVec 64) := []
  v : AMap (BitVec 2048) := []
  m : AMap (BitVec 256) := []
  pc : Nat := 0
  flags : Nat := 0
  imem : AMap Nat := []
  dmem : List (Nat × BitVec 8) := []
  /-- Lookup slots: 256 fp32 values, x0, inv_step. -/
  tables : AMap (List Nat) := []
  task : Option Task := none
  image : Option CodeImage := none
  /-- Host ports stored to since the last FENCE.HOST, with the first address each (R77). -/
  outstanding : List (Nat × Nat) := []
  /-- Accesses of the vector store at the program counter that have been made, while the next one waits (R75, R232). -/
  done : Nat := 0
  /-- A canary the core must pass before its next task (R334 step 3). -/
  mustPass : Bool := false
deriving DecidableEq, Repr

/-- A tile buffer of a matrix engine (R45): the op's slice, the tile, its accumulators (row by row), the rows' sums, their
scales and zero points. -/
structure TileBuf where
  o : OpRef
  k : Nat
  tile : Nat
  acc : List Nat := []
  sums : List Int := []
  scales : List (Nat × Int) := []
deriving DecidableEq, Repr

/-- Ramp state of an engine's lanes (R48, R49, R485): dark, waiting to ramp up, on, in the idle hold, waiting to ramp
down. -/
inductive Ramp where
  | dark | waitUp | on | hold | waitDown
deriving DecidableEq, Repr

/-- A matrix engine of a logical cluster (R40, R45, R49, R54, R55). -/
structure Engine where
  out : Bool := false
  bufs : List TileBuf := []
  ramp : Ramp := .dark
  /-- Tiles drained since a replay 1 that named no lane passed (R54); none before the first. -/
  since : Option Nat := none
  /-- A lane map-out whose repair record is not yet written. -/
  recordDue : Bool := false
  /-- A tile of the other engine to be replayed here (R52). -/
  foreign : List TileBuf := []
deriving DecidableEq, Repr

/-- The saved state of a context on a cluster (R323): its slot in the partition's pool, where the working region's bytes
lie, and the units that hold state of the context. -/
structure Saved where
  slot : Nat
  engines : List (Nat × Engine) := []
  cores : List (Nat × Core) := []
  /-- The slice records of the context that its Stitcher held (R322). -/
  slices : List SliceRef := []
deriving DecidableEq, Repr

/-- A logical cluster (R267, R320, R313, R328, R339). -/
structure Cluster where
  queue : List SliceRef := []
  resident : Option Nat := none
  mode : ClusterMode := .serving
  devArea : Option OpRef := none
  /-- Whether it moves between partitions, and `cluster_part` before the move (R328). -/
  moving : Bool := false
  oldPart : Nat := 0xF
  canaryDue : List Nat := []
  history : List Suspect := []
  report : List Suspect := []
  /-- Contexts with state in a swap slot for this cluster. -/
  saved : AMap Saved := []
  /-- Its self-test after a cluster reset failed, or its Stitcher or stream engine has (R349, R354, R473). -/
  storeFailed : Bool := false
  /-- A switch has found no free swap slot (R326). -/
  needsRetry : Bool := false
deriving DecidableEq, Repr

/-! ### Arbiters -/

/-- A request in a slot of an arbiter (R240, R245): its issuer, the beats of it still to transfer, whether they are one indivisible
access, and how many beats the grant then in force had transferred when it arrived. -/
structure ArbReq where
  issuer : Issuer
  beats : Nat
  whole : Bool
  since : Nat := 0
deriving DecidableEq, Repr

/-- One requester slot (R241). -/
structure Slot where
  queue : List ArbReq := []
  basePrio : Nat
  effPrio : Nat
  wait : Nat := 0
  waitLimit : Nat
  burst : Nat
  resume : Bool := false
  progress : Nat := 0
  burstHeld : Nat := 0
deriving DecidableEq, Repr

/-- An arbiter instance (R239 to R246): its slots, the last winner, whether the last grant ended by preemption, the grant
in force (slot, beats, limit), and whether committed slot values wait for its round boundary. -/
structure Arb where
  slots : List Slot
  lastWinner : Nat := 31
  preempted : Bool := false
  grant : Option (Nat × Nat × Nat) := none
  stale : Bool := false
deriving DecidableEq, Repr

/-! ### Attention, mailboxes, Amiso -/

/-- An attention event (R298). -/
structure Event where
  seq : Nat
  source : Nat
  severity : Nat
  parts : Nat
  code : Nat
  sub : Nat
  value : Nat
  addr : Nat
  stamp : Nat
deriving DecidableEq, Repr

/-- The attention log (R298): events in the order of their sequences, split into those written to the log and those the
firmware has still to write; and the events that will not be logged, which the status words show all the same. -/
structure Attn where
  log : List Event := []
  waiting : List Event := []
  lost : List Event := []
  last : Nat := 0
deriving DecidableEq, Repr

/-- A mailbox request without a reply yet: context, kind, tag, payload, and whether a WRITE's frames have been sent. -/
structure MboxWait where
  ctx : Nat
  kind : Nat
  tag : Nat
  payload : List (BitVec 8)
  sent : Bool := false
deriving DecidableEq, Repr

/-- A mailbox slot (R304 to R309): payload bytes written by themselves, the request that waits for a peer, and the bytes of
a v1 reply (R309). -/
structure MboxSlot where
  data : List (BitVec 8) := []
  waiting : Option MboxWait := none
  reply : List (BitVec 8) := []
deriving DecidableEq, Repr

/-- An owner grant in force (R443): index ranges and uses left (none: for the session's life). -/
structure OwnerGrant where
  ranges : List (Nat × Nat)
  uses : Option Nat
deriving DecidableEq, Repr

/-- A session (R441). -/
structure Session where
  n : Nat
  path : Path
  ident : Nat
  role : Nat
  version : Nat
  key : List (BitVec 8)
  challenge : List (BitVec 8)
  lastTag : Option Nat := none
  grant : Option OwnerGrant := none
deriving DecidableEq, Repr

/-- A sender's identity for kept replies and stage sets: a session number, or a sessionless requester. -/
inductive Party where
  | session (n : Nat)
  | plain (path : Path) (ident : Nat)
deriving DecidableEq, Repr

/-- A bulk transfer in progress (R438). -/
structure Bulk where
  party : Party
  index : Nat
  sub : Nat
  total : Nat
  got : List (BitVec 8)
deriving DecidableEq, Repr

/-- A snapshot for BULK-GET (R439). -/
structure Snapshot where
  party : Party
  index : Nat
  sub : Nat
  bytes : List (BitVec 8)
deriving DecidableEq, Repr

/-- A request to the dictionary: an Amiso message with its kind, version, tag, payload and trailer (R426, R427), or one whose
header is malformed; a WRITE of one object that a row of the table names, with its value; or a READ of `sess_challenge`. -/
inductive Request where
  | malformed (r : Requester) (kind version tag : Nat)
  | message (r : Requester) (kind version tag : Nat) (payload trailer : List (BitVec 8))
  | action (r : Requester) (index sub : Nat) (value : List (BitVec 8))
  | challenge (r : Requester)
deriving DecidableEq, Repr

/-- An answer that waits for context teardowns (R312, R318, step 5 of R435): who asked, whether it is a whole message
(kept under its tag, R430), its bytes, the contexts it waits for, and whether it answers a COMMIT. -/
structure Answer where
  r : Requester
  tag : Option Nat
  bytes : List (BitVec 8)
  waits : List Nat
  /-- The session key that authenticates it; empty for none (R442). -/
  key : List (BitVec 8) := []
  commit : Bool := false
deriving DecidableEq, Repr

/-- The Amiso endpoint. -/
structure Amiso where
  sessions : List Session := []
  nextSession : Nat := 1
  /-- Kept replies by party: tag and reply bytes, newest first, at most 16 (R430). -/
  kept : List (Party × List (Nat × List (BitVec 8))) := []
  /-- Stage sets: (index * 256 + sub, value) by party (R434). -/
  stages : List (Party × AMap Nat) := []
  /-- Challenges issued and unused, newest first (R440). -/
  challenges : List (Path × Nat × List (BitVec 8)) := []
  bulks : List Bulk := []
  snapshots : List Snapshot := []
  answers : List Answer := []
  /-- COMMITs that wait behind one at step 5 (R436). -/
  commits : List Request := []
  /-- Requests held through a live-update hand-over (R457). -/
  held : List Request := []
  opKeys : AMap (Nat × List (BitVec 8)) := []
  /-- Attestation reports by requester (R463): the signed bytes, and the signature once made. -/
  reports : List (Party × List (BitVec 8) × Option (List (BitVec 8))) := []
deriving DecidableEq, Repr

/-- The dictionary window of a function (R433). -/
structure Win where
  req : List (BitVec 8) := []
  reply : List (BitVec 8) := []
  phase : Nat := 0
deriving DecidableEq, Repr

/-! ### Ports -/

/-- A function's configuration and MSI-X state (R235, R283, R397, R398, R402, R403); `messages` lists the address and data of the MSI-X
table's entries that are not zero. -/
structure Fn where
  bme : Bool := false
  msixEn : Bool := false
  fnMask : Bool := false
  unmasked : List Nat := []
  msixPending : List Nat := []
  messages : AMap (Nat × Nat) := []
  relaxed : Bool := true
  d3hot : Bool := false
  mps : Nat := 128
  mrrs : Nat := 512
deriving DecidableEq, Repr

/-- A host port (R395, R397, R398). `link` is 0 down, 1 training, 2 up. -/
structure HostPort where
  link : Nat := 0
  width : Nat := 0
  speed : Nat := 0
  flit : Bool := false
  numVFs : Nat := 0
  /-- Exponents of the BAR2 sizes of the PF and of the VFs. -/
  pfBar2 : Nat := 34
  vfBar2 : Nat := 30
deriving DecidableEq, Repr

/-- An adjacency of a Sharel port (R378): peer address, version, its identity hash. -/
structure Adj where
  addr : Nat
  version : Nat
  peerPort : Nat
  hash : List (BitVec 8)
deriving DecidableEq, Repr

/-- A Sharel port (R367, R368, R373): the priorities that its neighbour has paused and those that it has paused itself, the frames held in
its ingress buffer, oldest first, and the frames outside the streams that a paused priority keeps at its egress. -/
structure SharelPort where
  up : Bool := false
  speed : Nat := 0
  adjs : List Adj := []
  heard : List Nat := []
  paused : List Nat := []
  xoff : List Nat := []
  ingress : List Received := []
  waiting : List Control := []
deriving DecidableEq, Repr

/-- Whom the loss or refusal of a frame concerns: the op, the requester, and the task or slice it worked on. -/
structure Payer where
  o : OpRef
  who : Who
  index : Nat
deriving DecidableEq, Repr

/-- The sending half of a stream to a peer in one class (R374, R375). -/
structure SendStream where
  next : Nat := 0
  opened : Bool := false
  /-- Frames queued and not yet acknowledged, oldest first, each with whom it concerns. -/
  unacked : List (Frame × Option Payer) := []
  /-- How many of them have left egress since the last resend, and how many have left at all. -/
  sent : Nat := 0
  high : Nat := 0
deriving DecidableEq, Repr

/-- The receiving half of a stream: the next expected sequence, the one it was opened with, frames delivered since the last
acknowledgement, and whether the SEQ_GAP NAK of the present gap has been sent. -/
structure RecvStream where
  expect : Nat
  opened : Nat
  sinceAck : Nat := 0
  gapSent : Bool := false
deriving DecidableEq, Repr

/-- A remote read outstanding (R386): tag, who asked, virtual address, peer, bytes wanted, data and poison so far. -/
structure RemoteRead where
  tag : Nat
  who : Who
  peer : Nat
  cls : Nat
  va : Nat
  len : Nat
  got : List (BitVec 8) := []
  marks : List Bool := []
  finished : Bool := false
  status : Nat := 0
  code : Nat := 0
deriving DecidableEq, Repr

/-- An inbound gather being received (R389): its peer, class and tag, bits [511:128] of its record, and the bytes that
follow with their poison marks; a refused one only takes its remaining frames. -/
structure InGather where
  peer : Nat
  cls : Nat
  tag : Nat
  word : Nat
  refused : Bool := false
  got : List (BitVec 8) := []
  marks : List Bool := []
deriving DecidableEq, Repr

/-- The fabric (17_sharel_fabric.md). -/
structure Fabric where
  addr : Nat := 0
  held : Bool := false
  claims : Nat := 0
  ports : AMap SharelPort := []
  lsas : AMap LsaMsg := []
  lsaSeq : Nat := 0
  /-- Forwarding table: destination to its next hops (port, neighbour), at most four (R380). -/
  routes : AMap (List (Nat × Nat)) := []
  send : AMap SendStream := []
  recv : AMap RecvStream := []
  nextTag : Nat := 0
  reads : List RemoteRead := []
  serving : List InGather := []
deriving DecidableEq, Repr

/-- A CXL link (R412): state 0 absent, 1 training, 2 up, 3 refused, 4 failed. -/
structure CxlLink where
  state : Nat := 0
  width : Nat := 0
  speed : Nat := 0
  capacity : Nat := 0
  decoders : Nat := 0
deriving DecidableEq, Repr

/-! ### Weevils, tiers, sparing -/

/-- A Hive directory entry (R169, R188, R190): table, row, slot in 32-byte units, bytes, whether it is valid or draining, and
the HIVE_EVICT that waits for it. -/
structure HiveEntry where
  table : Nat
  row : Nat
  slot : Nat
  bytes : Nat
  valid : Bool
  evictor : Option OpRef := none
deriving DecidableEq, Repr

/-- A row write that waits in its owner's update queue (R192): its slice, its place in the plan or item list, and its row, as
root * 2^52 + virtual address. -/
structure HeldUpdate where
  o : OpRef
  k : Nat
  n : Nat
  row : Nat
deriving DecidableEq, Repr

/-- The Weevils' shared state (07, 08): the Hive directory, and the shard counters of R193 by device address / 2 MiB: of
the running epoch, latched at the last epoch's end, and the epochs a moved shard still rests. -/
structure Weevils where
  /-- Slices each lead holds, in the order it received them; the STREAMs of central stream engine `e` under 32 + e. -/
  queues : AMap (List SliceRef) := []
  hive : AMap HiveEntry := []
  /-- The update queue of each owner, oldest first, at most 4,096 (R192). -/
  updates : AMap (List HeldUpdate) := []
  live : AMap Nat := []
  latched : AMap Nat := []
  resting : AMap Nat := []
deriving DecidableEq, Repr

/-- The use of one folio of a grant (R135): reads of the last epoch, epochs without a write (at most 4), epochs below
`demote_reads`, epochs without an access. -/
structure FolioUse where
  reads : Nat := 0
  noWrite : Nat := 0
  cool : Nat := 0
  cold : Nat := 0
deriving DecidableEq, Repr

/-- What the memory controllers have counted of one folio of a grant in the running epoch (R135): sampled reads, in all and by
reading cluster, and whether it was written. -/
structure FolioCount where
  reads : Nat := 0
  wrote : Bool := false
  readers : AMap Nat := []
deriving DecidableEq, Repr

/-- A redirection entry at the memory controllers (R131): the MIGRATE op it belongs to, and its folio. -/
structure Redir where
  owner : OpRef
  folio : Folio
deriving DecidableEq, Repr

/-- A row remap entry (R141): the row, and whether it is still copying. -/
structure Remap where
  row : Nat
  copying : Bool
deriving DecidableEq, Repr

/-- The tiers' repair and placement state (06, 16). Channels are numbered 0 to 127 for logical cover channels and
128 + 32 s + channel for those of bulk stack s. -/
structure Tiers where
  remaps : AMap (List Remap) := []
  /-- Uncorrectable atoms a row showed when it was last scrubbed, by channel * 2^32 + row. -/
  ueCounts : AMap Nat := []
  /-- Folio uses by grant * 2^36 + virtual address / 2^16. -/
  uses : AMap FolioUse := []
  /-- Counts of the running epoch, keyed alike, and the read bursts into granted ranges so far (R135). -/
  counts : AMap FolioCount := []
  bursts : Nat := 0
  redirs : List Redir := []
  /-- Home frame of each copy frame, both in units of 64 KiB: the back-records of R198. -/
  homes : AMap Nat := []
  placementSeq : AMap Nat := []
  /-- Placement records that wait for ring space: port, and the record without its sequence and phase. -/
  placementWait : List (Nat × Nat) := []
  capped : List Nat := []
  stackCapped : List Nat := []
  /-- Channel sparing in progress: logical channel to physical channel, and whether it follows a cluster. -/
  chanSparing : AMap (Nat × Bool) := []
  /-- Atoms whose next delivery through the network-on-chip fails its check beyond correction (R330). -/
  transit : List Nat := []
deriving DecidableEq, Repr

/-- Sparing state (16). -/
structure Sparing where
  /-- Physical clusters marked bad. -/
  badClusters : List Nat := []
  /-- Physical cover channels marked bad, as 68 * layer + channel. -/
  badChannels : List Nat := []
  /-- Logical cluster, spare physical cluster and step of R350 in progress: 1 self-test, 3 handover, 7 channel moves. -/
  active : Option (Nat × Nat × Nat) := none
  /-- Repair records that wait for the management core. -/
  recordsDue : Nat := 0
  /-- Logical clusters whose sparing is due. -/
  triggers : List Nat := []
  /-- Physical clusters that serve no logical one and have passed their self-test since the last reset (R466). -/
  tested : List Nat := []
  /-- Logical cover channels whose sparing is due, with the physical channel that step 7 of R350 names. -/
  chanTriggers : List (Nat × Option Nat) := []
deriving DecidableEq, Repr

/-! ### Firmware, fuses, board, power -/

/-- The management core (20). -/
structure Firmware where
  /-- `stage` of `fw_state` (R456). -/
  stage : Nat := 0
  /-- `result` of `fw_state`. -/
  result : Nat := 0
  /-- The running region: 0 A, 1 B. -/
  region : Nat := 0
  /-- The bytes of the images in regions A and B; an unlisted region is empty. -/
  regions : AMap (List (BitVec 8)) := []
  /-- The staging region holds a verified image. -/
  staged : Bool := false
  /-- The running image has reported alive since it was last started. -/
  alive : Bool := false
  /-- Between steps 4 and 6 of R457: Amiso requests are held. -/
  handover : Bool := false
  /-- Watchdog restarts the running image has caused. -/
  restarts : Nat := 0
  /-- The format the persistent record was last written in. -/
  recFormat : Nat := 0
  /-- Measurement 4 of R463. -/
  history : List (BitVec 8) := List.replicate 32 0
deriving DecidableEq, Repr

/-- The fuses (R348, R450 to R452): keys, revocations, rollback floor, owner banks, and the maps as the repair records give
them. Slot 0 is fused at manufacture. -/
structure Fuses where
  keySlots : AMap (List (BitVec 8)) := [(0, Config.keySlot0)]
  revoked : List Nat := []
  floor : Nat := 0
  /-- Owner banks, first enrolled first. -/
  owners : List (List (BitVec 8)) := []
  /-- The values of `cluster_map`, `cover_chan_map` and `repair_free` on record, keyed as `State.objs`. -/
  maps : AMap Nat := []
  lanes : AMap Nat := []
  badClusters : List Nat := []
  badChannels : List Nat := []
deriving DecidableEq, Repr

/-- The package's pins and resets (21, 23). -/
structure Board where
  powered : Bool := true
  resetN : Bool := false
  stretching : Bool := false
  thermTrip : Bool := false
  clocksStopped : Bool := false
  straps : Nat := 0
  i3cDynamic : Nat := 0
  /-- A warm reset answered and not yet begun: 2 or 3. -/
  warm : Option Nat := none
  /-- `mgmt_restart` written, its answer not yet sent (R469). -/
  restartDue : Bool := false
  /-- A device-wide reset's bring-up in progress: from step 4 of R471 to the management core's report. -/
  inReset : Bool := false
  /-- Memory in self-refresh since the last device-wide reset began. -/
  retained : Bool := false
  /-- The link MTU and the prefix of the last router advertisement (R431). -/
  mtu : Nat := 1280
  prefix64 : Nat := 0
  /-- MCTP endpoint IDs by carrier: 0 I3C, 1 and 2 PCIe VDM of ports A and B (R432). -/
  eids : AMap Nat := []
deriving DecidableEq, Repr

/-- Demands on a logical cluster's frequency step and the power manager's activity cap (R479, R482, R486). -/
structure Demand where
  power : Nat := 24
  cover : Nat := 24
  die : Nat := 24
  backstop : Nat := 24
  cap : Nat := 16
deriving DecidableEq, Repr

/-- Power and clocks (22). -/
structure Power where
  demands : AMap Demand := []
  /-- VDD_CORE in mV as last reported, and as last asked for (R480, R496, R497). -/
  mv : Nat := 750
  asked : Nat := 750
  /-- The last AVSBus command was not answered (R496). -/
  avsHeld : Bool := false
  /-- Rungs of the ladder taken, newest first (R482). -/
  ladder : List Nat := []
  /-- Samples with every rung exhausted since `over_limit_ms` last grew, in tenths of a millisecond. -/
  overTenths : Nat := 0
  /-- The backstop's cap (R486). -/
  backstopCap : Nat := 16
  /-- Engines (2 c + e) that wait for a ramp token, in request order (R485). -/
  waiting : List Nat := []
deriving DecidableEq, Repr

/-! ### The posted word path -/

/-- What an entry of the posted word path is for (R232): a host port with the requester function, the CXL port, or a peer. -/
inductive PathTarget where
  | host (port fn : Nat)
  | cxl
  | peer (addr : Nat)
deriving DecidableEq, Repr

/-- An entry of the posted word path (R232, R233): stores of one tidy core that have not left yet. It holds the class, the op and
the task they were made for, the first virtual address and the address at the target, the bytes, whether they may carry
Relaxed Ordering, how many stores were merged, and whether a fence or STORE.REL has followed. -/
structure PathEntry where
  core : Nat
  cls : Nat
  o : OpRef
  index : Nat
  target : PathTarget
  va : Nat
  addr : Nat
  bytes : List (BitVec 8)
  ro : Bool
  stores : Nat := 1
  closed : Bool := false
  /-- It fails its check beyond correction, and is delivered poisoned (R330). -/
  bad : Bool := false
deriving DecidableEq, Repr

/-! ### The whole machine -/

/-- The device. -/
structure State where
  /-- Commands that wait, first in first out. -/
  pending : List Instr := []
  /-- How many arbitrary numbers have been drawn (log entry 5). -/
  free : Nat := 0
  /-- Everything sent to the outside so far, oldest first. -/
  out : List Out := []
  /-- Dictionary objects that hold a value of their own, keyed index * 256 + sub; unlisted: the default (R419). -/
  objs : AMap Nat := []
  /-- Device memory by device physical address: cover, bulk and cluster stores; unlisted bytes are zero (R467). -/
  mem : List Host.Cell := []
  /-- Poisoned atoms by device physical address / 64 (R357). -/
  poison : List Nat := []
  /-- Far memory by link * 2^52 + device-physical address; unlisted: `Config.farByte`. -/
  far : List Host.Cell := []
  /-- Poisoned far atoms by (link * 2^52 + dpa) / 64. -/
  farPoison : List Nat := []
  ctxs : AMap Ctx := []
  fences : AMap Nat := []
  /-- `stream_split` in force, latched at each partition's set-up (R231, R312). -/
  splits : AMap Nat := []
  fencePoison : List Nat := []
  graphs : AMap Graph := []
  trans : Trans := {}
  clusters : AMap Cluster := []
  cores : AMap Core := []
  engines : AMap Engine := []
  /-- Lane mapped out, by 2 * physical cluster + engine (R54). -/
  lanes : AMap Nat := []
  arbs : AMap Arb := []
  attn : Attn := {}
  mbox : AMap MboxSlot := []
  amiso : Amiso := {}
  wins : AMap Win := []
  fns : AMap Fn := []
  hostPorts : AMap HostPort := []
  fabric : Fabric := {}
  /-- Entries of the posted word path, oldest first (R232). -/
  path : List PathEntry := []
  cxl : AMap CxlLink := []
  weevils : Weevils := {}
  tiers : Tiers := {}
  sparing : Sparing := {}
  fw : Firmware := {}
  fuses : Fuses := {}
  board : Board := {}
  power : Power := {}
deriving DecidableEq, Repr

/-- The device just after power-on: rails on, DEV_RESET_N low, nothing running; memory zero, fuses as made (R469, R497). -/
def State.reset : State := {}

end Sys2Proof.Machine
end

