-- ==== Sys2Proof/Machine/Ops.lean ====
section
/-! DEFINITION. The named operations over dictionary objects, attention, partitions, fences, device memory and the outside
that the meanings of the commands share. -/

namespace Sys2Proof.Machine

/-! ### Dictionary objects -/

/-- The key of object `index.sub` in the object store. -/
def objKey (index sub : Nat) : Nat := index * 256 + sub

/-- The default of the object at a key. -/
def objDflt (k : Nat) : Nat := Catalog.dflt (k / 256) (k % 256)

/-! ### Slots of the shared-port arbiters (R240, R241, R247) -/

/-- The class of a slot (R240). -/
def slotClass (i : Nat) : Nat := i / 8

/-- A slot requests while its queue is not empty (R240). -/
def Slot.requests (x : Slot) : Bool := !x.queue.isEmpty

/-- A slot that has stopped requesting (R241, R247). -/
def Slot.idle (x : Slot) : Slot := { x with effPrio := x.basePrio, wait := 0, resume := false }

/-- Slots changed one by one. -/
def Arb.mapSlots (a : Arb) (f : Nat → Slot → Slot) : Arb := { a with slots := a.slots.mapIdx f }

/-- Slots of an instance that meet a condition. -/
def Arb.those (a : Arb) (p : Nat → Slot → Bool) : List Nat :=
  (a.slots.zipIdx.filter fun e => p e.2 e.1).map (·.2)

def Arb.slot (a : Arb) (i : Nat) : Slot := a.slots.getD i { basePrio := 0, effPrio := 0, waitLimit := 0, burst := 0 }

/-- Requests that meet a condition leave an instance: a slot that they leave empty holds no resume (R247); a round kept for class 0
becomes an ordinary one where no class-0 slot requests any more (DESIGN CHOICE, log entry 92). -/
def Arb.dropReqs (a : Arb) (p : ArbReq → Bool) : Arb :=
  let b := a.mapSlots fun _ x =>
    let q := x.queue.filter fun r => !p r
    if q.length = x.queue.length then x else if q.isEmpty then { x.idle with queue := [] } else { x with queue := q }
  { b with preempted := b.preempted && !(b.those fun i x => slotClass i == 0 && x.requests).isEmpty }

namespace State

/-- The value of a stored dictionary object. -/
def obj (s : State) (index sub : Nat) : Nat := AMap.getD s.objs (objKey index sub) (objDflt (objKey index sub))

/-- The state with a stored dictionary object set. -/
def setObj (s : State) (index sub v : Nat) : State :=
  { s with objs := AMap.put (objDflt (objKey index sub)) s.objs (objKey index sub) v }

/-- Bits of a stored scalar object. -/
def objBits (index sub : Nat) : Nat :=
  match (Catalog.find index sub).map (·.ty) with
  | some 1 => 8
  | some 2 => 16
  | some 3 => 32
  | some 5 => 32
  | _ => 64

/-- The state with `n` added to a counting object, modulo its width. -/
def addObj (s : State) (index sub n : Nat) : State :=
  s.setObj index sub ((s.obj index sub + n) % 2 ^ objBits index sub)

/-- An arbitrary number, and the state that has drawn it (log entry 5). -/
def draw (s : State) : Nat × State := (Config.freeValue s.free, { s with free := s.free + 1 })

/-- The state after sending something to the outside. -/
def send (s : State) (o : Out) : State := { s with out := s.out ++ [o] }

/-! ### Partitions and functions -/

/-- Partition `p` is in service (R311). -/
def partValid (s : State) (p : Nat) : Bool := decide (p < 8) && flag (s.obj 0x3000 p) 63

/-- The function `8 * port + number` that owns partition `p` (R311). -/
def partFn (s : State) (p : Nat) : Nat := bit (s.obj 0x3000 p) 62 * 8 + bits (s.obj 0x3000 p) 61 59

/-- Bytes of the working region per cluster of partition `p` (R311). -/
def wsBytes (s : State) (p : Nat) : Nat := bits (s.obj 0x3000 p) 58 53 * 65536

/-- Context `n`. -/
def ctx (s : State) (n : Nat) : Ctx := AMap.getD s.ctxs n {}

/-- The state with context `n` replaced; closed contexts in their default form are not listed. -/
def setCtx (s : State) (n : Nat) (c : Ctx) : State := { s with ctxs := AMap.put {} s.ctxs n c }

/-- Function `ff` (0 to 15). -/
def fn (s : State) (ff : Nat) : Fn := AMap.getD s.fns ff {}

def setFn (s : State) (ff : Nat) (f : Fn) : State := { s with fns := AMap.put {} s.fns ff f }

/-- Host port `p`. -/
def hostPort (s : State) (p : Nat) : HostPort := AMap.getD s.hostPorts p {}

def setHostPort (s : State) (p : Nat) (h : HostPort) : State := { s with hostPorts := AMap.put {} s.hostPorts p h }

/-- Logical cluster `c`. -/
def cluster (s : State) (c : Nat) : Cluster := AMap.getD s.clusters c {}

def setCluster (s : State) (c : Nat) (x : Cluster) : State := { s with clusters := AMap.put {} s.clusters c x }

/-- `cluster_part` of cluster `c` in force: the committed value, or while it moves the value before (R313, R328). -/
def clusterRaw (s : State) (c : Nat) : Nat := if (s.cluster c).moving then (s.cluster c).oldPart else s.obj 0x3001 c

/-- The partition that cluster `c` belongs to (R313). -/
def clusterPart (s : State) (c : Nat) : Nat := bits (s.clusterRaw c) 3 0

/-- Cluster `c` is reserved for class 0 (R313). -/
def clusterReserved (s : State) (c : Nat) : Bool := flag (s.clusterRaw c) 4

/-- Tidy core `n = 4 c + k`. -/
def core (s : State) (n : Nat) : Core := AMap.getD s.cores n {}

def setCore (s : State) (n : Nat) (x : Core) : State := { s with cores := AMap.put {} s.cores n x }

/-- Engine `e` of logical cluster `c`. -/
def engine (s : State) (c e : Nat) : Engine := AMap.getD s.engines (2 * c + e) {}

def setEngine (s : State) (c e : Nat) (x : Engine) : State := { s with engines := AMap.put {} s.engines (2 * c + e) x }

/-- CXL link `l`. -/
def cxlLink (s : State) (l : Nat) : CxlLink := AMap.getD s.cxl l {}

def setCxlLink (s : State) (l : Nat) (x : CxlLink) : State := { s with cxl := AMap.put {} s.cxl l x }

/-- Sharel port `p`. -/
def sharelPort (s : State) (p : Nat) : SharelPort := AMap.getD s.fabric.ports p {}

def setSharelPort (s : State) (p : Nat) (x : SharelPort) : State :=
  { s with fabric := { s.fabric with ports := AMap.put {} s.fabric.ports p x } }

/-- The device runs: power on, DEV_RESET_N high, no reset stretch, clocks not stopped (R488, R497, R499). Commands other than
board events act only then. -/
def running (s : State) : Bool :=
  s.board.powered && s.board.resetN && !s.board.stretching && !s.board.clocksStopped

/-- The firmware serves requests: an image runs and has reported alive (R447, R456, R457). -/
def mgmtUp (s : State) : Bool := s.running && decide (1 ≤ s.fw.stage) && s.fw.alive

/-- Doorbells and mailbox go words are taken: the device runs and no device-wide reset is in progress (step 4 of R471). -/
def portsUp (s : State) : Bool := s.running && !s.board.inReset

/-! ### Attention (R297, R298, R510) -/

/-- Function `ff` owns partition `p`, or serves an attached context of it (R297, R409). -/
def fnOwns (s : State) (ff p : Nat) : Bool :=
  (s.partValid p && s.partFn p == ff) ||
    s.ctxs.any fun e => e.2.attached && decide (e.2.partition = p) && decide (8 * e.2.port + e.2.fn = ff)

/-- Reader `r` sees the event (R297). -/
def sees (s : State) (r : Nat) (e : Event) : Bool :=
  decide (16 ≤ r) || decide (e.parts = 0xFF) || (List.range 8).any fun p => flag e.parts p && s.fnOwns r p

/-- Event `e` is newer than reader `r`'s acknowledgement (R299). -/
def newer (s : State) (r : Nat) (e : Event) : Bool :=
  let d := (e.seq + 2 ^ 32 - s.obj 0xA020 r) % 2 ^ 32
  decide (1 ≤ d) && decide (d < 2 ^ 31)

/-- An event put in a list ordered by age. -/
def insertEvent (s : State) (e : Event) : List Event → List Event
  | [] => [e]
  | x :: xs =>
    if (s.attn.last + 2 ^ 32 - x.seq) % 2 ^ 32 < (s.attn.last + 2 ^ 32 - e.seq) % 2 ^ 32 then e :: x :: xs
    else x :: insertEvent s e xs

/-- Every event the status words show, oldest first: those lost to the log too (R298). -/
def events (s : State) : List Event := s.attn.lost.foldl (fun l e => s.insertEvent e l) (s.attn.log ++ s.attn.waiting)

/-- The device status word of reader `r` (R297); 0xE800 while a device-wide reset is in progress (R471). -/
def statusWord (s : State) (r : Nat) : Nat :=
  if s.board.inReset then 0xE800 else
  let seen := s.events.filter (s.sees r)
  let fresh := seen.filter (s.newer r)
  let sev := fresh.foldl (fun m e => max m e.severity) 0
  let src := fresh.foldl (fun m e => if e.severity = sev then e.source else m) 0
  let last := ((seen.getLast?).map (·.seq)).getD 0
  (if fresh.isEmpty then 0 else 2 ^ 15 + sev * 2 ^ 13 + src * 2 ^ 8) + last % 256

/-- Adds one to `attn_lost` of every reader that sees an event it has not acknowledged. -/
def loseEvent (s : State) (e : Event) : State :=
  (List.range 18).foldl (fun t r => if s.sees r e && s.newer r e then t.addObj 0xA021 r 1 else t) s

/-- An attention event: the status words change at once, the log entry is written later by the firmware (R298). Of the
events that wait while the management core restarts, those beyond 64 are lost. -/
def raise (s : State) (source severity parts code sub addr : Nat) : State :=
  let (stamp, s) := s.draw
  let seq := (s.attn.last + 1) % 2 ^ 32
  let e : Event := ⟨seq, source, severity, parts, code, sub, s.obj code sub % 2 ^ 56, addr, stamp % 2 ^ 64⟩
  let s := { s with attn := { s.attn with last := seq } }
  if s.fw.alive = false ∧ 64 ≤ s.attn.waiting.length then
    { s.loseEvent e with attn := { (s.loseEvent e).attn with lost := s.attn.lost ++ [e] } }
  else { s with attn := { s.attn with waiting := s.attn.waiting ++ [e] } }

/-- An attention event about an object that reports a state, with its value after the event (R298). -/
def raiseAs (s : State) (source severity parts code sub addr v : Nat) : State :=
  (s.setObj code sub v).raise source severity parts code sub addr

/-- A counting object with its attention event (R510). -/
def countRaise (s : State) (source severity parts code sub addr : Nat) : State :=
  (s.addObj code sub 1).raise source severity parts code sub addr

/-! ### Fences (R285, R286, R360) -/

/-- Fence `f`. -/
def fence (s : State) (f : Nat) : Nat := AMap.getD s.fences f 0

def setFence (s : State) (f v : Nat) : State := { s with fences := AMap.put 0 s.fences f v }

def fencePoisoned (s : State) (f : Nat) : Bool := s.fencePoison.contains f

/-- Fence `f` lies in the range of partition `p` (R285). -/
def fenceInRange (s : State) (p f : Nat) : Bool :=
  let r := s.obj 0x3070 p
  decide (bits r 11 0 ≤ f) && decide (f < bits r 11 0 + bits r 24 12)

/-- One signal applied to its fence (R286); add and max are discarded on a poisoned fence, set clears the poison (R360). -/
def signal (s : State) (g : Signal) : State :=
  match g.mode with
  | 1 => if s.fencePoisoned g.fence then s else s.setFence g.fence ((s.fence g.fence + g.value) % 2 ^ 64)
  | 2 => if s.fencePoisoned g.fence then s else s.setFence g.fence (max (s.fence g.fence) g.value)
  | 3 => { s.setFence g.fence (g.value % 2 ^ 64) with fencePoison := s.fencePoison.filter (· != g.fence) }
  | _ => s

/-- A wait on fence `f` for `w` is met (R287); a poisoned fence meets none. -/
def waitOk (s : State) (f w : Nat) : Bool := !s.fencePoisoned f && decide (w ≤ s.fence f)

end State

/-! ### The physical map (R112 to R116) -/

/-- Where a device physical address lies (R112). -/
inductive Place where
  | cover (chan : Nat)
  | coverDevice
  | bulk (group : Nat)
  | store (c off : Nat)
  | storeDevice (c off : Nat)
  | far
  | reserved
deriving DecidableEq, Repr

def coverTop : Nat := 0x7FF000000
def bulkBase : Nat := 0x1000000000
def storeBase : Nat := 0x8000000000
def farBase : Nat := 0x10000000000

/-- The place of device physical address `a`. -/
def placeOf (a : Nat) : Place :=
  if a < coverTop then .cover (a / 2 ^ 28)
  else if a < 0x800000000 then .coverDevice
  else if a < bulkBase then .reserved
  else if a < 0x5800000000 then .bulk ((a - bulkBase) / 0x300000000)
  else if a < storeBase then .reserved
  else if a < storeBase + 64 * 0x400000 then
    let c := (a - storeBase) / 0x400000
    let o := (a - storeBase) % 0x400000
    if o < 0x300000 then .store c o else .storeDevice c o
  else if a < farBase then .reserved
  else if a < 0x50000000000 then .far
  else .reserved

/-- The device physical address of byte `o` of the store of cluster `c` (R87). -/
def storeAddr (c o : Nat) : Nat := storeBase + c * 0x400000 + o

/-- The near stack of physical cluster `p` (R121). -/
def nearStackOf (p : Nat) : Nat :=
  let r := p / 6
  (if 3 ≤ p % 6 then 3 else 0) + (if r ≤ 3 then 0 else if r ≤ 7 then 1 else 2)

namespace State

/-- The physical cluster that serves logical cluster `c` (R11). -/
def physOf (s : State) (c : Nat) : Nat := s.obj 0x5002 c

/-- Decoder `d` covers far address `a` (R413). -/
def decoderHas (v a : Nat) : Bool :=
  flag v 63 && decide (farBase + bits v 13 0 * 2 ^ 28 ≤ a) &&
    decide (a < farBase + (bits v 13 0 + bits v 44 30) * 2 ^ 28)

/-- Interleave ways of a decoder (R413). -/
def decoderWays (v : Nat) : Nat := 2 ^ bits v 47 46

/-- Link of interleave position `i` (R413). -/
def decoderTarget (v i : Nat) : Nat := bits v (49 + 2 * i) (48 + 2 * i)

/-- Decoder `v` names link `l` in a position in force. -/
def decoderNames (v l : Nat) : Bool := (List.range (decoderWays v)).any fun i => decoderTarget v i == l

/-- Where decoder `d` starts in the expander of link `l` (R414). -/
def dpaStart (s : State) (d l : Nat) : Nat :=
  (List.range d).foldl (fun n e =>
    let v := s.obj 0x9110 e
    if flag v 63 && decoderNames v l then n + bits v 44 30 * 2 ^ 28 / decoderWays v else n) 0

/-- The link and device-physical address that serve far address `a` (R414); none in a hole, or where the link is not up
(R417, R466). -/
def farTarget (s : State) (a : Nat) : Option (Nat × Nat) :=
  match (List.range 8).find? fun d => decoderHas (s.obj 0x9110 d) a with
  | none => none
  | some d =>
    let v := s.obj 0x9110 d
    let off := a - (farBase + bits v 13 0 * 2 ^ 28)
    let page := off / 4096
    let w := decoderWays v
    let l := decoderTarget v (page % w)
    if (s.cxlLink l).state = 2 then some (l, s.dpaStart d l + page / w * 4096 + off % 4096) else none

/-- The cover channel or bulk group of `a` is withdrawn (R356). -/
def withdrawn (s : State) (a : Nat) : Bool :=
  match placeOf a with
  | .cover n => s.obj 0x4012 n == 2
  | .coverDevice => s.obj 0x4012 127 == 2
  | .bulk g => s.obj 0x4062 g == 1
  | _ => false

/-- The memory of `a` is still starting, so that accesses to it are held (R466). -/
def tierStarting (s : State) (a : Nat) : Bool :=
  match placeOf a with
  | .cover n => s.obj 0x2003 (n / 64) != 2 && s.obj 0x2003 (n / 64) != 3
  | .coverDevice => s.obj 0x2003 1 != 2 && s.obj 0x2003 1 != 3
  | .bulk g => s.obj 0x2004 (g / 4) != 2 && s.obj 0x2004 (g / 4) != 3
  | _ => false

/-! ### Device memory -/

/-- Key of far memory: link and device-physical address. -/
def farKey (l d : Nat) : Nat := l * 2 ^ 52 + d

/-- One byte of cover, bulk or store memory. -/
def memByte (s : State) (a : Nat) : BitVec 8 := AMap.getD s.mem a 0

/-- One byte of device memory; bytes no unit backs read as zero. -/
def readByte (s : State) (a : Nat) : BitVec 8 :=
  match placeOf a with
  | .far =>
    match s.farTarget a with
    | some (l, d) => AMap.getD s.far (farKey l d) (Config.farByte l d)
    | none => 0
  | .reserved => 0
  | _ => if s.withdrawn a then 0 else s.memByte a

/-- `n` bytes of device memory from `a` on. -/
def readBytes (s : State) (a : Nat) : Nat → List (BitVec 8)
  | 0 => []
  | n + 1 => s.readByte a :: readBytes s (a + 1) n

/-- The atom of `a` reads as poisoned (R357): marked, in a hole of the far window, or withdrawn. -/
def poisonedAt (s : State) (a : Nat) : Bool :=
  match placeOf a with
  | .far =>
    match s.farTarget a with
    | some (l, d) => s.farPoison.contains (farKey l d / 64)
    | none => true
  | _ => s.withdrawn a || s.poison.contains (a / 64)

/-- The first addresses of the atoms that `n` bytes from `a` on touch. -/
def atomsOf (a n : Nat) : List Nat :=
  if n = 0 then [] else (List.range ((a + n - 1) / 64 - a / 64 + 1)).map fun i => (a / 64 + i) * 64

/-- Some atom of the bytes is poisoned. -/
def anyPoison (s : State) (a n : Nat) : Bool := (atomsOf a n).any s.poisonedAt

/-- The state with one byte of device memory written; writes to holes and withdrawn units are discarded (R116, R356). -/
def writeByte (s : State) (a : Nat) (b : BitVec 8) : State :=
  match placeOf a with
  | .far =>
    match s.farTarget a with
    | some (l, d) => { s with far := AMap.put (Config.farByte l d) s.far (farKey l d) b }
    | none => s
  | .reserved => s
  | _ => if s.withdrawn a then s else { s with mem := AMap.put 0 s.mem a b }

/-- The bytes written one by one. -/
def putBytes (s : State) (a : Nat) : List (BitVec 8) → State
  | [] => s
  | b :: bs => putBytes (s.writeByte a b) (a + 1) bs

/-- A sorted list of numbers with `n` in it. -/
def insertNat (n : Nat) : List Nat → List Nat
  | [] => [n]
  | m :: ms => if n < m then n :: m :: ms else if n = m then m :: ms else m :: insertNat n ms

/-- The state with the marker of the atom at `a` set, without a report. -/
def markPoison (s : State) (a : Nat) : State :=
  match placeOf a with
  | .far =>
    match s.farTarget a with
    | some (l, d) => { s with farPoison := insertNat (farKey l d / 64) s.farPoison }
    | none => s
  | .reserved => s
  | _ => if s.withdrawn a then s else { s with poison := insertNat (a / 64) s.poison }

/-- The state with the marker of the atom at `a` cleared (R359). -/
def clearPoison (s : State) (a : Nat) : State :=
  match placeOf a with
  | .far =>
    match s.farTarget a with
    | some (l, d) =>
      if s.farPoison.contains (farKey l d / 64) then
        { s with farPoison := s.farPoison.filter (· != farKey l d / 64) }.addObj 0x4060 3 1
      else s
    | none => s
  | _ =>
    if s.poison.contains (a / 64) && !s.withdrawn a then { s with poison := s.poison.filter (· != a / 64) }.addObj 0x4060 3 1 else s

/-- The atom at `a` becomes poisoned: marked, counted, reported (R357, R363). -/
def makePoison (s : State) (a : Nat) : State :=
  (s.markPoison a).countRaise (if placeOf a = .far then 10 else 1) 2 0xFF 0x4060 1 a

/-- An uncorrectable transport error delivers the atom at `a` poisoned: counted and reported, though the memory keeps its own copy
(R330, R357). -/
def transportError (s : State) (a : Nat) : State :=
  s.countRaise (if placeOf a = .far then 10 else 1) 2 0xFF 0x4060 1 a

/-- The delivery of `n` bytes at `a` through the network-on-chip: the atoms of it that fail, each once, and their bytes' marks. -/
def deliver64 (s : State) (a n : Nat) : State × List Bool :=
  let hit := (atomsOf a n).filter fun x => s.tiers.transit.contains (x / 64)
  if hit.isEmpty then (s, List.replicate n false)
  else
    let t := hit.foldl transportError { s with tiers := { s.tiers with
      transit := s.tiers.transit.filter fun x => !hit.contains (x * 64) } }
    (t, (List.range n).map fun i => hit.contains ((a + i) / 64 * 64))

/-- The CXL messages and counters of a write to the far tier (R416, R418), and the attention of a hole (R116). -/
def farWritten (s : State) (a : Nat) (bytes : List (BitVec 8)) (poisoned : Bool) : State :=
  match placeOf a with
  | .far =>
    match s.farTarget a with
    | some (l, d) => (s.addObj 0x9121 l 1).send (.cxlWrite l d bytes poisoned)
    | none => s.countRaise 10 2 0xFF 0x9104 2 a
  | _ => s

/-- A write of bytes to device memory. Each atom whose 64 bytes are all written with sound data loses its poison; an atom
written in part keeps it (R359). -/
def write (s : State) (a : Nat) (bytes : List (BitVec 8)) : State :=
  let n := bytes.length
  let s := s.putBytes a bytes
  let s := (atomsOf a n).foldl (fun t x => if a ≤ x ∧ x + 64 ≤ a + n then t.clearPoison x else t) s
  if n = 0 then s else s.farWritten a bytes false

/-- A write of bytes some of which come from poisoned atoms (R132, R358): the destination atoms of those are poisoned, and go out
to the far tier so. `bad` marks the bytes. -/
def writeMixed (s : State) (a : Nat) (bytes : List (BitVec 8)) (bad : List Bool) : State :=
  let n := bytes.length
  let hit := fun (x : Nat) => (List.range n).any fun i => decide ((a + i) / 64 * 64 = x) && bad.getD i false
  (atomsOf a n).foldl (fun t x =>
    let lo := max a x
    let part := (bytes.drop (lo - a)).take (x + 64 - lo)
    if hit x then ((t.putBytes lo part).markPoison x).farWritten lo part true else t.write lo part) s

/-- A write of a number as `n` little-endian bytes. -/
def writeNat (s : State) (a n v : Nat) : State := s.write a (leBytes n v)

/-- The number that `n` bytes at `a` spell. -/
def readNat (s : State) (a n : Nat) : Nat := leNat (s.readBytes a n)

/-- What a read of `n` bytes at `a` sets off: the attention and counts of holes, withdrawn units and CXL (R116, R356,
R357, R416, R418). DESIGN CHOICE (log entry 86): R116 raises attention for a read of a hole without saying how often; here once for
each 64-byte atom read, with its address, and once for each write, with its first address. -/
def readEffects (s : State) (a n : Nat) : State :=
  (atomsOf a n).foldl (fun t x =>
    match placeOf x with
    | .far =>
      match s.farTarget x with
      | some (l, d) =>
        let t := t.addObj 0x9120 l 1
        if s.farPoison.contains (farKey l d / 64) then (t.addObj 0x9122 l 1).countRaise 10 2 0xFF 0x4060 1 x else t
      | none => (t.countRaise 10 2 0xFF 0x9104 1 x).addObj 0x4060 1 1
    | _ => if s.withdrawn x then t.countRaise 1 2 0xFF 0x4060 1 x else t) s

/-- The poison-consumed count (R363). -/
def consumePoison (s : State) : State := s.addObj 0x4060 2 1

/-- The requests of the ops that meet a condition leave every shared port: their context is torn down, or the op has failed (R247). -/
def dropRequests (s : State) (p : OpRef → Bool) : State :=
  { s with arbs := s.arbs.map fun (e : Nat × Arb) => (e.1, e.2.dropReqs fun r => match r.issuer with
    | .op o => p o
    | _ => false) }

/-! ### Host commands in order of arrival (R129, R206, R466) -/

/-- The host port a command to the dictionary came through, if any. -/
def hostPortOf (r : Requester) : Option Nat :=
  match r.path with
  | .hostA => some 0
  | .hostB => some 1
  | _ => none

/-- A BAR2 write that was held. -/
def isBar2Write : Instr → Bool
  | .bar2Write _ _ _ _ => true
  | _ => false

/-- A BAR2 write from port `p` is held: what comes from that port after it waits (R206). -/
def behind (s : State) (p : Nat) : Bool := s.running && s.trans.hostHeld.any fun x => x.1 == p && isBar2Write x.2

/-- A command from port `p` waits with the others of its port. -/
def holdHost (s : State) (p : Nat) (i : Instr) : State :=
  { s with trans := { s.trans with hostHeld := s.trans.hostHeld ++ [(p, i)] } }

/-- A command of a host port takes effect, giving `t`, or waits behind a held BAR2 write of its port (R206). -/
def inTurn (s : State) (p : Option Nat) (i : Instr) (t : State) : State :=
  match p with
  | some p => if s.behind p then s.holdHost p i else t
  | none => t

/-! ### Folios in flight (R129, R131) -/

/-- The redirection entry whose source frame holds `a`. -/
def redirOf (s : State) (a : Nat) : Option Folio :=
  ((s.tiers.redirs.find? fun r => decide (r.folio.src ≤ a) && decide (a < r.folio.src + r.folio.size)).map (·.folio))

/-- Writes to `a` are held (R129). -/
def heldWrite (s : State) (a : Nat) : Bool :=
  match s.redirOf a with
  | some f => f.phase == .copying || f.phase == .filling
  | none => false

/-- The address an access of the old translation reaches (R129). -/
def forwarded (s : State) (a : Nat) : Nat :=
  match s.redirOf a with
  | some f => if f.phase = .forwarding then f.dst + (a - f.src) else a
  | none => a

/-- The places that a write to `a` reaches: where it is forwarded, and in MIRRORING the copy too (R129). -/
def writePlaces (s : State) (a : Nat) : List Nat :=
  match s.redirOf a with
  | some f => if f.phase = .mirroring then [a, f.dst + (a - f.src)] else [s.forwarded a]
  | none => [a]

/-- A write with the mirror of MIRRORING (R129). -/
def writeMirrored (s : State) (a : Nat) (bytes : List (BitVec 8)) : State :=
  (s.writePlaces a).foldl (fun t x => t.write x bytes) s

/-- The same, with the poison of the source (R129, R132). -/
def writeCarried (s : State) (a : Nat) (bytes : List (BitVec 8)) (bad : List Bool) : State :=
  if bad.any id then (s.writePlaces a).foldl (fun t x => t.writeMixed x bytes bad) s else s.writeMirrored a bytes

/-! ### Swap slots (R314, R323, R325) -/

/-- Device physical address of slot `k` of partition `p`'s pool. -/
def slotAddr (s : State) (p k : Nat) : Nat := bits (s.obj 0x3030 p) 12 0 * 2 ^ 22 + k * 2 ^ 22

/-- Slots of partition `p` in use. -/
def slotsUsed (s : State) (p : Nat) : List Nat :=
  s.clusters.flatMap fun e => (e.2.saved.filter fun x => decide ((s.ctx x.1).partition = p)).map (·.2.slot)

/-- A slot lies in a near cover channel of cluster `c` (R121, R323). -/
def slotNear (s : State) (p c k : Nat) : Bool :=
  let n := s.slotAddr p k / 2 ^ 28
  n == c || n == 64 + c

/-- The free slot that the device takes for cluster `c`: near channels first, then the lowest. -/
def freeSlot (s : State) (p c : Nat) : Option Nat :=
  let pool := s.obj 0x3030 p
  if flag pool 63 then
    let free := (List.range (bits pool 45 32)).filter fun k => !(s.slotsUsed p).contains k
    match free.find? (s.slotNear p c) with
    | some k => some k
    | none => free.head?
  else none

/-- Free slots of partition `p` (`swap_free`, R314). -/
def swapFree (s : State) (p : Nat) : Nat :=
  let pool := s.obj 0x3030 p
  if flag pool 63 then bits pool 45 32 - (s.slotsUsed p).length else 0

/-- The saved state of context `n` on cluster `c`. -/
def savedOn (s : State) (n c : Nat) : Option Saved := AMap.get? (s.cluster c).saved n

/-- The cells in `[a, a + n)` set to zero and their poison cleared without a count: initialisation (R323, R467). -/
def zeroRange (s : State) (a n : Nat) : State :=
  { s with
    mem := s.mem.filter fun c => decide (c.1 < a) || decide (a + n ≤ c.1)
    poison := s.poison.filter fun x => decide (x * 64 < a) || decide (a + n ≤ x * 64) }

/-- The cells in `[a, a + n)` copied to `[b, b + n)`, poison carried per atom. -/
def copyRange (s : State) (a b n : Nat) : State :=
  let cells := s.mem.filter fun c => decide (a ≤ c.1) && decide (c.1 < a + n)
  let atoms := s.poison.filter fun x => decide (a ≤ x * 64) && decide (x * 64 < a + n)
  let t := s.zeroRange b n
  let t := { t with mem := cells.foldl (fun (m : AMap (BitVec 8)) (c : Nat × BitVec 8) => AMap.put 0 m (c.1 - a + b) c.2) t.mem }
  { t with poison := atoms.foldl (fun m x => insertNat (x - a / 64 + b / 64) m) t.poison }

/-! ### Host memory -/

/-- The requester function of context `n` on port `p` (R234): the owner of its partition when that lies on the port, else the
port's PF. -/
def reqFn (s : State) (n p : Nat) : Nat :=
  let ff := s.partFn (s.ctx n).partition
  if ff / 8 = p then ff % 8 else 0

/-- Writes of function `f` on port `p` reach the host: link up, Bus Master Enable set, not in D3hot (R229, R301, R403). -/
def hostUp (s : State) (p f : Nat) : Bool :=
  (s.hostPort p).link == 2 && (s.fn (8 * p + f)).bme && !(s.fn (8 * p + f)).d3hot

/-- A posted write to host memory, without Relaxed Ordering where the host has cleared it (R235). -/
def hostWrite (s : State) (p f a : Nat) (bytes : List (BitVec 8)) (ro ep : Bool) : State :=
  s.send (.hostWrite p f a bytes (ro && (s.fn (8 * p + f)).relaxed) ep)

/-- The most bytes of one posted write of function `ff`: its negotiated Max_Payload_Size, at most 512 (R234). -/
def tlpMax (s : State) (ff : Nat) : Nat := max 1 (min (s.fn ff).mps 512)

/-- A posted write split at the most bytes one carries (R234; entries of the posted word path alike, log entry 84). -/
def hostWritesN (s : State) (p f : Nat) (ro ep : Bool) : Nat → Nat → List (BitVec 8) → State
  | 0, _, _ => s
  | fuel + 1, a, bytes =>
    if bytes.isEmpty then s
    else
      let k := s.tlpMax (8 * p + f)
      hostWritesN (s.hostWrite p f a (bytes.take k) ro ep) p f ro ep fuel (a + k) (bytes.drop k)

def hostWrites (s : State) (p f a : Nat) (bytes : List (BitVec 8)) (ro ep : Bool) : State :=
  s.hostWritesN p f ro ep bytes.length a bytes

/-- The read requests of a read of host memory: each at most the smaller of Max_Read_Request_Size and 4,096 bytes (R234). -/
def askHost (s : State) (p f : Nat) : Nat → Nat → Nat → State
  | 0, _, _ => s
  | fuel + 1, a, n =>
    if n = 0 then s
    else
      let k := min n (max 1 (min (s.fn (8 * p + f)).mrrs 4096))
      askHost (s.send (.hostRead p f a k)) p f fuel (a + k) (n - k)

/-- Bytes of host memory as the host presents them to this read (log entry 6), with its requests (R234). -/
def hostRead (s : State) (p f a n : Nat) : List (BitVec 8) × State :=
  let t := s.askHost p f n a n
  ((List.range n).map fun i => Config.hostByte p (a + i) s.free, { t with free := t.free + 1 })

/-- The message of vector `v` of function `ff`: address and data of its MSI-X table entry (R398). -/
def messageOf (s : State) (ff v : Nat) : Nat × Nat := AMap.getD (s.fn ff).messages v (0, 0)

/-- An MSI-X vector of function `ff` sent, or left pending where masked; nothing while MSI-X is disabled (R283, R402). -/
def sendMsix (s : State) (ff v : Nat) : State :=
  let f := s.fn ff
  if !f.msixEn then s
  else if f.fnMask || !f.unmasked.contains v then s.setFn ff { f with msixPending := insertNat v f.msixPending }
  else if s.hostUp (ff / 8) (ff % 8) then s.send (.msix ff v (s.messageOf ff v).1 (s.messageOf ff v).2)
  else s

end State

/-- Memory in its canonical form (MEMORY of the model): addresses strictly rising, no listed byte zero. -/
def Memory.wf (m : List Host.Cell) : Bool := AMap.sorted m && AMap.noDefault 0 m

end Sys2Proof.Machine
end

