-- ==== Sys2Proof/Machine/Send.lean ====
section
/-! DEFINITION. Sending on the Sharel fabric (17_sharel_fabric.md): streams, the window of 128 frames, routes, the cutting of
writes, and read requests. Receiving is in Machine/Fabric.lean. -/

namespace Sys2Proof.Machine

/-- The identity hash (R379). -/
def identityHash : List (BitVec 8) := shake256 Config.identityPk 32

/-- The address a counter derives (R379); reserved values pass to the next counter, at most 255. -/
def deriveAddr : Nat → Nat → Nat × Nat
  | 0, c => (0, c)
  | fuel + 1, c =>
    let h := (shake256 (identityHash ++ [BitVec.ofNat 8 c]) 3).map BitVec.toNat
    let a := h.getD 0 0 * 2 ^ 12 + h.getD 1 0 * 16 + h.getD 2 0 / 16
    if a = 0 ∨ a = 0xFFFFF then deriveAddr fuel (c + 1) else (a, c)

/-- The key of a stream to or from a peer in a class. -/
def streamKey (peer cls : Nat) : Nat := peer * 4 + cls % 4

namespace State

def sendStream (s : State) (k : Nat) : SendStream := AMap.getD s.fabric.send k {}

def setSendStream (s : State) (k : Nat) (x : SendStream) : State :=
  { s with fabric := { s.fabric with send := AMap.set s.fabric.send k x } }

/-- The transport version of a peer: the higher of those both offer (R391). -/
def peerVersion (s : State) (peer : Nat) : Nat :=
  match AMap.get? s.fabric.lsas peer with
  | some l => if flag l.versions 2 then 2 else 1
  | none => 2

/-- Bits [15:0] of the peer's identity hash (R370). -/
def peerCheck (s : State) (peer : Nat) : Nat :=
  match AMap.get? s.fabric.lsas peer with
  | some l => leNat (l.hash.take 2)
  | none => 0

/-- The most payload bytes a frame to the peer carries (R369, R391). -/
def framePayload (s : State) (peer : Nat) : Nat := if s.peerVersion peer = 2 then 4096 else 2048

/-- The priority code point of a class (R372). -/
def pcpOf (s : State) (cls : Nat) : Nat := bits (s.obj 0x8011 1) (3 * (cls % 4) + 2) (3 * (cls % 4))

/-- The MAC address of a Sharel port (R368). -/
def macOf (addr port : Nat) : Nat := 0x02D7 * 2 ^ 32 + addr * 2 ^ 12 + port

/-- The next hop of a frame: one of the equal-cost ones, picked by a hash of source, destination and class (R381). -/
def hopOf (s : State) (src dst cls : Nat) : Option (Nat × Nat) :=
  match AMap.getD s.fabric.routes dst [] with
  | [] => none
  | h :: hs => (h :: hs)[Config.hopHash src dst cls % (hs.length + 1)]?

/-- The adjacency that a next hop names. -/
def adjOf (s : State) (h : Nat × Nat) : Option Adj := (s.sharelPort h.1).adjs.find? fun a => a.addr == h.2

/-- The next hop can take a frame of the class: its port is up with the adjacency, and not paused for the class (R373). -/
def hopOpen (s : State) (h : Nat × Nat) (cls : Nat) : Bool :=
  (s.sharelPort h.1).up && (s.adjOf h).isSome && !((s.sharelPort h.1).paused.contains (s.pcpOf cls))

/-- A frame leaves towards a next hop (R369, R393). -/
def emitFrame (s : State) (h : Nat × Nat) (f : Frame) : State :=
  let mac := macOf h.2 (((s.adjOf h).map (·.peerPort)).getD 0)
  (s.send (.frame h.1 mac (s.pcpOf f.cls) (s.obj 0x8012 1) f)).addObj 0x8050 h.1 1

/-- The number of frames delivered of the reverse stream (R375). -/
def ackFor (s : State) (k : Nat) : Nat :=
  match AMap.get? s.fabric.recv k with
  | some r => r.expect
  | none => 0

/-- A stream for which its sender has no state yet: the frame that opens it has not left (R374). -/
def unopened (x : SendStream) : Bool :=
  x.high == 0 && (match x.unacked.head? with
    | some f => f.1.opens
    | none => !x.opened)

/-- One more of the 4,096 send streams is free (R374). -/
def sendRoom (s : State) : Bool := decide ((s.fabric.send.filter fun e => !unopened e.2).length < 4096)

/-- Lets queued frames of a stream leave, at most `fuel` of them: the address is held, the peer has a route, the port is
open, fewer than 128 frames are unacknowledged, and a new stream finds room (R374, R375, R379, R381). -/
def pumpN (s : State) (peer cls : Nat) : Nat → State
  | 0 => s
  | fuel + 1 =>
    let k := streamKey peer cls
    let x := s.sendStream k
    match x.unacked[x.sent]?, s.hopOf s.fabric.addr peer cls with
    | some (f, _), some hop =>
      if s.fabric.held && s.hopOpen hop cls && decide (x.sent < 128) && (!unopened x || s.sendRoom) then
        let f := { f with ack := s.ackFor k }
        let s := s.setSendStream k { x with sent := x.sent + 1, high := max x.high (x.sent + 1) }
        let s : State := match AMap.get? s.fabric.recv k with
          | some r => { s with fabric := { s.fabric with recv := AMap.set s.fabric.recv k { r with sinceAck := 0 } } }
          | none => s
        pumpN (s.emitFrame hop f) peer cls fuel
      else s
    | _, _ => s

def pump (s : State) (peer cls : Nat) : State := s.pumpN peer cls 128

/-- Streams whose frames can leave now are served. -/
def pumpAll (s : State) : State := s.fabric.send.foldl (fun t e => t.pump (e.1 / 4) (e.1 % 4)) s

/-- A send stream closed; where the streams were all taken, those that waited are served (R374). -/
def closeSend (s : State) (k : Nat) : State :=
  let t := { s with fabric := { s.fabric with send := AMap.erase s.fabric.send k } }
  if s.sendRoom then t else t.pumpAll

/-- A frame queued on its stream with the next sequence; the first frame of a stream without state opens it at a sequence
the spec does not give (R374). -/
def queueFrame (s : State) (peer cls : Nat) (owner : Option Payer) (f : Frame) : State :=
  let k := streamKey peer cls
  let x := s.sendStream k
  let (x, s) := if x.opened then (x, s) else
    let (v, s) := s.draw
    ({ x with next := v % 2 ^ 32 }, s)
  let f := { f with
    version := s.peerVersion peer, cls := cls, opens := !x.opened, hops := s.obj 0x8021 1, dst := peer,
    src := s.fabric.addr, dstCheck := s.peerCheck peer, seq := x.next }
  let s := s.setSendStream k
    { x with next := (x.next + 1) % 2 ^ 32, opened := true, unacked := x.unacked ++ [(f, owner)] }
  s.pump peer cls

end State

/-- A frame of a type with everything the stream fills in left zero. -/
def blankFrame (type : Nat) : Frame :=
  { version := 2, type := type, cls := 0, last := true, opens := false, hops := 0, dst := 0, src := 0, dstCheck := 0,
    seq := 0, ack := 0, tag := 0, poison := 0, offset := 0, status := 0, sigMode := 0, fence := 0, payload := [] }

namespace State

/-- A write to a peer's window cut into WRITE frames at 4 KiB boundaries of the window and at the largest payload (R386,
R391), with the poison bit of each destination atom (R387). `bad` lists the poisoned byte positions. -/
def queueWriteN (s : State) (peer cls : Nat) (owner : Option Payer) : Nat → Nat → List (BitVec 8) → List Bool → State
  | 0, _, _, _ => s
  | fuel + 1, off, bytes, bad =>
    if bytes.isEmpty then s else
    let n := min (min bytes.length (4096 - off % 4096)) (s.framePayload peer)
    let marks := (List.range (min n 4096)).foldl (fun m i =>
      if bad.getD i false then m ||| 2 ^ ((off + i) / 64 - off / 64) else m) 0
    let s := s.queueFrame peer cls owner { blankFrame 0 with
      offset := off % 2 ^ 32, payload := bytes.take n, poison := marks, last := bytes.length == n }
    queueWriteN s peer cls owner fuel (off + n) (bytes.drop n) (bad.drop n)

def queueWrite (s : State) (peer cls : Nat) (owner : Option Payer) (off : Nat) (bytes : List (BitVec 8))
    (bad : List Bool) : State :=
  s.queueWriteN peer cls owner (bytes.length / 2048 + 2) off bytes bad

/-- A read request to a peer, and the record of who waits for its reply (R386). -/
def requestRead (s : State) (who : Who) (owner : Option Payer) (cls peer off va len : Nat) : State :=
  let tag := s.fabric.nextTag
  let s := { s with fabric := { s.fabric with
    nextTag := (tag + 1) % 2 ^ 32
    reads := s.fabric.reads ++ [({ tag := tag, who := who, peer := peer, cls := cls, va := va, len := len } : RemoteRead)] } }
  s.queueFrame peer cls owner { blankFrame 1 with tag := tag, offset := off % 2 ^ 32, payload := leBytes 4 len }

/-- Writes of an op that have not been acknowledged: frames to peers, and entries of the posted word path (R232, R259). -/
def unackedOf (s : State) (o : OpRef) : Bool :=
  (s.fabric.send.any fun e => e.2.unacked.any fun f => f.2.any fun p => p.o == o) || s.path.any fun e => e.o == o

/-- The unsent frames of a context dropped, and the later unsent ones of its streams numbered anew (R392). -/
def dropUnsent (s : State) (n : Nat) : State :=
  { s with fabric := { s.fabric with send := s.fabric.send.map fun (e : Nat × SendStream) =>
      let x := e.2
      let keep := (x.unacked.drop x.high).filter fun f => !(f.2.any fun p => p.o.ctx == n)
      if keep.length = x.unacked.length - x.high then e
      else
        let base := (x.next + 2 ^ 32 - (x.unacked.length - x.high)) % 2 ^ 32
        let opens := x.unacked.length ≠ 0 && x.high == 0 && ((x.unacked.head?).any fun f => f.1.opens)
        (e.1, { x with
          next := (base + keep.length) % 2 ^ 32
          unacked := x.unacked.take x.high ++ keep.mapIdx fun i f =>
            ({ f.1 with seq := (base + i) % 2 ^ 32, opens := opens && i == 0 }, f.2)
          opened := x.opened && (!opens || !keep.isEmpty) }) } }

end State

end Sys2Proof.Machine
end

