-- ==== Sys2Proof/Machine/Translate.lean ====
section
/-! DEFINITION. Virtual addressing (09_translation_and_swarms.md): space tags, buffers, the page walk, the checks of a leaf,
faults and swarms, and the accesses that every unit makes through them. -/

namespace Sys2Proof.Machine

/-! ### Completion statuses (R295) -/

namespace Status
def ok : Nat := 0x0000
def okReplayed : Nat := 0x0001
def partly : Nat := 0x0002
def faultTranslation : Nat := 0x0010
def faultPermission : Nat := 0x0011
def poisonConsumed : Nat := 0x0020
def overlapRejected : Nat := 0x0030
def descriptorInvalid : Nat := 0x0031
def versionUnsupported : Nat := 0x0032
def contextTornDown : Nat := 0x0041
def fenceTimeout : Nat := 0x0050
def fabricUnreachable : Nat := 0x0060
def fabricPeerFault : Nat := 0x0061
def silentError : Nat := 0x0070
def hostWriteFailed : Nat := 0x0080
def internal : Nat := 0x00F0

/-- A failure status: neither OK, OK_REPLAYED nor PARTIAL (R260). -/
def failed (c : Nat) : Bool := decide (2 < c)
end Status

/-! ### Page-table entries (R198) -/

namespace Pte
def valid (e : Nat) : Bool := flag e 0
def writable (e : Nat) : Bool := flag e 1
def exec (e : Nat) : Bool := flag e 2
def leaf (e : Nat) : Bool := flag e 3
def target (e : Nat) : Nat := bits e 6 4
def replica (e : Nat) : Bool := flag e 7
def pin (e : Nat) : Bool := flag e 8
def run (e : Nat) : Nat := bits e 11 9
def frame (e : Nat) : Nat := bits e 51 12 * 4096
def homeWr (e : Nat) : Bool := flag e 52
def noFabric (e : Nat) : Bool := flag e 62
def poison (e : Nat) : Bool := flag e 63
end Pte

/-- 4 KiB pages that one entry of a level maps (R196). -/
def levelPages : Nat → Nat
  | 0 => 1
  | 1 => 512
  | 2 => 262144
  | _ => 134217728

/-- The index of `va` in a table of a level (R196). -/
def levelIndex (va level : Nat) : Nat :=
  if level = 3 then bits va 51 39 else bits va (20 + 9 * level) (12 + 9 * level)

namespace State

/-! ### Regions the checks read -/

/-- A valid entry of `cover_private` covers cover address `a` (R118): its partition. -/
def privateOf (s : State) (a : Nat) : Option Nat :=
  (((List.range 64).map fun n => s.obj 0x4030 n).find? fun v =>
    flag v 63 && decide (bits v 18 0 * 65536 ≤ a) && decide (a < (bits v 18 0 + bits v 38 19) * 65536)).map fun v => bits v 62 60

/-- First address and bytes of Hive replica `c` (R168). -/
def hiveRange (s : State) (c : Nat) : Nat × Nat :=
  let n := 64 * (c % 2) + c
  let len := s.obj 0x6110 2 * 2 ^ 20
  ((if n = 127 then coverTop else (n + 1) * 2 ^ 28) - len, len)

/-- `a` lies in a valid graph store, which software has no access to (R270). -/
def inGraphStore (s : State) (a : Nat) : Bool :=
  (List.range 8).any fun p =>
    let v := s.obj 0x3040 p
    flag v 63 && decide (bits v 18 0 * 65536 ≤ a) && decide (a < (bits v 18 0 + bits v 38 19) * 65536)

/-- `a` lies in a Hive replica range while `hive_limit` is non-zero (R168). -/
def inHive (s : State) (a : Nat) : Bool :=
  decide (s.obj 0x6110 2 ≠ 0) && (List.range 64).any fun c =>
    decide ((s.hiveRange c).1 ≤ a) && decide (a < (s.hiveRange c).1 + (s.hiveRange c).2)

/-! ### Space tags (R208 to R211) -/

/-- The tag bound to a root and not being evicted. -/
def tagOf (s : State) (root : Nat) : Option Nat :=
  (List.range 32).find? fun t =>
    match s.trans.tags[t]? with
    | some x => x.root == some root && !x.evicting
    | none => false

/-- Context `n` has an op dispatched and not ended, or a requester stalled on a fault (R208). -/
def ctxBusy (s : State) (n : Nat) : Bool :=
  ((s.ctx n).entries.any fun e =>
    match e.quire with
    | some q => q.ops.any fun o => o.phase == .dispatched || o.phase == .settled
    | none => false) ||
  s.trans.stalls.any fun x => x.req.ctx == n

/-- Some context of the root is busy (R208). -/
def rootBusy (s : State) (root : Nat) : Bool :=
  s.ctxs.any fun e => decide (e.2.phase ≠ .closed) && decide (e.2.root = root) && s.ctxBusy e.1

def tag (s : State) (t : Nat) : Tag := s.trans.tags.getD t {}

def setTag (s : State) (t : Nat) (x : Tag) : State :=
  { s with trans := { s.trans with tags := s.trans.tags.set t x } }

/-- The state of a tag as `tag_state` reads it (R209). -/
def tagState (s : State) (t : Nat) : Nat :=
  let x := s.tag t
  if x.evicting then 3
  else
    match x.root with
    | none => 0
    | some r => if s.rootBusy r then 2 else 1

/-- Every buffer entry that meets a condition removed (R210, R213). -/
def dropEntries (s : State) (p : TEnt → Bool) : State :=
  { s with trans := { s.trans with
    clusterBuf := s.trans.clusterBuf.map fun e => (e.1, e.2.filter fun x => !p x)
    centralBuf := s.trans.centralBuf.filter fun x => !p x } }

/-- The idle, unpinned tag that left the busy state longest ago (R210). -/
def victim (s : State) : Option Nat :=
  let cands := (List.range 32).filter fun t => s.tagState t == 1 && !(s.tag t).pinned
  cands.foldl (fun b t =>
    match b with
    | none => some t
    | some u => if (s.tag t).left < (s.tag u).left then some t else b) none

/-- An eviction begins: the entries go, and the tag is rebound when it ends (R210). It is one of the drained invalidations in
progress (R214). -/
def beginEviction (s : State) (t root : Nat) (pinned : Bool) : State :=
  let s := s.dropEntries (fun e => e.tag == t)
  let s : State := { s with trans := { s.trans with drains := s.trans.drains ++ [.tag t] } }
  let s := s.setTag t { s.tag t with evicting := true, nextRoot := root, nextPinned := pinned }
  s.addObj 0x3103 1 1

/-- Asks for a tag for a root: bound, or a free one taken, or an eviction begun, or a wait (R210), also while eight drained
invalidations are in progress (R214). The Bool says whether the tag is bound now. -/
def needTag (s : State) (root : Nat) (pinned : Bool) : State × Bool :=
  match s.tagOf root with
  | some t =>
    (if pinned then s.setTag t { s.tag t with pinned := true } else s, true)
  | none =>
    if s.trans.tags.any fun x => x.evicting && x.nextRoot == root then (s, false)
    else
      match (List.range 32).find? fun t => (s.tag t).root == none && !(s.tag t).evicting with
      | some t => (s.setTag t { root := some root, pinned := pinned, left := s.trans.tick }, true)
      | none =>
        match s.victim with
        | some t => if 8 ≤ s.trans.drains.length then (s, false) else (s.beginEviction t root pinned, false)
        | none => (s, false)

/-- A context's request for its root's tag; a wait that finds no idle tag counts once (R210). -/
def acquireTag (s : State) (n : Nat) : State × Bool :=
  let root := (s.ctx n).root
  let (t, got) := s.needTag root false
  let waits := !got && !(t.trans.tags.any fun x => x.evicting && x.nextRoot == root) && t.victim.isNone
  let known := t.trans.tagWaiters.contains n
  if got then ({ t with trans := { t.trans with tagWaiters := t.trans.tagWaiters.filter (· != n) } }, true)
  else if waits && !known then
    (({ t with trans := { t.trans with tagWaiters := t.trans.tagWaiters ++ [n] } }).addObj 0x3103 2 1, false)
  else (t, false)

/-- `pin_space` entry `nn` is valid and its root not yet bound to a pinned tag (`pin_pending`, R211). -/
def pinPending (s : State) (nn : Nat) : Bool :=
  let v := s.obj 0x3104 nn
  flag v 0 &&
    match s.tagOf (bits v 51 16 * 65536) with
    | some t => !(s.tag t).pinned
    | none => true

/-- Binds the pending pinned roots that can be bound, in ascending order (R211). -/
def bindPins (s : State) : State :=
  (List.range 8).foldl (fun t nn =>
    if t.pinPending nn then (t.needTag (bits (t.obj 0x3104 nn) 51 16 * 65536) true).1 else t) s

/-- A context's work on a root ended: the tag is marked as having left the busy state (R210). -/
def leftBusy (s : State) (root : Nat) : State :=
  let s := { s with trans := { s.trans with tick := s.trans.tick + 1 } }
  match s.tagOf root with
  | some t => s.setTag t { s.tag t with left := s.trans.tick }
  | none => s

/-- A context's work on a root ended: its tag left the busy state, and pending pins are bound (R210, R211). -/
def touchTag (s : State) (root : Nat) : State := (s.leftBusy root).bindPins

/-! ### Buffers (R203, R205) -/

/-- The buffer of a requester: a cluster's, or the central one. -/
def buffer (s : State) : Option Nat → List TEnt
  | some c => AMap.getD s.trans.clusterBuf c []
  | none => s.trans.centralBuf

def setBuffer (s : State) (b : Option Nat) (l : List TEnt) : State :=
  match b with
  | some c => { s with trans := { s.trans with clusterBuf := AMap.put [] s.trans.clusterBuf c l } }
  | none => { s with trans := { s.trans with centralBuf := l } }

/-- The entry maps a page under a tag. -/
def covers (t page : Nat) (e : TEnt) : Bool :=
  e.tag == t && decide (e.page ≤ page) && decide (page < e.page + e.pages)

/-- The list without its last unpinned entry: least recently used first (R203). -/
def dropLRU (l : List TEnt) : List TEnt :=
  let rec go : List TEnt → List TEnt
    | [] => []
    | e :: es => if e.pinned then e :: go es else es
  (go l.reverse).reverse

/-- An entry put at the front of a buffer, which is kept within its size; a pinned entry beyond the pinned places takes an
ordinary one and counts (R203, R205). -/
def fill (s : State) (b : Option Nat) (e : TEnt) : State :=
  let (cap, pins) : Nat × Nat := if b.isSome then (128, 32) else (8192, 1024)
  let l := s.buffer b
  let excess := e.pinned && decide (pins ≤ (l.filter (·.pinned)).length)
  let s := if excess then s.addObj 0x3105 1 1 else s
  let l := { e with pinned := e.pinned && !excess } :: l
  s.setBuffer b (if cap < l.length then dropLRU l else l)

/-- A hit moves its entry to the front. -/
def lookup (s : State) (b : Option Nat) (t page : Nat) : Option (TEnt × State) :=
  let l := s.buffer b
  (l.find? (covers t page)).map fun e => (e, s.setBuffer b (e :: l.erase e))

end State

/-! ### The walk (R196, R197) -/

/-- How a walk ends. -/
inductive WalkEnd where
  | leaf (e level addr : Nat)
  | notValid (level : Nat)
  | invalid (level : Nat)
  | poison (addr : Nat)
  /-- A table's memory is still starting: the read is held (R466). -/
  | held
deriving DecidableEq, Repr

namespace State

/-- A non-leaf entry: target 0, a frame in the bulk tier or in cover outside the device area, all else zero (R197). -/
def tableOk (e : Nat) : Bool :=
  e == Pte.frame e + 1 &&
    match placeOf (Pte.frame e) with
    | .cover _ => true
    | .bulk _ => true
    | _ => false

/-- The rules of a leaf that make it an invalid PTE (R7, R113, R117, R197, R198). `a` is the frame address of the page
accessed. A poison leaf's frame is not looked at (R200). -/
def leafOk (s : State) (e level a : Nat) : Bool :=
  Pte.leaf e && bits e 61 53 == 0 && decide (Pte.run e ≤ 4) && decide (Pte.target e ≤ 4) &&
  (!Pte.homeWr e || Pte.replica e) &&
  (!Pte.replica e || (Pte.target e == 0 && !Pte.writable e)) &&
  (Pte.poison e || (
    (level != 2 || bits e 29 12 == 0) && (level != 1 || bits e 20 12 == 0) &&
    match Pte.target e, placeOf a with
    | 0, .far => false
    | 0, .bulk _ => !Pte.replica e
    | 0, .cover _ => !Pte.replica e || (s.privateOf a).isNone
    | 3, .cover _ => false
    | 3, .bulk _ => false
    | 3, .store _ _ => false
    | 3, .far => !Pte.replica e
    | _, _ => true))

/-- The frame address that a leaf of a level gives for `va` (R196, R199). -/
def leafFrame (e level va : Nat) : Nat := Pte.frame e + (va / 4096 % levelPages level) * 4096

/-- Walks from a table at a level down. -/
def walkFrom (s : State) (va : Nat) : Nat → Nat → WalkEnd
  | 0, table =>
    let addr := table + 8 * levelIndex va 0
    if s.tierStarting addr then .held
    else if s.poisonedAt addr then .poison addr
    else
      let e := s.readNat addr 8
      if !Pte.valid e then .notValid 0
      else if s.leafOk e 0 (leafFrame e 0 va) then .leaf e 0 addr
      else .invalid 0
  | level + 1, table =>
    let addr := table + 8 * levelIndex va (level + 1)
    if s.tierStarting addr then .held
    else if s.poisonedAt addr then .poison addr
    else
      let e := s.readNat addr 8
      if !Pte.valid e then .notValid (level + 1)
      else if Pte.leaf e then
        if level + 1 = 3 then .invalid 3
        else if s.leafOk e (level + 1) (leafFrame e (level + 1) va) then .leaf e (level + 1) addr
        else .invalid (level + 1)
      else if tableOk e then walkFrom s va level (Pte.frame e)
      else .invalid (level + 1)

/-- The walk of `va` in the space of a root. -/
def walk (s : State) (root va : Nat) : WalkEnd := s.walkFrom va 3 root

end State

/-- The buffer entry a leaf makes: the whole of its run (R202). -/
def entryOf (t va level e : Nat) (pinned : Bool) : TEnt :=
  let n := levelPages level * 2 ^ Pte.run e
  let page := va / 4096 - va / 4096 % n
  { tag := t, page := page, pages := n,
    leaf := setBits e 51 12 (State.leafFrame e level va / 4096 + 2 ^ 40 - (va / 4096 - page)), pinned := pinned }

/-- The level of the leaf that made a buffer entry: what it maps tells it (R196, R202). -/
def entryLevel (e : TEnt) : Nat := if e.pages < 512 then 0 else if e.pages < 262144 then 1 else 2

/-- The frame address that a buffer entry gives for `va`. -/
def entryFrame (e : TEnt) (va : Nat) : Nat := (Pte.frame e.leaf + (va / 4096 - e.page) * 4096) % 2 ^ 52

/-! ### Accesses -/

/-- Why a step's access does not go through: a stalling fault, a hold (a stalled requester, a held controller, a tag or a
remote reply still awaited), a pause that keeps what the step has done, a fabric read to be sent, or a failure with a status
and the result word bits it gives. -/
inductive Stop where
  | stall (r : Req) (va level cause : Nat) (acc : AccKind) (status : Nat)
  | hold
  | pause
  | remote (r : Req) (peer off va len : Nat)
  | fail (status code : Nat)
deriving DecidableEq, Repr

/-- A computation over the state that accesses memory. -/
abbrev M := EStateM Stop State

/-- A failure with a status. -/
def failWith (status : Nat) {α : Type} : M α := throw (.fail status 0)

/-- Where one page of an access goes. -/
inductive Xlat where
  | device (a : Nat)
  | host (port a : Nat)
  | peer (addr off : Nat)
  | poison
deriving DecidableEq, Repr

namespace State

/-- The port whose swarms take the faults of partition `p` (R215); an attached context's port is that of its owner. -/
def faultPort (s : State) (r : Req) : Nat :=
  match s.ctx r.ctx with
  | c => if c.attached then c.port else s.partFn r.part / 8

def swarmPort (s : State) (p : Nat) : SwarmPort := AMap.getD s.trans.ports p {}

def setSwarmPort (s : State) (p : Nat) (x : SwarmPort) : State :=
  { s with trans := { s.trans with ports := AMap.put {} s.trans.ports p x } }

/-- `enable` of a port's fault ring (R218). -/
def ringEnabled (s : State) (p : Nat) : Bool := flag (s.obj 0x4200 p) 0

/-- The swarm entry of a fault (R217). -/
def swarmEntry (s : State) (r : Req) (va level cause : Nat) (acc : AccKind) : SwarmEntry :=
  { cls := r.cls, level := level, access := acc, cause := cause, reqKind := r.kind, reqId := r.id, ctx := r.ctx,
    tag := (s.tagOf r.root).getD 0, va := va }

/-- Same tag, 4 KiB page and kind of access: the faults that share an entry (R215). -/
def sameFault (a b : SwarmEntry) : Bool := a.tag == b.tag && a.va / 4096 == b.va / 4096 && a.access == b.access

/-- The bytes of a swarm record and its write to the ring (R216 to R218). -/
def accCode : AccKind → Nat
  | .read => 0
  | .write => 1
  | .fetch => 2

def swarmEntryBits (e : SwarmEntry) : Nat :=
  e.va % 2 ^ 52 + e.tag % 32 * 2 ^ 52 + e.ctx % 1024 * 2 ^ 57 + e.reqId % 256 * 2 ^ 67 + e.reqKind * 2 ^ 75 +
    e.cause * 2 ^ 78 + accCode e.access * 2 ^ 82 + e.level * 2 ^ 84 + e.cls * 2 ^ 86

def swarmHeader (w : Swarm) (waited : Nat) : Nat :=
  w.entries.length + 1 * 2 ^ 16 + w.close * 2 ^ 29 + (1 - w.seq / 4096 % 2) * 2 ^ 31 + w.seq * 2 ^ 32 + waited * 2 ^ 64

/-- The ring has a place, the link is up and the PF has Bus Master Enable set (R220). -/
def canPost (s : State) (p : Nat) : Bool :=
  let v := s.obj 0x4200 p
  flag v 0 && decide ((bits v 95 64 + 2 ^ 32 - bits v 127 96) % 2 ^ 32 < 4096) && s.hostUp p 0

/-- The partitions concerned by a swarm: those of its entries' contexts (R298). DEDUCED, log entry 21. -/
def swarmParts (s : State) (w : Swarm) : Nat := w.entries.foldl (fun m e => m ||| 2 ^ (s.ctx e.ctx).partition) 0

/-- Posts a swarm: entries with Relaxed Ordering, then the header without it, then `posted` (R218). -/
def postSwarm (s : State) (p : Nat) (w : Swarm) (waited : Nat) : State :=
  let v := s.obj 0x4200 p
  let base := bits v 63 12 * 4096 + w.seq % 4096 * 576
  let empty := bits v 95 64 == bits v 127 96
  let s := s.hostWrite p 0 (base + 64) (w.entries.flatMap fun e => leBytes 16 (swarmEntryBits e)) true false
  let s := s.hostWrite p 0 base (leBytes 64 (swarmHeader w waited)) false false
  let s := s.setObj 0x4200 p (setBits v 95 64 (bits v 95 64 + 1))
  let x := s.swarmPort p
  let s := s.setSwarmPort p { x with posted := x.posted ++ [w] }
  if empty then s.raise 3 0 (s.swarmParts w) 0x4200 p 0 else s

/-- Closes the open swarm with a reason, posting it at once when its record can be written; otherwise it waits, and the
wait counts and is reported (R215, R218, R220). Only one closed swarm may wait. -/
def closeSwarm (s : State) (p close : Nat) : State :=
  let x := s.swarmPort p
  if x.opened.isEmpty || !x.closed.isEmpty then s
  else
    let w : Swarm := ⟨x.nextSeq, close, x.opened⟩
    let s := s.setSwarmPort p { x with opened := [], nextSeq := (x.nextSeq + 1) % 2 ^ 32 }
    if s.canPost p then s.postSwarm p w 0
    else
      let s := s.setSwarmPort p { s.swarmPort p with closed := [w], waited := true }
      s.countRaise 3 1 (s.swarmParts w) 0x4202 p 0

/-- A fault taken at once: entered in the open swarm when there is room, which closes it at 32, otherwise counted; with the ring
disabled it is counted (R215, R221). -/
def reportAtOnce (s : State) (r : Req) (va level cause : Nat) (acc : AccKind) : State :=
  let p := s.faultPort r
  let x := s.swarmPort p
  let e := s.swarmEntry r va level cause acc
  if !s.ringEnabled p then s.addObj 0x4203 p 1
  else if x.opened.any (sameFault e) then s
  else if x.opened.length < 32 then
    let s := s.setSwarmPort p { x with opened := x.opened ++ [e] }
    if x.opened.length = 31 then s.closeSwarm p 0 else s
  else s.addObj 0x4203 p 1

/-- A stalling fault of a requester: it joins an entry of the open swarm of its port, or adds one, closing the swarm at 32;
with the open swarm full it stalls without an entry (R215, R220). -/
def addStall (s : State) (r : Req) (va level cause : Nat) (acc : AccKind) (status : Nat) : State :=
  let p := s.faultPort r
  let x := s.swarmPort p
  let e := s.swarmEntry r va level cause acc
  let stall := fun (q : Option Nat) => ({ req := r, va := va, access := acc, status := status, port := p, seq := q } : Stall)
  let push := fun (t : State) (q : Option Nat) => { t with trans := { t.trans with stalls := t.trans.stalls ++ [stall q] } }
  if x.opened.any (sameFault e) then push s (some x.nextSeq)
  else if x.opened.length < 32 then
    let s := push (s.setSwarmPort p { x with opened := x.opened ++ [e] }) (some x.nextSeq)
    if x.opened.length = 31 then s.closeSwarm p 0 else s
  else push s none

/-- The address of the byte of a cluster store that a context reaches at device address `a`: the store itself, or its image
in the context's swap slot where the context is not resident (R325). None where a read finds no slot: it returns zeros. -/
def regionAddr (s : State) (r : Req) (a : Nat) : Option Nat :=
  match placeOf a with
  | .store c o =>
    let x := s.ctx r.ctx
    if (x.cls = 0 && s.clusterReserved c) || decide (s.wsBytes r.part ≤ o) || (s.cluster c).resident == some r.ctx || r.fabric then some a
    else (s.savedOn r.ctx c).map fun v => s.slotAddr r.part v.slot + o
  | _ => some a

/-- The check rows of R201 that give an immediate FAULT_PERMISSION for a device frame (R90, R112, R113, R117, R118, R168,
R319, R325, R354). -/
def framePermitted (s : State) (r : Req) (e a : Nat) (acc : AccKind) : Bool :=
  match placeOf a with
  | .reserved => false
  | .coverDevice => false
  | .storeDevice _ _ => false
  | .far => true
  | .bulk _ => true
  | .cover _ =>
    !s.inHive a && !s.inGraphStore a &&
      (acc != .write || Pte.replica e ||
        match s.privateOf a with
        | some p => p == r.part
        | none => false)
  | .store c _ =>
    s.clusterPart c == r.part && s.obj 0x5003 c != 3 &&
      (!s.clusterReserved c || ((s.ctx r.ctx).cls == 0 && flag (s.ctx r.ctx).c0 c) || r.fabric)

end State

/-- The kind of a failing check of a leaf that the walker accepted: none, a replica write fault, or an immediate fault. -/
inductive LeafCheck where
  | pass
  | replicaWrite
  | denied
deriving DecidableEq, Repr

namespace State

/-- The rows of R201 after the invalid-PTE row, in order, for an access at frame address `a` (R200 for poison leaves). -/
def checkLeaf (s : State) (r : Req) (e a : Nat) (acc : AccKind) : LeafCheck :=
  if acc = .write && Pte.replica e then .replicaWrite
  else if acc = .write && !Pte.writable e then .denied
  else if acc = .fetch && !Pte.exec e then .denied
  else if !Pte.poison e && decide (Pte.target e = 0 ∨ Pte.target e = 3) && !s.framePermitted r e a acc then .denied
  else if !flag r.targets (Pte.target e) then .denied
  else if r.fabric && Pte.noFabric e then .denied
  else .pass

end State

/-- A stalling fault met by a requester: it stalls, or fails at once in class 0, with the ring disabled, or where the
requester never stalls (R201, R221, R308, R385). -/
def fault (r : Req) (va level cause : Nat) (acc : AccKind) (status : Nat) {α : Type} : M α := do
  let s ← get
  if !r.mayStall then throw (.fail status 0)
  else if r.cls = 0 || !s.ringEnabled (s.faultPort r) then
    set (s.reportAtOnce r va level cause acc)
    throw (.fail status 0)
  else throw (.stall r va level cause acc status)

/-- The leaf that translates `va`, and which buffers are to take it once it has passed its checks (R197, R201 to R205): none after a
hit, the cluster's after a hit in the central one, both after a walk. -/
def findLeaf (r : Req) (va : Nat) (acc : AccKind) : M (TEnt × Bool × Bool) := do
  let s ← get
  match s.tagOf r.root with
  | none => throw .hold
  | some t =>
    let page := va / 4096
    let hit := match r.cluster with
      | some c => s.lookup (some c) t page
      | none => none
    match hit with
    | some (e, s') => set s'; return (e, false, false)
    | none =>
      match s.lookup none t page with
      | some (e, s') => set s'; return (e, r.cluster.isSome, false)
      | none =>
        match s.walk r.root va with
        | .held => throw .hold
        | .poison a =>
          set (s.countRaise 3 2 0xFF 0x3107 1 a)
          throw (.fail Status.poisonConsumed 0)
        | .notValid l => fault r va l 1 acc Status.faultTranslation
        | .invalid l => fault r va l 2 acc Status.faultTranslation
        | .leaf e l _ => return (entryOf t va l e (Pte.pin e && (s.tag t).pinned), r.cluster.isSome, true)

/-- The buffers take a translation that has passed its checks (R203); each finds for itself whether the entry is pinned (R205). -/
def fillBuffers (r : Req) (x : TEnt × Bool × Bool) : M Unit :=
  modify fun s =>
    let e := { x.1 with pinned := Pte.pin x.1.leaf && (s.tag x.1.tag).pinned }
    let s := if x.2.2 then s.fill none e else s
    if x.2.1 then s.fill r.cluster e else s

namespace State

/-! ### Folios (R125, R127, R136, R137, R198) -/

/-- The buffer entries of a space that map a byte of `[va, va + n)` removed. -/
def dropRange (s : State) (root va n : Nat) : State :=
  match s.tagOf root with
  | none => s
  | some t => s.dropEntries fun e => e.tag == t && decide (e.page * 4096 < va + n) && decide (va < (e.page + e.pages) * 4096)

/-- The bytes that migrate with a leaf of a level: a folio under 4 KiB leaves, otherwise the whole page (R125). -/
def unitBytes (level : Nat) : Nat := if level = 0 then 65536 else levelPages level * 4096

/-- The mapping of the folio at `va`: level, address of its (first) leaf, that leaf. Under 4 KiB leaves all sixteen must map
one aligned 64 KiB frame alike (R125). -/
def folioMap (s : State) (root va : Nat) : Option (Nat × Nat × Nat) :=
  match s.walk root va with
  | .leaf e 0 a =>
    if Pte.frame e % 65536 = 0 ∧ (List.range 16).all (fun k =>
        s.readNat (a + 8 * k) 8 == setBits e 51 12 (Pte.frame e / 4096 + k) && !s.poisonedAt (a + 8 * k))
    then some (0, a, e) else none
  | .leaf e l a => some (l, a, e)
  | _ => none

/-- The leaves of a folio or page written with a first value. -/
def putLeaves (s : State) (level a e : Nat) : State :=
  if level = 0 then
    (List.range 16).foldl (fun t k => t.writeNat (a + 8 * k) 8 (setBits e 51 12 (Pte.frame e / 4096 + k))) s
  else s.writeNat a 8 e

/-- The target code of a frame of device memory (R113). -/
def targetOf (a : Nat) : Nat := if placeOf a = .far then 3 else 0

/-- A leaf with a new frame (MOVE). -/
def movedLeaf (e dst : Nat) : Nat := setBits (setBits e 51 12 (dst / 4096)) 6 4 (targetOf dst)

/-- A leaf pointed at a copy (REPLICATE, R127). -/
def copyLeaf (e dst : Nat) : Nat :=
  setBits (setBits (setBits (movedLeaf e dst) 52 52 (bit e 1)) 7 7 1) 1 1 0

/-- A leaf pointed back at its home (WITHDRAW, R127). -/
def homeLeaf (e home : Nat) : Nat :=
  setBits (setBits (setBits (movedLeaf e home) 1 1 (bit e 52)) 52 52 0) 7 7 0

/-- The home of the copy at `a` (R198). -/
def homeOf (s : State) (a : Nat) : Option Nat := (AMap.get? s.tiers.homes (a / 65536)).map (· * 65536)

/-- Back-records of a copy of `n` bytes set, or cleared. -/
def setHomes (s : State) (copy home n : Nat) : State :=
  { s with tiers := { s.tiers with homes := (List.range (n / 65536)).foldl (fun m k =>
      AMap.set m (copy / 65536 + k) (home / 65536 + k)) s.tiers.homes } }

def clearHomes (s : State) (copy n : Nat) : State :=
  { s with tiers := { s.tiers with homes := (List.range (n / 65536)).foldl (fun m k =>
      AMap.erase m (copy / 65536 + k)) s.tiers.homes } }

/-- One atom copied with its poison (R132), which the far tier is told (R416). -/
def copyAtom (s : State) (a b : Nat) : State :=
  let bytes := s.readBytes a 64
  if s.poisonedAt a then (s.readEffects a 64).writeMixed b bytes (List.replicate 64 true)
  else (s.readEffects a 64).write b bytes

/-- `n` atoms copied. -/
def copyAtoms (s : State) (a b : Nat) : Nat → State
  | 0 => s
  | n + 1 => copyAtoms (s.copyAtom a b) (a + 64) (b + 64) n

/-! ### Grants and placement records (R133, R137, R138) -/

/-- Mode of a grant (R133). -/
def grantMode (v : Nat) : Nat := bits v 107 106

/-- The grant of a space whose range holds `va`. DESIGN CHOICE (log entry 86): of two grants of one root that hold it the lower index
governs, whatever its mode; R133 does not say. -/
def grantOf (s : State) (root va : Nat) : Option Nat :=
  (List.range 64).find? fun nn =>
    let v := s.obj 0x4100 nn
    bits v 39 0 * 4096 == root && decide (bits v 81 51 * 2 ^ 21 ≤ va) && decide (va < (bits v 81 51 + bits v 105 82) * 2 ^ 21)

/-- The placement ring of a port is declared, and full. -/
def placementOn (s : State) (p : Nat) : Bool := flag (s.obj 0x4120 p) 0

def placementFull (s : State) (p : Nat) : Bool :=
  let v := s.obj 0x4120 p
  decide (4096 ≤ (bits v 95 64 + 2 ^ 32 - bits v 127 96) % 2 ^ 32) || s.tiers.placementWait.any fun w => w.1 == p

/-- A record without its sequence and phase. -/
def placementBits (grant kind target new old va cluster reads : Nat) : Nat :=
  reads % 2 ^ 32 + cluster % 256 * 2 ^ 64 + va / 65536 * 2 ^ 84 + old / 65536 * 2 ^ 120 + new / 65536 * 2 ^ 156 +
    target * 2 ^ 204 + kind * 2 ^ 207 + grant % 64 * 2 ^ 210

/-- Writes one record into a port's ring. -/
def postPlacement (s : State) (p w : Nat) : State :=
  let v := s.obj 0x4120 p
  let posted := bits v 95 64
  let seq := AMap.getD s.tiers.placementSeq p 0
  let phase := 1 - posted / 4096 % 2
  let s := s.hostWrite p 0 (bits v 63 12 * 4096 + posted % 4096 * 32)
    (leBytes 32 (w + phase * 2 ^ 223 + seq * 2 ^ 224)) false false
  let s := s.setObj 0x4120 p (setBits v 95 64 (posted + 1))
  { s with tiers := { s.tiers with placementSeq := AMap.set s.tiers.placementSeq p ((seq + 1) % 2 ^ 32) } }

/-- A change record posted, or kept until space frees (R138). Without a ring there is nowhere to post it. -/
def changeRecord (s : State) (p w : Nat) : State :=
  if !s.placementOn p then s
  else if s.placementFull p || !s.hostUp p 0 then
    { s with tiers := { s.tiers with placementWait := s.tiers.placementWait ++ [(p, w)] } }
  else s.postPlacement p w

/-- A proposal posted, or dropped and counted (R138). DESIGN CHOICE (log entry 86): so is one whose ring is not enabled or whose host
port is down, of which R138 does not speak. -/
def proposalRecord (s : State) (p w : Nat) : State :=
  if s.placementOn p && !s.placementFull p && s.hostUp p 0 then s.postPlacement p w else s.addObj 0x4123 p 1

/-- Records that waited are posted while there is space. -/
def postWaitingN (s : State) (p : Nat) : Nat → State
  | 0 => s
  | n + 1 =>
    match s.tiers.placementWait.find? fun w => w.1 == p with
    | none => s
    | some w =>
      let v := s.obj 0x4120 p
      if s.placementOn p && decide ((bits v 95 64 + 2 ^ 32 - bits v 127 96) % 2 ^ 32 < 4096) && s.hostUp p 0 then
        postWaitingN (({ s with tiers := { s.tiers with placementWait := s.tiers.placementWait.erase w } }).postPlacement p w.2) p n
      else s

def postWaiting (s : State) (p : Nat) : State := s.postWaitingN p s.tiers.placementWait.length

/-- Reads of a folio in the last epoch (R137). -/
def lastReads (s : State) (g va : Nat) : Nat := (AMap.getD s.tiers.uses (g * 2 ^ 36 + va / 65536) {}).reads

/-- The device may change the folio at `va` itself under grant `g`: in act mode, under 4 KiB leaves, no leaf pinned, no
change of it in progress, and room for its record (R125, R134, R138). -/
def mayAct (s : State) (g e level va : Nat) : Bool :=
  let v := s.obj 0x4100 g
  grantMode v == 2 && level == 0 && !Pte.pin e && s.placementOn (bit v 108) && !s.placementFull (bit v 108) &&
    !s.tiers.redirs.any fun x => decide (x.folio.va ≤ va) && decide (va < x.folio.va + x.folio.size)

/-- A delegated WITHDRAW of the copy at a folio, whole: the leaves, the drained invalidation, the record (R127, R134). -/
def withdrawFolio (s : State) (g root va a e home cluster : Nat) : State :=
  let s := s.putLeaves 0 a (homeLeaf e home)
  let s := (s.dropRange root va 65536).clearHomes (Pte.frame e) 65536
  s.changeRecord (bit (s.obj 0x4100 g) 108)
    (placementBits g 2 (targetOf home) home (Pte.frame e) va cluster (s.lastReads g va))

/-- The withdrawal that a write to a granted copy sets off (R119); none where the device may not withdraw it. -/
def withdrawForWrite (s : State) (root va : Nat) : Option State :=
  let f := va / 65536 * 65536
  match s.grantOf root va, s.folioMap root f with
  | some g, some (l, a, e) =>
    match s.homeOf (Pte.frame e) with
    | some home => if Pte.replica e && s.mayAct g e l f then some (s.withdrawFolio g root f a e home 0xFF) else none
    | none => none
  | _, _ => none

end State

/-- Where a leaf that passed its checks sends an access. -/
def xlatOf (e : TEnt) (va : Nat) : Xlat :=
  if Pte.poison e.leaf then .poison
  else
    let a := entryFrame e va
    let o := va % 4096
    match Pte.target e.leaf with
    | 1 => .host 0 (a + o)
    | 2 => .host 1 (a + o)
    | 4 => .peer (a / 2 ^ 32 % 2 ^ 20) (a % 2 ^ 32 + o)
    | _ => .device (a + o)

/-- An access may be made: inside the virtual range, not one to fail because its swarm was answered so, and its requester
neither stalled nor waiting for a walk (R195, R206, R219). -/
def admitted (r : Req) (va : Nat) : M Unit := do
  let s ← get
  if 2 ^ 52 ≤ va then throw (.fail Status.faultPermission 0)
  match s.trans.failing.find? fun x => x.1 == r.who && x.2.1 == va / 4096 with
  | some x =>
    set { s with trans := { s.trans with failing := s.trans.failing.erase x } }
    throw (.fail x.2.2 0)
  | none => pure ()
  if s.trans.stalls.any (fun x => x.req.who == r.who) || s.trans.walks.any (fun x => x.req.who == r.who) then throw .hold

/-- The checks of the leaf found for an access, and where it goes (R199 to R201). A write to a copy that lies in a grant in act
mode withdraws the copy first (R119). -/
def checked (r : Req) (va : Nat) (acc : AccKind) (x : TEnt × Bool × Bool) : M Xlat := do
  let s ← get
  let e := x.1
  match s.checkLeaf r e.leaf (entryFrame e va) acc with
  | .denied => throw (.fail Status.faultPermission 0)
  | .pass =>
    fillBuffers r x
    return xlatOf e va
  | .replicaWrite =>
    match (if r.cls = 0 then none else s.withdrawForWrite r.root va) with
    | none => fault r va (entryLevel e) 3 acc Status.faultPermission
    | some t =>
      set t
      let x ← findLeaf r va acc
      let e := x.1
      let s ← get
      match s.checkLeaf r e.leaf (entryFrame e va) acc with
      | .pass =>
        fillBuffers r x
        return xlatOf e va
      | .denied => throw (.fail Status.faultPermission 0)
      | .replicaWrite => fault r va (entryLevel e) 3 acc Status.faultPermission

/-- The translation of the page of `va` for an access (R195, R199 to R201). -/
def translate (r : Req) (va : Nat) (acc : AccKind) : M Xlat := do
  admitted r va
  checked r va acc (← findLeaf r va acc)

/-- A read of device memory at a device address: held while its unit starts (R466), forwarded with its folio (R129), from
the swap slot where R325 says so. The Bools of each result mark the bytes of poisoned atoms. -/
def readDevice (r : Req) (a n : Nat) : M (List (BitVec 8) × List Bool) := do
  let s ← get
  if s.tierStarting a then throw .hold
  match s.regionAddr r a with
  | none => return (List.replicate n 0, List.replicate n false)
  | some a =>
    let a := s.forwarded a
    let (t, lost) := (s.readEffects a n).deliver64 a n
    set t
    return (s.readBytes a n, (List.range n).map fun i => s.poisonedAt (a + i) || lost.getD i false)

/-- The device address a write reaches, taking a slot for a working region that has none (R325, R326). -/
def writePlace (r : Req) (a : Nat) : M Nat := do
  let s ← get
  if s.tierStarting a || s.heldWrite a then throw .hold
  match s.regionAddr r a with
  | some a => return a
  | none =>
    match placeOf a with
    | .store c o =>
      match s.freeSlot r.part c with
      | none =>
        set ((s.addObj 0x3032 r.part 1).raise 4 1 (2 ^ r.part) 0x3032 r.part 0)
        throw (.fail Status.internal 0x31)
      | some k =>
        let s := s.zeroRange (s.slotAddr r.part k) (s.wsBytes r.part)
        let x := s.cluster c
        set (s.setCluster c { x with saved := AMap.set x.saved r.ctx { slot := k } })
        return s.slotAddr r.part k + o
    | _ => return a

/-- A write of device memory, with the poison of its source carried atom by atom (R129, R132, R358). `bad` marks poisoned
bytes of the source. -/
def writeDevice (r : Req) (a : Nat) (bytes : List (BitVec 8)) (bad : List Bool) : M Unit := do
  let a ← writePlace r a
  modify fun s =>
    let (t, lost) := s.deliver64 a bytes.length
    t.writeCarried a bytes ((List.range bytes.length).map fun i => bad.getD i false || lost.getD i false)

/-- The memory controllers see an access of `n` bytes at `va` (R135): one read burst in 2^`sample_shift` into a granted range is
counted for its folio. A burst is an atom, and which one of 2^n is sampled is a free value (log entry 87). -/
def State.noteUse (s : State) (r : Req) (va n : Nat) (write : Bool) : State :=
  match s.grantOf r.root va with
  | none => s
  | some g =>
    let k := g * 2 ^ 36 + va / 65536
    let c := AMap.getD s.tiers.counts k {}
    if write then { s with tiers := { s.tiers with counts := AMap.put {} s.tiers.counts k { c with wrote := true } } }
    else
      let every := 2 ^ s.obj 0x4130 6
      let from_ := s.tiers.bursts + Config.samplePhase
      let b := (State.atomsOf va n).length
      let m := (from_ + b) / every - from_ / every
      let c := { c with
        reads := c.reads + m
        readers := match r.cluster with
          | some x => AMap.update 0 c.readers x (· + m)
          | none => c.readers }
      { s with tiers := { s.tiers with counts := AMap.put {} s.tiers.counts k c, bursts := s.tiers.bursts + b } }

/-- Whom the frames of a requester concern; a mailbox slot's are told apart by entry `2^40 + nn`. -/
def payerOf (s : State) (w : Who) : Option Payer :=
  match w with
  | .op o k => some ⟨o, w, k⟩
  | .row o k _ => some ⟨o, w, k⟩
  | .core n => ((s.core n).task).map fun t => ⟨t.o, w, t.index⟩
  | .engine cc e => ((s.engine cc e).bufs.head?).map fun b => ⟨b.o, w, b.k⟩
  | .mailbox nn => ((AMap.getD s.mbox nn {}).waiting).map fun x => ⟨⟨x.ctx, 2 ^ 40 + nn, 0⟩, w, nn⟩
  | _ => none

/-- The op that a requester's writes belong to. -/
def ownerOf (s : State) (w : Who) : Option OpRef := (payerOf s w).map (·.o)

/-- The data of a remote read that has been answered, taken; or the read request to be sent, or the wait for its reply
(R386). -/
def readPeer (r : Req) (peer off va n : Nat) : M (List (BitVec 8) × List Bool) := do
  let s ← get
  match s.fabric.reads.find? fun x => x.who == r.who && x.va == va && x.len == n with
  | none => throw (.remote r peer off va n)
  | some x =>
    if !x.finished then throw .hold
    else
      set { s with fabric := { s.fabric with reads := s.fabric.reads.erase x } }
      if x.status ≠ 0 then throw (.fail x.status (x.code * 65536))
      else return (x.got, x.marks)

/-- `n` poisoned bytes, whose values the spec leaves open. -/
def poisonedBytes (n : Nat) : M (List (BitVec 8) × List Bool) := do
  let (v, s) := (← get).draw
  set s
  return ((List.range n).map fun i => BitVec.ofNat 8 (v >>> (8 * i)), List.replicate n true)

/-- A read through a poison leaf delivers poisoned atoms, each counted and reported with its virtual address, there being no other (R200,
R357, R363; log entry 86). -/
def poisonLeaf (va n : Nat) : M (List (BitVec 8) × List Bool) := do
  modify fun s => (State.atomsOf va n).foldl (fun t x => t.countRaise 1 2 0xFF 0x4060 1 x) s
  poisonedBytes n

/-- A read of `n` bytes at `va` that lie in one page. -/
def readPage (r : Req) (va n : Nat) (acc : AccKind) : M (List (BitVec 8) × List Bool) := do
  match ← translate r va acc with
  | .poison => poisonLeaf va n
  | .device a =>
    modify fun s => s.noteUse r va n false
    readDevice r a n
  | .host p a =>
    let s ← get
    if s.hostUp p (s.reqFn r.ctx p) then
      let (bs, s') := s.hostRead p (s.reqFn r.ctx p) a n
      set s'
      return (bs, List.replicate n false)
    else poisonedBytes n
  | .peer p off => readPeer r p off va n

/-- A read of `n` bytes at `va`, page by page; the Bool list marks the bytes of poisoned atoms. -/
def readN (r : Req) (acc : AccKind) : Nat → Nat → Nat → M (List (BitVec 8) × List Bool)
  | 0, _, _ => return ([], [])
  | fuel + 1, va, n => do
    if n = 0 then return ([], [])
    let k := min n (4096 - va % 4096)
    let (bs, bad) ← readPage r va k acc
    let (cs, marks) ← readN r acc fuel (va + k) (n - k)
    return (bs ++ cs, bad ++ marks)

/-- A read of `n` bytes at `va`, with poison marks. -/
def readMarked (r : Req) (va n : Nat) : M (List (BitVec 8) × List Bool) := do
  if 2 ^ 52 < va + n then throw (.fail Status.faultPermission 0)
  readN r .read (n / 4096 + 2) va n

/-- A read as input: poison fails the consumer with POISON_CONSUMED (R361). -/
def readVA (r : Req) (va n : Nat) : M (List (BitVec 8)) := do
  let (bs, marks) ← readMarked r va n
  if marks.any id then throw (.fail Status.poisonConsumed 0)
  return bs

/-- A number read as input. -/
def readNum (r : Req) (va n : Nat) : M Nat := do return leNat (← readVA r va n)

/-- A code-image fetch (R201: needs `exec`). -/
def fetchVA (r : Req) (va n : Nat) : M (List (BitVec 8)) := do
  if 2 ^ 52 < va + n then throw (.fail Status.faultPermission 0)
  let (bs, marks) ← readN r .fetch (n / 4096 + 2) va n
  if marks.any id then throw (.fail Status.poisonConsumed 0)
  return bs

/-- Ports that an op wrote are remembered for its read-backs (R237). -/
def notePort (o : Option OpRef) (p a : Nat) (s : State) : State :=
  match o with
  | none => s
  | some o =>
    let c := s.ctx o.ctx
    let es := c.entries.map fun e =>
      if e.n = o.entry then
        { e with quire := e.quire.map fun q => { q with ops := q.ops.mapIdx fun i x =>
            if i = o.op && !(x.hostPorts.any fun h => h.1 == p) then { x with hostPorts := x.hostPorts ++ [(p, a)] } else x } }
      else e
    s.setCtx o.ctx { c with entries := es }

/-- A write of bytes at `va` that lie in one page. Writes to a host port that is down fail with HOST_WRITE_FAILED; poisoned
bytes to a host port are sent with EP and fail the writer (R229). -/
def writePage (r : Req) (va : Nat) (bytes : List (BitVec 8)) (bad : List Bool) (ro : Bool) : M Unit := do
  match ← translate r va .write with
  | .poison => throw (.fail Status.poisonConsumed 0)
  | .device a =>
    modify fun s => s.noteUse r va bytes.length true
    writeDevice r a bytes bad
  | .host p a =>
    let s ← get
    let f := s.reqFn r.ctx p
    if s.hostUp p f then
      let ep := bad.any id
      set (notePort (ownerOf s r.who) p a (s.hostWrites p f a bytes ro ep))
      if ep then throw (.fail Status.poisonConsumed 0)
    else throw (.fail Status.hostWriteFailed 0)
  | .peer p off =>
    let s ← get
    if s.peerVersion p = 1 && bad.any id then throw (.fail Status.poisonConsumed 0)
    set (s.queueWrite p r.cls (payerOf s r.who) off bytes bad)

/-- A write page by page. -/
def writeN (r : Req) (ro : Bool) : Nat → Nat → List (BitVec 8) → List Bool → M Unit
  | 0, _, _, _ => return ()
  | fuel + 1, va, bytes, bad => do
    if bytes.isEmpty then return ()
    let k := min bytes.length (4096 - va % 4096)
    writePage r va (bytes.take k) (bad.take k) ro
    writeN r ro fuel (va + k) (bytes.drop k) (bad.drop k)

/-- A write of bytes at `va` with poison marks and the Relaxed Ordering attribute. -/
def writeMarked (r : Req) (va : Nat) (bytes : List (BitVec 8)) (bad : List Bool) (ro : Bool) : M Unit := do
  if 2 ^ 52 < va + bytes.length then throw (.fail Status.faultPermission 0)
  writeN r ro (bytes.length / 4096 + 2) va bytes bad

/-- A write of sound bytes at `va`. -/
def writeVA (r : Req) (va : Nat) (bytes : List (BitVec 8)) : M Unit := writeMarked r va bytes [] true

/-! ### The posted word path (R232, R233) -/

/-- The part of the path that an entry is in: a host port's, the CXL port's (2) or the fabric's (3). -/
def PathTarget.lane : PathTarget → Nat
  | .host p _ => p
  | .cxl => 2
  | .peer _ => 3

namespace State

/-- The entries of a part of the path are full (R232). -/
def pathFull (s : State) (x : PathTarget) : Bool := decide (64 ≤ (s.path.filter fun e => e.target.lane == x.lane).length)

/-- A write of a class that passes the path at once must wait: its entries are full, or class-0 ones go first (R232). -/
def pathBlocked (s : State) (cls : Nat) (x : PathTarget) : Bool :=
  s.pathFull x || (cls != 0 && s.path.any fun e => e.target.lane == x.lane && e.cls == 0)

/-- A new store can be merged into an entry: adjacent bytes of one aligned 256-byte block, alike, nothing between (R233). -/
def joins (e x : PathEntry) : Bool :=
  !e.closed && e.ro && x.ro && e.target == x.target && e.o == x.o && e.index == x.index && e.addr / 256 == x.addr / 256 &&
    ((e.addr + e.bytes.length == x.addr && e.va + e.bytes.length == x.va) ||
      (x.addr + x.bytes.length == e.addr && x.va + x.bytes.length == e.va))

/-- Two adjacent stores as one entry. -/
def joined (e x : PathEntry) : PathEntry :=
  let e' := if e.addr < x.addr then { e with bytes := e.bytes ++ x.bytes }
    else { e with va := x.va, addr := x.addr, bytes := x.bytes ++ e.bytes }
  { e' with stores := e.stores + 1 }

/-- The entries with a store in them: merged into the core's last entry for that target where R233 allows, otherwise an entry of
its own. The path is given newest first. -/
def mergeStore (x : PathEntry) : List PathEntry → Option (List PathEntry)
  | [] => none
  | e :: es =>
    if e.core = x.core ∧ e.target = x.target then (if joins e x then some (joined e x :: es) else none)
    else (mergeStore x es).map (e :: ·)

/-- No later store of core `n` joins an entry that stands now (R233). -/
def closePath (s : State) (n : Nat) : State :=
  { s with path := s.path.map fun e => if e.core = n then { e with closed := true } else e }

end State

/-- A store enters the path; the source waits while the entries of its target are full (R232). -/
def enterPath (x : PathEntry) : M Unit := do
  let s ← get
  match State.mergeStore x s.path.reverse with
  | some l => set { s with path := l.reverse }
  | none =>
    if s.pathFull x.target then throw .pause
    set { s with path := s.path ++ [x] }

/-- A posted write that passes the path at once waits for its turn there. -/
def pathTurn (r : Req) (va : Nat) (acc : AccKind) : M Unit := do
  match ← translate r va acc with
  | .host p _ => if (← get).pathBlocked r.cls (.host p 0) then throw .hold
  | .peer p _ => if (← get).pathBlocked r.cls (.peer p) then throw .hold
  | .device a => if placeOf a = .far && (← get).pathBlocked r.cls .cxl then throw .hold
  | .poison => return ()

namespace State

/-- What becomes of a step whose access did not go through: a stalling fault is reported and the step's own effects are
put off until it is issued again (log entry 11); a fabric read is sent; a hold changes nothing; a pause keeps what was done; a
failure is handed on. -/
def settle (s : State) {α : Type} (x : EStateM.Result Stop State α) (ok : α → State → State)
    (bad : Nat → Nat → State → State) : State :=
  match x with
  | .ok a t => ok a t
  | .error (.fail st code) t => bad st code t
  | .error .hold _ => s
  | .error .pause t => t
  | .error (.stall r va level cause acc st) _ => s.addStall r va level cause acc st
  | .error (.remote r peer off va len) _ => s.requestRead r.who (payerOf s r.who) r.cls peer off va len

/-- Runs a computation from a state and settles it. -/
def runM (s : State) {α : Type} (m : M α) (ok : α → State → State) (bad : Nat → Nat → State → State) : State :=
  s.settle (m.run s) ok bad

end State

end Sys2Proof.Machine
end

