-- ==== Sys2Proof/Machine/Flags.lean ====
section
/-! DEFINITION. Status and flag computations: the precedence of statuses (R296), result words (R293), and the bytes of
completion records (R292, R294). -/

namespace Sys2Proof.Machine

/-- The status of a quire over its ops in index order (R296): that of its lowest-indexed failing op, else PARTIAL,
else OK_REPLAYED, else OK. Cancelled ops add nothing. -/
def quireStatus (ops : List Op) : Nat :=
  let ended := ops.filter fun o => o.phase == .done
  match ended.find? fun o => Status.failed o.status with
  | some o => o.status
  | none =>
    if ended.any fun o => o.status == Status.partly then Status.partly
    else if ended.any fun o => o.status == Status.okReplayed then Status.okReplayed
    else Status.ok

/-- The index of the lowest-indexed failing op, all ones when none (R292). -/
def firstFail (ops : List Op) : Nat :=
  (ops.findIdx? fun o => o.phase == .done && Status.failed o.status).getD 0x1FFF

/-- Ops that ended OK, OK_REPLAYED or PARTIAL (R292). -/
def opsDone (ops : List Op) : Nat := (ops.filter fun o => o.phase == .done && !Status.failed o.status).length

/-- The op whose bits [7:0] and [31:16] the result word takes: the lowest-indexed failing one, otherwise the
lowest-indexed PARTIAL one (R293). -/
def resultOp (ops : List Op) : Option Op :=
  match ops.find? fun o => o.phase == .done && Status.failed o.status with
  | some o => some o
  | none => ops.find? fun o => o.phase == .done && o.status == Status.partly

/-- The result word of a SUBMIT or LAUNCH (R293). MATMUL flags are bits [10:8], VECTOR_RUN flags bits [15:11]. -/
def resultWord (ops : List Op) : Nat :=
  let flags := ops.foldl (fun f o => f ||| o.flags) 0
  match resultOp ops with
  | some o => o.low % 256 + flags % 256 * 256 + o.high % 65536 * 65536
  | none => flags % 256 * 256

/-- The bitmaps of the ops that ended PARTIAL, joined. -/
def partlyMap (ops : List Op) : Nat :=
  ops.foldl (fun m o => if o.phase = .done ∧ o.status = Status.partly then m ||| o.partMap else m) 0

/-- The part-failure bitmap (R293): of the first failing op where it has parts, otherwise of the PARTIAL ones. -/
def partMapOf (ops : List Op) : Nat :=
  match ops.find? fun o => o.phase == .done && Status.failed o.status with
  | some o => if o.partMap = 0 then partlyMap ops else o.partMap
  | none => partlyMap ops

/-- The 32 bytes of a completion record v3 (R292). -/
def recordV3 (r : Rec) (queue ctx dev phase : Nat) (echo : Bool) : List (BitVec 8) :=
  leBytes 32 (r.seq % 2 ^ 32 + r.status * 2 ^ 32 + dev * 2 ^ 48 + phase * 2 ^ 64 + b2n echo * 2 ^ 65 + ctx * 2 ^ 66 +
    queue * 2 ^ 76 + r.opsDone * 2 ^ 86 + r.firstFail * 2 ^ 99 + r.partMap * 2 ^ 112 + r.result * 2 ^ 128 +
    r.stampStart % 2 ^ 48 * 2 ^ 160 + r.stampEnd % 2 ^ 48 * 2 ^ 208)

/-- The 16 bytes of a completion record v2 (R294). -/
def recordV2 (r : Rec) (ctx dev phase : Nat) (echo : Bool) : List (BitVec 8) :=
  leBytes 16 (phase + b2n echo * 2 + ctx * 2 ^ 12 + r.opsDone * 2 ^ 22 + r.firstFail * 2 ^ 35 + r.partMap * 2 ^ 48 +
    dev * 2 ^ 64 + r.status * 2 ^ 80 + r.seq % 2 ^ 32 * 2 ^ 96)

end Sys2Proof.Machine
end

