-- ==== Sys2Proof/Machine/Operands.lean ====
section
/-! DEFINITION. The operand forms: the fields of submission entries, quire headers, op records and the structures they name,
read from their bits. Each record is the number its 64 little-endian bytes spell. -/

namespace Sys2Proof.Machine

/-! ### Submission entry (R250) -/

namespace SubEntry
def kind (w : Nat) : Nat := bits w 7 0
def seq (w : Nat) : Nat := bits w 63 32
def graph (w : Nat) : Nat := bits w 379 368
def count (w : Nat) : Nat := bits w 395 380
def addr (w : Nat) : Nat := bits w 447 396
def fenceBase (w : Nat) : Nat := bits w 511 448

/-- Reserved fields zero, fields of other kinds zero, and the alignment of `addr` (R250, R251). -/
def ok (w : Nat) : Bool :=
  bits w 31 8 == 0 && bits w 367 64 == 0 && decide (1 ≤ kind w) && decide (kind w ≤ 5) &&
  (kind w == 4 || fenceBase w == 0) &&
  (kind w == 1 || kind w == 2 || kind w == 3 || addr w == 0) &&
  (kind w != 1 && kind w != 2 || addr w % 64 == 0) &&
  (kind w != 3 || addr w % 16 == 0) &&
  (if kind w = 3 then decide (1 ≤ count w) && decide (count w ≤ 4096) else count w == 0)
end SubEntry

/-! ### Quire header (R252) -/

namespace QuireHdr
def magic (w : Nat) : Nat := bits w 7 0
def version (w : Nat) : Nat := bits w 15 8
def overlap (w : Nat) : Bool := flag w 16
def ops (w : Nat) : Nat := bits w 47 36 + 1
def lenM1 (w : Nat) : Nat := bits w 63 50
def doneRel (w : Nat) : Bool := flag w 432
def doneAlways (w : Nat) : Bool := flag w 433
def doneMode (w : Nat) : Nat := bits w 435 434
def doneFence (w : Nat) : Nat := bits w 447 436
def doneValue (w : Nat) : Nat := bits w 511 448

/-- The second check of R253, with the fields that version 2 reserves (R276). -/
def ok (w : Nat) : Bool :=
  magic w == 0x51 && bits w 35 17 == 0 && bits w 49 48 == 0 && bits w 431 64 == 0 && doneMode w != 3 &&
  decide (1 ≤ lenM1 w) && decide (ops w ≤ lenM1 w) &&
  (version w != 2 || (decide (ops w ≤ 1024) && !overlap w && !doneRel w))
end QuireHdr

/-! ### Common header of an op record (R254) -/

namespace OpHdr
def opcode (w : Nat) : Nat := bits w 7 0
def waitRel (w : Nat) : Bool := flag w 9
def ext (w : Nat) : Nat := bits w 11 10
def strict (w : Nat) : Bool := flag w 12
def predCount (w : Nat) : Nat := bits w 50 49
def waitEn (w : Nat) : Bool := flag w 51
def waitFence (w : Nat) : Nat := bits w 63 52
def waitValue (w : Nat) : Nat := bits w 127 64

/-- Predecessor field `k`. -/
def pred (w k : Nat) : Nat := bits w (24 + 12 * k) (13 + 12 * k)

/-- The predecessors the record names. -/
def preds (w : Nat) : List Nat := (List.range (predCount w)).map (pred w)

/-- R255: reserved fields, the opcode, `ext` of ops other than INLINE_DATA, unused predecessor fields, and predecessor
indices below the op's own; `i` is the op's index and `v2` whether the quire is of version 2 (R276). -/
def ok (w i : Nat) (v2 : Bool) : Bool :=
  !flag w 8 && decide (opcode w ≤ 0x11) && (ext w == 0 || opcode w == 0x10) &&
  ((List.range 3).all fun k => decide (k < predCount w) || pred w k == 0) &&
  ((preds w).all fun p => decide (p < i)) &&
  (!v2 || (!strict w && !waitRel w))
end OpHdr

/-! ### Ops of the Spine (R257, R236, R289, R290, R310) -/

/-- Bits [511:128] of a record. -/
def opFields (w : Nat) : Nat := bits w 511 128

namespace BarrierOp
def afterFailure (w : Nat) : Bool := flag w 128
def ok (w : Nat) : Bool := bits w 511 129 == 0
end BarrierOp

namespace FenceWaitOp
def timeout (w : Nat) : Nat := bits w 399 368
def rel (w k : Nat) : Bool := flag w (205 + 80 * k)
def en (w k : Nat) : Bool := flag w (204 + 80 * k)
def fence (w k : Nat) : Nat := bits w (203 + 80 * k) (192 + 80 * k)
def value (w k : Nat) : Nat := bits w (191 + 80 * k) (128 + 80 * k)
def ok (w : Nat) : Bool :=
  bits w 511 400 == 0 && (List.range 3).all fun k => bits w (207 + 80 * k) (206 + 80 * k) == 0
end FenceWaitOp

namespace FenceSignalOp
def rel (w k : Nat) : Bool := flag w (206 + 80 * k)
def mode (w k : Nat) : Nat := bits w (205 + 80 * k) (204 + 80 * k)
def fence (w k : Nat) : Nat := bits w (203 + 80 * k) (192 + 80 * k)
def value (w k : Nat) : Nat := bits w (191 + 80 * k) (128 + 80 * k)
def ok (w : Nat) : Bool := bits w 511 448 == 0 && (List.range 4).all fun k => !flag w (207 + 80 * k)
end FenceSignalOp

namespace HostFlagOp
def value (w : Nat) : Nat := bits w 511 448
def addr (w : Nat) : Nat := bits w 447 396
def size (w : Nat) : Nat := if flag w 395 then 8 else 4
def crossPort (w : Nat) : Bool := flag w 394
def ok (w : Nat) : Bool := bits w 393 128 == 0 && addr w % size w == 0
end HostFlagOp

namespace InlineOp
def dst (w : Nat) : Nat := bits w 179 128
def len (w : Nat) : Nat := bits w 187 180
/-- The payload of the continuation records. -/
def payload (ext : List Nat) (n : Nat) : List (BitVec 8) := (ext.flatMap fun x => leBytes 64 x).take n
def ok (w : Nat) (ext : List Nat) : Bool :=
  bits w 511 188 == 0 && decide (1 ≤ len w) && decide (len w ≤ 192) && decide (OpHdr.ext w = ceilDiv (len w) 64) &&
  ((ext.flatMap fun x => leBytes 64 x).drop (len w)).all (· == 0)
end InlineOp

/-! ### Patch entries (R272) -/

namespace PatchEntry
def op (w : Nat) : Nat := bits w 43 32
def word (w : Nat) : Nat := bits w 48 44
def value (w : Nat) : Nat := bits w 127 64
def ok (w : Nat) : Bool := bits w 31 0 == 0 && bits w 63 49 == 0 && word w != 0
end PatchEntry

/-! ### Queue descriptor and context request (R277, R315) -/

namespace CtxReq
def sqBase (w : Nat) : Nat := bits w 39 0 * 4096
def cqBase (w : Nat) : Nat := bits w 167 128 * 4096
def sqLog2 (w : Nat) : Nat := bits w 228 224
def cqLog2 (w : Nat) : Nat := bits w 233 229
def msixEn (w : Nat) : Bool := flag w 234
def vector (w : Nat) : Nat := bits w 245 235
def queue (w : Nat) : Nat := bits w 255 246
def cls (w : Nat) : Nat := bits w 377 376
def partition (w : Nat) : Nat := bits w 380 378
def placeRight (w : Nat) : Bool := flag w 381
def readback (w : Nat) : Bool := flag w 382
def shared (w : Nat) : Bool := flag w 383
def verQuire (w : Nat) : Nat := bits w 387 384
def verCpl (w : Nat) : Nat := bits w 391 388
def verMbox (w : Nat) : Nat := bits w 395 392
def root (w : Nat) : Nat := bits w 435 396 * 4096
def c0 (w : Nat) : Nat := bits w 511 448

/-- The queue descriptor's rules (R277). -/
def descOk (w : Nat) : Bool :=
  bits w 223 168 == 0 && bits w 127 40 == 0 && decide (6 ≤ cqLog2 w) && decide (cqLog2 w ≤ 16) &&
  decide (4 ≤ sqLog2 w) && decide (sqLog2 w ≤ 16)

/-- The first check of R316. -/
def ok (w : Nat) : Bool := descOk w && bits w 375 256 == 0 && bits w 447 436 == 0 && root w % 65536 == 0

/-- The versions of R284: quire 3 with record 3, quire 2 with record 2, mailbox 1 or 2. -/
def versionsOk (w : Nat) : Bool :=
  ((verQuire w == 3 && verCpl w == 3) || (verQuire w == 2 && verCpl w == 2)) && (verMbox w == 1 || verMbox w == 2)
end CtxReq

/-! ### INVALIDATE (R212) -/

namespace InvOp
def va (w : Nat) : Nat := bits w 351 312
def pages (w : Nat) : Nat := bits w 383 352
def scope (w : Nat) : Nat := bits w 385 384
def root (w : Nat) : Nat := bits w 425 386 * 4096
def ok (w : Nat) : Bool :=
  bits w 511 426 == 0 && bits w 311 128 == 0 && scope w != 3 && root w % 65536 == 0 &&
  (scope w != 0 || (pages w != 0 && decide (va w + pages w ≤ 2 ^ 40)))
end InvOp

/-! ### MIGRATE (R126) -/

namespace MigrateOp
def kind (w : Nat) : Nat := bits w 301 299
def folios (w : Nat) : Nat := bits w 321 302
def va (w : Nat) : Nat := bits w 357 322 * 65536
def frameList (w : Nat) : Nat := bits w 403 358 * 64
def outcome (w : Nat) : Nat := bits w 449 404 * 64
def ok (w : Nat) : Bool :=
  bits w 511 450 == 0 && bits w 298 128 == 0 && decide (kind w ≤ 3) && decide (1 ≤ folios w) &&
  decide (folios w ≤ 524288)
end MigrateOp

/-! ### STREAM and its blocks (R224, R225) -/

namespace StreamOp
def engine (w : Nat) : Nat := bits w 339 337
def list (w : Nat) : Nat := bits w 386 340 * 32
def listLen (w : Nat) : Nat := bits w 398 387 + 1
def ringBase (w : Nat) : Nat := bits w 438 399 * 4096
def ringSize (w : Nat) : Nat := bits w 450 439 * 4096
def ringCount (w : Nat) : Nat := bits w 455 451
def fillFence (w : Nat) : Nat := bits w 467 456
def freeFence (w : Nat) : Nat := bits w 479 468
def ringStart (w : Nat) : Nat := bits w 511 480
def ok (w : Nat) : Bool :=
  bits w 336 128 == 0 && decide (engine w ≤ 4) &&
  (ringCount w == 0 || (decide (2 ≤ ringCount w) && decide (ringCount w ≤ 16) && ringSize w != 0))
end StreamOp

namespace BlockEntry
def kind (b : Nat) : Nat := bits b 255 252
def after (b : Nat) : Bool := flag b 251
def sigMax (b : Nat) : Bool := flag b 250
def fence (b : Nat) : Nat := bits b 235 224
def len (b : Nat) : Nat := bits b 223 192
def dst (b : Nat) : Nat := bits b 179 128
def src (b : Nat) : Nat := bits b 115 64
def dstPitch (b : Nat) : Nat := bits b 63 40
def srcPitch (b : Nat) : Nat := bits b 39 16
def rows (b : Nat) : Nat := bits b 15 0 + 1
def value (b : Nat) : Nat := bits b 63 0

/-- Reserved fields and encodings of an entry (R225, R227); a CHAIN's list address is 32-byte aligned and its list not
empty nor longer than 4,096. -/
def ok (b : Nat) : Bool :=
  decide (kind b ≤ 4) && bits b 249 236 == 0 && bits b 191 180 == 0 && bits b 127 116 == 0 &&
  match kind b with
  | 0 => true
  | 1 => dstPitch b == 0
  | 4 => src b % 32 == 0 && decide (1 ≤ len b) && decide (len b ≤ 4096)
  | _ => src b == 0
end BlockEntry

/-! ### REMOTE_WRITE and REMOTE_GATHER (R388, R389) -/

namespace RemoteWriteOp
def engine (w : Nat) : Nat := bits w 295 294
def peer (w : Nat) : Nat := bits w 315 296
def peerOff (w : Nat) : Nat := bits w 347 316
def len (w : Nat) : Nat := bits w 379 348
def src (w : Nat) : Nat := bits w 431 380
def sigMode (w : Nat) : Nat := bits w 435 434
def sigFence (w : Nat) : Nat := bits w 447 436
def sigValue (w : Nat) : Nat := bits w 511 448
def ok (w : Nat) : Bool :=
  bits w 293 128 == 0 && bits w 433 432 == 0 && len w != 0 && decide (peerOff w + len w ≤ 2 ^ 32)
end RemoteWriteOp

namespace RemoteGatherOp
def out (w : Nat) : Nat := bits w 511 464 * 16
def outStride (w : Nat) : Nat := bits w 463 440
def inputs (w : Nat) : Nat := bits w 439 394 * 64
def tablesOff (w : Nat) : Nat := bits w 393 362
def tables (w : Nat) : Nat := bits w 361 349
def batch (w : Nat) : Nat := bits w 348 333 + 1
def pool (w : Nat) : Nat := bits w 332 330
def fp32 (w : Nat) : Bool := flag w 329
def wide (w : Nat) : Bool := flag w 328
def badIndex (w : Nat) : Bool := flag w 327
def peer (w : Nat) : Nat := bits w 326 307
def ok (w : Nat) : Bool :=
  bits w 306 128 == 0 && decide (pool w ≤ 4) && decide (1 ≤ tables w) && decide (tables w ≤ 4096) &&
    outStride w % 16 == 0 && decide (16 ≤ outStride w) && tablesOff w % 16 == 0

/-- The GATHER_POOL record that asks for the same lookup, with output rows from address 0 on and no replicas (R170). -/
def asGather (w : Nat) : Nat :=
  outStride w * 2 ^ 392 + tables w * 2 ^ 285 + bits w 348 333 * 2 ^ 269 + pool w * 2 ^ 266 + b2n (fp32 w) * 2 ^ 265 +
    b2n (wide w) * 2 ^ 264 + b2n (badIndex w) * 2 ^ 263 + 2 ^ 262
end RemoteGatherOp

/-! ### VECTOR_RUN (R82) -/

namespace VecOp
def arg1 (w : Nat) : Nat := bits w 511 448
def arg0 (w : Nat) : Nat := bits w 447 384
def data (w : Nat) : Nat := bits w 299 254 * 64
def code (w : Nat) : Nat := bits w 253 208 * 64
def dataLen (w : Nat) : Nat := bits w 201 193
def codeLen (w : Nat) : Nat := bits w 192 184
def cycleLimit (w : Nat) : Nat := bits w 183 168
def entry (w : Nat) : Nat := bits w 166 153
def codeKeep (w : Nat) : Bool := flag w 152
def checked (w : Nat) : Bool := flag w 151
def clusters (w : Nat) : Nat := bits w 150 144
def tasks (w : Nat) : Nat := bits w 143 128
def ok (w : Nat) : Bool :=
  bits w 383 300 == 0 && bits w 207 202 == 0 && !flag w 167 && decide (dataLen w ≤ 256) &&
  decide (1 ≤ codeLen w) && decide (codeLen w ≤ 256) && decide (entry w < codeLen w * 64) &&
  decide (1 ≤ clusters w) && decide (clusters w ≤ 64) && decide (1 ≤ tasks w)
end VecOp

/-! ### Tensor descriptors (R95 to R97, R103, R104) -/

namespace Desc
def base (d : Nat) : Nat := bits d 51 0
def elemType (d : Nat) : Nat := bits d 55 52
def rank (d : Nat) : Nat := bits d 58 56
def swizzle (d : Nat) : Nat := bits d 60 59
def oobRead (d : Nat) : Bool := flag d 61
def writeClamp (d : Nat) : Bool := flag d 62
def dist (d : Nat) : Bool := flag d 63
def extent (d k : Nat) : Nat := bits d (87 + 24 * k) (64 + 24 * k)
/-- Byte stride of dimension `k`; dimension 0 has none. -/
def stride (d k : Nat) : Nat := if k = 0 then 0 else bits d (183 + 32 * k) (152 + 32 * k)
def padValue (d : Nat) : Nat := bits d 343 312
/-- Fields of the distribution extension, which follows as bits [767:512] of the copy (R103). -/
def gOff (d k : Nat) : Nat := bits d (512 + 23 + 24 * k) (512 + 24 * k)
def gExt (d k : Nat) : Nat := bits d (512 + 143 + 24 * k) (512 + 120 + 24 * k)

/-- Bits of an element (R15). -/
def elemBits (d : Nat) : Nat :=
  match elemType d with
  | 0 => 4
  | 1 => 8
  | 2 => 32
  | 3 => 16
  | 4 => 16
  | _ => 32

/-- Bytes of an element, int4 counted as one for alignment. -/
def elemBytes (d : Nat) : Nat := max 1 (elemBits d / 8)

/-- R97 and R104. -/
def ok (d : Nat) : Bool :=
  bits d 511 344 == 0 && decide (elemType d ≤ 5) && decide (1 ≤ rank d) && decide (rank d ≤ 5) &&
  ((List.range 5).all fun k => decide (k < rank d) || (extent d k == 0 && stride d k == 0)) &&
  decide (padValue d < 2 ^ elemBits d) &&
  base d % elemBytes d == 0 &&
  ((List.range 5).all fun k => stride d k % elemBytes d == 0) &&
  (elemType d != 0 || extent d 0 % 2 == 0) &&
  (swizzle d == 0 || base d % 8192 == 0) &&
  (decide (swizzle d < 2) || (decide (2 ≤ rank d) && (List.range 5).all fun k => stride d k % 8192 == 0)) &&
  (!dist d || (bits d 767 752 == 0 && (List.range 5).all fun k =>
    if k < rank d then decide (gOff d k + extent d k ≤ gExt d k) else gOff d k == 0 && gExt d k == 0))

/-- The unswizzled offset of an element (R96); for int4 the byte that holds it. -/
def offset (d : Nat) (ix : List Nat) : Nat :=
  ix.getD 0 0 * elemBits d / 8 + (List.range (rank d)).foldl (fun n k => if k = 0 then n else n + ix.getD k 0 * stride d k) 0

/-- The byte address of an element (R91). -/
def addr (d : Nat) (ix : List Nat) : Nat :=
  let off := offset d ix
  let i1 := ix.getD 1 0
  let x := match swizzle d with
    | 0 => 0
    | 1 => bits off 18 13
    | 2 => bits i1 5 0
    | _ => bits i1 5 0 ^^^ bits i1 11 6
  base d + (off ^^^ (x * 128))

/-- The index lies inside the extents. -/
def inside (d : Nat) (ix : List Int) : Bool :=
  (List.range (rank d)).all fun k => decide (0 ≤ ix.getD k 0) && decide (ix.getD k 0 < extent d k)

/-- An index clamped to the edges of the tensor, none where an extent is zero (R99, R100). -/
def clamp (d : Nat) (ix : List Int) : Option (List Nat) :=
  if (List.range (rank d)).any fun k => extent d k == 0 then none
  else some ((List.range (rank d)).map fun k =>
    if ix.getD k 0 < 0 then 0 else min (ix.getD k 0).toNat (extent d k - 1))

/-- Where a read at an index takes its value: an element, or the pad value (R99). -/
def readAt (d : Nat) (ix : List Int) : Option (List Nat) :=
  if inside d ix then some (ix.map Int.toNat)
  else if oobRead d then none
  else clamp d ix
end Desc

/-- The indices of a tensor's elements, dimension 0 fastest. -/
def boxIndices : List Nat → List (List Nat)
  | [] => [[]]
  | n :: ns => (boxIndices ns).flatMap fun rest => (List.range n).map fun i => i :: rest

namespace Desc
/-- The extents of the dimensions in force. -/
def extents (d : Nat) : List Nat := (List.range (rank d)).map (extent d)

/-- A tensor without elements. -/
def empty (d : Nat) : Bool := (extents d).any (· == 0)

/-- The last byte an element of the tensor occupies (R42, R58): the last element's in a linear tensor, otherwise the
highest of all. -/
def lastByte (d : Nat) : Nat :=
  let width := elemBytes d - 1
  if swizzle d = 0 then addr d ((extents d).map (· - 1)) + width
  else (boxIndices (extents d)).foldl (fun m ix => max m (addr d ix + width)) (base d)
end Desc

/-! ### Table ops (R150 to R154, R172 to R174, R182 to R185) -/

namespace Tcb
def rebindTarget (t : Nat) : Nat := bits t 639 608
def watermark (t : Nat) : Nat := bits t 607 576
def rebindGen (t : Nat) : Nat := bits t 575 544
def lfsr (t : Nat) : Nat := bits t 543 512
def rowCount (t : Nat) : Nat := bits t 479 448
def tableId (t : Nat) : Nat := bits t 447 436
/-- Slot size S in bytes. -/
def slot (t : Nat) : Nat := bits t 435 431 * 32
/-- Elements D. -/
def dim (t : Nat) : Nat := bits t 430 425 * 8
def payload (t : Nat) : Nat := bits t 424 423
def state (t : Nat) : Nat := bits t 422 421
def hive (t : Nat) : Bool := flag t 420
def rowsBase (t : Nat) : Nat := bits t 51 0
/-- Bytes of the payload. -/
def payloadBytes (t : Nat) : Nat := if payload t = 0 then dim t else dim t / 2
/-- Slot offset and bytes of the optimiser state (R36). -/
def stateAt (t : Nat) : Nat := if state t = 0 then 8 + payloadBytes t else roundUp (8 + payloadBytes t) 4
def stateBytes (t : Nat) : Nat :=
  match state t with
  | 0 => 0
  | 1 => 4
  | _ => 2 * dim t
/-- Bytes of a slot that are in use: padding is neither read nor changed (R36). -/
def used (t : Nat) : Nat := stateAt t + stateBytes t
/-- R151, but for the tier of the TCB's home. -/
def ok (t : Nat) : Bool :=
  bits t 1023 640 == 0 && bits t 511 480 == 0 && bits t 419 52 == 0 && decide (payload t ≤ 1) && state t != 3 &&
    rowCount t != 0 && rowsBase t % 4096 == 0 && bits t 430 425 != 0 && slot t == roundUp (used t) 32 && decide (slot t ≤ 512)
/-- Virtual address of row `r` (R149). -/
def rowAddr (t r : Nat) : Nat :=
  let p := 4096 / slot t
  rowsBase t + r / p * 4096 + r % p * slot t
end Tcb

namespace TableEntry
def colOff (e : Nat) : Nat := bits e 83 68
def part (e : Nat) : Nat := bits e 67 64
def tcb (e : Nat) : Nat := bits e 44 0 * 128
def ok (e : Nat) : Bool := bits e 127 84 == 0 && bits e 63 45 == 0 && colOff e % 16 == 0
end TableEntry

namespace GatherOp
def out (w : Nat) : Nat := bits w 463 416 * 16
def outStride (w : Nat) : Nat := bits w 415 392
def inputs (w : Nat) : Nat := bits w 391 346 * 64
def tables (w : Nat) : Nat := bits w 345 298 * 16
def tableCount (w : Nat) : Nat := bits w 297 285
def batch (w : Nat) : Nat := bits w 284 269 + 1
def pool (w : Nat) : Nat := bits w 268 266
def outFp32 (w : Nat) : Bool := flag w 265
def idxWide (w : Nat) : Bool := flag w 264
def badIndex (w : Nat) : Bool := flag w 263
def noHive (w : Nat) : Bool := flag w 262
def ok (w : Nat) : Bool :=
  bits w 511 464 == 0 && bits w 261 128 == 0 && decide (pool w ≤ 4) && decide (1 ≤ tableCount w) &&
    decide (tableCount w ≤ 4096) && outStride w % 16 == 0 && decide (16 ≤ outStride w)
end GatherOp

/-! The input block of a GATHER_POOL (R153). -/
namespace GatherIn
def report (b : Nat) : Nat := bits b 307 256
def validMask (b : Nat) : Nat := bits b 243 192
def weights (b : Nat) : Nat := bits b 179 128
def offsets (b : Nat) : Nat := bits b 115 64
def idx (b : Nat) : Nat := bits b 51 0
def ok (b pool : Nat) (wide : Bool) : Bool :=
  bits b 511 308 == 0 && bits b 255 244 == 0 && bits b 191 180 == 0 && bits b 127 116 == 0 && bits b 63 52 == 0 &&
    report b % 64 == 0 && validMask b % 8 == 0 && weights b % 4 == 0 && offsets b % 4 == 0 &&
    idx b % (if wide then 8 else 4) == 0 && (pool != 4 || weights b != 0)
end GatherIn

namespace UpdateOp
def grads (w : Nat) : Nat := bits w 511 464 * 16
def gradStride (w : Nat) : Nat := bits w 463 440
def inputs (w : Nat) : Nat := bits w 439 394 * 64
def tables (w : Nat) : Nat := bits w 393 346 * 16
def tableCount (w : Nat) : Nat := bits w 345 333
def optimiser (w : Nat) : Nat := bits w 332 330
def gradFp32 (w : Nat) : Bool := flag w 329
def idxWide (w : Nat) : Bool := flag w 328
def badIndex (w : Nat) : Bool := flag w 327
def lr (w : Nat) : Nat := bits w 319 288
def mu (w : Nat) : Nat := bits w 287 256
def eps (w : Nat) : Nat := bits w 255 224
def decay (w : Nat) : Nat := bits w 223 192
def ok (w : Nat) : Bool :=
  bits w 326 320 == 0 && bits w 191 128 == 0 && decide (optimiser w ≤ 3) && decide (1 ≤ tableCount w) &&
    decide (tableCount w ≤ 4096) && gradStride w % 16 == 0 && decide (16 ≤ gradStride w)
end UpdateOp

/-! The input block of an UPDATE_ROWS (R173). -/
namespace UpdateIn
def report (b : Nat) : Nat := bits b 243 192
def doneMask (b : Nat) : Nat := bits b 179 128
def offsets (b : Nat) : Nat := bits b 115 64
def idx (b : Nat) : Nat := bits b 51 0
def ok (b : Nat) (wide : Bool) : Bool :=
  bits b 511 244 == 0 && bits b 191 180 == 0 && bits b 127 116 == 0 && bits b 63 52 == 0 && report b % 64 == 0 &&
    doneMask b % 8 == 0 && offsets b % 4 == 0 && idx b % (if wide then 8 else 4) == 0
end UpdateIn

namespace ReplaceOp
def src (w : Nat) : Nat := bits w 511 464 * 16
def srcStride (w : Nat) : Nat := bits w 463 440
def items (w : Nat) : Nat := bits w 439 392 * 16
def tcb (w : Nat) : Nat := bits w 390 346 * 128
def count (w : Nat) : Nat := bits w 345 330 + 1
def action (w : Nat) : Nat := bits w 329 328
def srcFormat (w : Nat) : Nat := bits w 327 326
def keepState (w : Nat) : Bool := flag w 325
def rebind (w : Nat) : Bool := flag w 324
def report (w : Nat) : Nat := bits w 323 278 * 64
def gen (w : Nat) : Nat := bits w 277 246
def ok (w : Nat) : Bool :=
  !flag w 391 && bits w 245 128 == 0 && action w != 3 && srcFormat w != 3 && (!rebind w || action w == 0)
end ReplaceOp

namespace RowItem
def slot (e : Nat) : Nat := bits e 82 64
def entry (e : Nat) : Nat := bits e 48 32
def row (e : Nat) : Nat := bits e 31 0
def ok (e : Nat) : Bool := bits e 127 83 == 0 && bits e 63 49 == 0
end RowItem

namespace MarkOp
def target (w : Nat) : Nat := bits w 511 480
def gen (w : Nat) : Nat := bits w 479 448
def tcb (w : Nat) : Nat := bits w 447 403 * 128
def action (w : Nat) : Nat := bits w 402 401
def ok (w : Nat) : Bool := bits w 400 128 == 0 && action w != 3
end MarkOp

/-! ### COPY_TENSOR (R105, R106) -/

namespace CopyOp
def report (w : Nat) : Nat := bits w 329 282 * 16
def window (w : Nat) : Nat := bits w 281 236 * 64
def dstDesc (w : Nat) : Nat := bits w 235 190 * 64
def srcDesc (w : Nat) : Nat := bits w 189 144 * 64
def permField (w : Nat) : Nat := bits w 143 129
/-- Source dimension of destination dimension `d`. -/
def perm (w d : Nat) : Nat := if permField w = 0 then d else bits w (131 + 3 * d) (129 + 3 * d)
def ok (w : Nat) : Bool := bits w 511 330 == 0 && !flag w 128
/-- `perm` is a permutation of the dimensions in force (R108). -/
def permOk (w rank : Nat) : Bool :=
  (List.range rank).all (fun d => (List.range rank).any fun k => perm w k == d) &&
    (permField w == 0 || (List.range 5).all fun d => decide (d < rank) || bits w (131 + 3 * d) (129 + 3 * d) == 0)
end CopyOp

namespace CopyWindow
def srcStart (x d : Nat) : Int := toSigned 32 (bits x (31 + 32 * d) (32 * d))
def dstStart (x d : Nat) : Int := toSigned 32 (bits x (191 + 32 * d) (160 + 32 * d))
def ext (x d : Nat) : Nat := bits x (351 + 32 * d) (320 + 32 * d)
def ok (x rank : Nat) : Bool :=
  bits x 511 480 == 0 && (List.range 5).all fun d =>
    decide (ext x d ≤ 16777215) && (decide (d < rank) ||
      (ext x d == 0 && bits x (31 + 32 * d) (32 * d) == 0 && bits x (191 + 32 * d) (160 + 32 * d) == 0))
end CopyWindow

/-! ### MATMUL (R57) -/

namespace MatOp
def sbOut (w : Nat) : Nat := bits w 499 448
def sbIn (w : Nat) : Nat := bits w 435 384
def clampHi (w : Nat) : Nat := bits w 383 368
def clampLo (w : Nat) : Nat := bits w 367 352
def rescale (w : Nat) : Nat := bits w 351 304 * 16
def stageLen (w : Nat) : Nat := bits w 303 294
def stageOff (w : Nat) : Nat := bits w 293 284
def outDesc (w : Nat) : Nat := bits w 283 238 * 64
def bDesc (w : Nat) : Nat := bits w 237 192 * 64
def aDesc (w : Nat) : Nat := bits w 191 146 * 64
def tolExp (w : Nat) : Nat := bits w 145 142
def outFp32 (w : Nat) : Bool := flag w 141
def act (w : Nat) : Nat := bits w 140 139
def sbMode (w : Nat) : Nat := bits w 138 137
def mode (w : Nat) : Nat := bits w 136 135

/-- The record's own rules (R57, R58); the staging region of R42 is named in part by `stage_len`. DESIGN CHOICE (log entry 91): low bits of
`sb_in` fail the op in bf16 too, where R57 says the field is ignored and R58 lists them without exception. -/
def ok (w : Nat) : Bool :=
  bits w 511 500 == 0 && bits w 447 436 == 0 && bits w 134 128 == 0 && mode w != 3 && sbMode w != 3 &&
  sbOut w % 8 == 0 && sbIn w % 8 == 0 && (sbMode w == 0 || sbOut w != 0) && (mode w == 2 || sbIn w != 0) &&
  (stageLen w == 0 || decide (48 ≤ stageLen w)) && !(decide (2 ≤ tolExp w) && decide (tolExp w ≤ 5))

/-- Tile width in columns (R40). -/
def tileCols (w : Nat) : Nat := if mode w = 2 then 128 else 256

/-- Element type that B has in the mode (R58). -/
def bType (w : Nat) : Nat :=
  match mode w with
  | 0 => 0
  | 1 => 1
  | _ => 3
end MatOp

end Sys2Proof.Machine
end

