-- ==== Sys2Proof/Machine/Spine.lean ====
section
/-! DEFINITION. What the Spine's commands share (12_quires_and_ops.md, 13_queues_and_completions.md): quires and ops in
progress, dependencies, dispatch, failure and completion, and the issue of completion records. -/

namespace Sys2Proof.Machine

/-- Whether a slice has stopped for good: its end is with its unit, or reported. -/
def Slice.over (x : Slice) : Bool := x.phase == .ended || x.phase == .reported

/-- An op that is completed, failed or cancelled. -/
def Op.over (o : Op) : Bool := o.phase == .done || o.phase == .cancelled

/-- An op that failed or was cancelled (R260). -/
def Op.lost (o : Op) : Bool := o.phase == .cancelled || (o.phase == .done && Status.failed o.status)

namespace State

/-! ### Entries and ops -/

/-- The entry of context `n` with ring count `e`. -/
def entry? (s : State) (n e : Nat) : Option Entry := (s.ctx n).entries.find? fun x => x.n == e

/-- The entry with a changed value. -/
def modEntry (s : State) (n e : Nat) (f : Entry → Entry) : State :=
  let c := s.ctx n
  s.setCtx n { c with entries := c.entries.map fun x => if x.n = e then f x else x }

/-- The quire an op belongs to. -/
def quire? (s : State) (o : OpRef) : Option Quire := (s.entry? o.ctx o.entry).bind (·.quire)

def modQuire (s : State) (n e : Nat) (f : Quire → Quire) : State :=
  s.modEntry n e fun x => { x with quire := x.quire.map f }

/-- An op that has been read. -/
def op? (s : State) (o : OpRef) : Option Op := (s.quire? o).bind fun q => q.ops[o.op]?

def modOp (s : State) (o : OpRef) (f : Op → Op) : State :=
  s.modQuire o.ctx o.entry fun q => { q with ops := q.ops.mapIdx fun i x => if i = o.op then f x else x }

def setOp (s : State) (o : OpRef) (x : Op) : State := s.modOp o fun _ => x

/-- Slice `k` of an op. -/
def slice? (s : State) (o : OpRef) (k : Nat) : Option Slice := (s.op? o).bind fun x => x.slices[k]?

def modSlice (s : State) (o : OpRef) (k : Nat) (f : Slice → Slice) : State :=
  s.modOp o fun x => { x with slices := x.slices.mapIdx fun i y => if i = k then f y else y }

/-- The requester that the Spine is for context `n` (R217: kind 3). -/
def spineReq (s : State) (n : Nat) (w : Who) : Req :=
  let c := s.ctx n
  { who := w, ctx := n, cls := c.cls, part := c.partition, root := c.root, kind := 3, id := 0, cluster := none,
    targets := 31, mayStall := true, fabric := false }

/-! ### Dependencies (R257 to R262) -/

/-- A fence value, relative to the launch's base where marked so (R262). -/
def relValue (q : Quire) (rel : Bool) (v : Nat) : Nat := if rel then (v + q.fenceBase) % 2 ^ 64 else v

/-- Every predecessor an op names has completed. -/
def predsDone (q : Quire) (o : Op) : Bool :=
  (OpHdr.preds o.word).all fun p => match q.ops[p]? with
    | some x => x.phase == .done
    | none => false

/-- Every BARRIER before op `i` has completed. -/
def barriersDone (q : Quire) (i : Nat) : Bool :=
  (q.ops.take i).all fun x => OpHdr.opcode x.word != 0x11 || x.phase == .done

/-- The entry of the queue's previous quire before entry `e` (of a SUBMIT or LAUNCH), while it has not completed (R261). -/
def prevQuire (s : State) (n e : Nat) : Option Entry :=
  (((s.ctx n).entries.takeWhile fun x => x.n != e).filter fun x => x.kind == 1 || x.kind == 4).getLast?.filter
    fun x => x.record.isNone && x.quire.isSome

/-- An access of the op, made by its dispatch or by its work, is stalled. -/
def opStalled (s : State) (o : OpRef) : Bool :=
  s.trans.stalls.any fun x => match x.req.who with
    | .op p _ => p == o
    | _ => false

/-- Every op of a quire has been read. -/
def allRead (q : Quire) : Bool := q.cut || decide (QuireHdr.ops q.hdr ≤ q.ops.length)

/-- Every op of the quire of entry `x` has been dispatched, cancelled or failed; one whose dispatch waits for a fault to be
answered counts as dispatched (R261). -/
def allDispatched (s : State) (n : Nat) (x : Entry) (q : Quire) : Bool :=
  allRead q && (List.range q.ops.length).all fun i =>
    (q.ops[i]?).any (fun o => o.phase != .waiting) || s.opStalled ⟨n, x.n, i⟩

/-- The quire of entry `e` may dispatch ops (R261); a queue that is FULL or HELD starts none (R282, R301). -/
def mayStart (s : State) (n e : Nat) : Bool :=
  match s.entry? n e with
  | none => false
  | some x =>
    match x.quire with
    | none => false
    | some q =>
      (q.started || (s.ctx n).mode == .run) &&
        match s.prevQuire n e with
        | some p => QuireHdr.overlap q.hdr && p.quire.any (s.allDispatched n p)
        | none => true

/-- The op's dispatch conditions other than its wait hold (R258, R287). -/
def conditionsHold (s : State) (o : OpRef) : Bool :=
  (s.ctx o.ctx).phase == .opened && s.mayStart o.ctx o.entry &&
  match s.quire? o with
  | none => false
  | some q =>
    match q.ops[o.op]? with
    | none => false
    | some x => x.phase == .waiting && predsDone q x && barriersDone q o.op

/-- The wait of an op's header is met, or has been met before (R287). -/
def waitMet (s : State) (o : OpRef) : Bool :=
  match s.quire? o, s.op? o with
  | some q, some x =>
    !OpHdr.waitEn x.word || x.waitMet ||
      s.waitOk (OpHdr.waitFence x.word) (relValue q (OpHdr.waitRel x.word) (OpHdr.waitValue x.word))
  | _, _ => false

/-- The op may be dispatched (R258). -/
def ready (s : State) (o : OpRef) : Bool := s.conditionsHold o && s.waitMet o

/-- Every op that has been read and whose entry is in progress. -/
def opsIn (s : State) : List (OpRef × Op) :=
  s.ctxs.flatMap fun c => c.2.entries.flatMap fun e =>
    match e.quire with
    | none => []
    | some q => q.ops.mapIdx fun i x => ((⟨c.1, e.n, i⟩ : OpRef), x)

/-- The number of the next event that the ops in progress are ordered by (R266, R267). -/
def nextOrder (s : State) : Nat := s.opsIn.foldl (fun n x => max n (max x.2.readyAt x.2.order)) 0 + 1

/-- Ops that have become ready are numbered (R266). -/
def numberReady (s : State) : State :=
  ((s.opsIn.filter fun x => x.2.readyAt == 0 && s.ready x.1).foldl
    (fun a x => ((a.1.modOp x.1 fun y => { y with readyAt := a.2 }), a.2 + 1)) (s, s.nextOrder)).1

/-- Every op that could be dispatched now and is not held back by a stall or its tag. -/
def readyOps (s : State) : List (OpRef × Op) :=
  s.opsIn.filter fun x => s.ready x.1 && !s.opStalled x.1 && (s.tagOf (s.ctx x.1.ctx).root).isSome

/-- When the first of a quire's ready ops became ready. -/
def quireSince (l : List (OpRef × Op)) (n e : Nat) : Nat :=
  (l.filter fun x => x.1.ctx == n && x.1.entry == e).foldl (fun m x => min m x.2.readyAt) (2 ^ 64)

/-- No ready op goes before `o`: a class-0 one when `o` is of another class, a lower-indexed one of its quire, or, outside class
0, one of a quire that has had a ready op for longer (R258, R266). DESIGN CHOICE, log entry 57: within a quire the index
decides, between quires the first op that became ready. -/
def firstInLine (s : State) (o : OpRef) : Bool :=
  let l := s.readyOps
  !l.any fun x =>
    let p := x.1
    ((s.ctx p.ctx).cls == 0 && (s.ctx o.ctx).cls != 0) ||
      (if p.ctx == o.ctx && p.entry == o.entry then decide (p.op < o.op)
       else (s.ctx o.ctx).cls != 0 && decide (quireSince l p.ctx p.entry < quireSince l o.ctx o.entry))

/-! ### Signals and wakes -/

/-- Waiting ops whose other conditions hold and whose wait is met now keep it met (R287). -/
def latchWaits (s : State) : State :=
  s.ctxs.foldl (fun t c => c.2.entries.foldl (fun t e =>
    match e.quire with
    | none => t
    | some q => (List.range q.ops.length).foldl (fun t i =>
        let o : OpRef := ⟨c.1, e.n, i⟩
        match q.ops[i]? with
        | some x =>
          if x.phase == .waiting && OpHdr.waitEn x.word && !x.waitMet && s.conditionsHold o && s.waitMet o then
            t.modOp o fun y => { y with waitMet := true }
          else t
        | none => t) t) t) s

/-- The waits of FENCE_WAIT bodies, and of the WAIT blocks that STREAMs have reached, that are met now stay met (R226,
R287, R289). -/
def latchBodies (s : State) : State :=
  s.ctxs.foldl (fun t c => c.2.entries.foldl (fun t e =>
    match e.quire with
    | none => t
    | some q => (List.range q.ops.length).foldl (fun t i =>
        let o : OpRef := ⟨c.1, e.n, i⟩
        match q.ops[i]? with
        | some x =>
          match x.body with
          | .fenceWait met =>
            let now := (List.range 3).filter fun k => met.contains k ||
              (FenceWaitOp.en x.word k && s.waitOk (FenceWaitOp.fence x.word k)
                (relValue q (FenceWaitOp.rel x.word k) (FenceWaitOp.value x.word k)))
            if now.length = met.length then t else t.modOp o fun y => { y with body := .fenceWait now }
          | .stream w =>
            if x.phase == .dispatched && !x.waitMet && (w.list[w.idx]?).any (fun b =>
                BlockEntry.kind b == 2 && s.waitOk (BlockEntry.fence b) (BlockEntry.value b)) then
              t.modOp o fun y => { y with waitMet := true }
            else t
          | _ => t
        | none => t) t) t) s

/-- A fence signal and the evaluation of the waits behind it (R286, R287). -/
def applySignal (s : State) (g : Signal) : State :=
  if g.mode = 0 then s else (((s.signal g).latchWaits).latchBodies).numberReady

/-- The wake-up of a queue, sent once `cq_posted` has reached its target, and disarmed then (R283). -/
def checkWake (s : State) (n : Nat) : State :=
  let c := s.ctx n
  match c.wake with
  | none => s
  | some t =>
    if (c.cqPosted + 2 ^ 32 - t) % 2 ^ 32 < 2 ^ 31 then
      let s := s.setCtx n { c with wake := none }
      if c.q.msixEn then s.sendMsix (8 * c.port + c.fn) c.q.vector else s
    else s

/-! ### Completion records -/

/-- Held records in the pool (`cpl_held`, R301). -/
def heldCount (s : State) : Nat := s.ctxs.foldl (fun k c => k + (c.2.entries.filter (·.pooled)).length) 0

/-- Bytes of a completion record of the context's version (R278). -/
def recordSize (c : Ctx) : Nat := if c.verCpl = 3 then 32 else 16

/-- The virtual address of the ring place of record `k` (R278). -/
def ringPlace (c : Ctx) (k : Nat) : Nat := c.q.cqBase + recordSize c * (k % 2 ^ c.q.cqLog2)

/-- The pass parity of record or entry `k` (R278). -/
def phaseOf (c : Ctx) (k : Nat) : Nat := 1 - k / 2 ^ c.q.cqLog2 % 2

/-- The bytes of a record as it is written now, with the current status word of the owner's reader. -/
def recordBytes (s : State) (n : Nat) (r : Rec) (echo : Bool) : List (BitVec 8) :=
  let c := s.ctx n
  let dev := s.statusWord (8 * c.port + c.fn)
  if c.verCpl = 3 then recordV3 r c.q.queue n dev (phaseOf c c.cqPosted) echo
  else recordV2 r n dev (phaseOf c c.cqPosted) echo

/-- Writes bytes into the completion ring of a context: to target 0, 1 or 2 through a writable leaf without poison, to a
host port only while it is up (R278, R301). -/
def ringWrite (s : State) (n : Nat) (va : Nat) (bytes : List (BitVec 8)) : M Unit := do
  let r := { s.spineReq n (.spine n) with mayStall := false, targets := 7 }
  match ← translate r va .write with
  | .device a => writeDevice r a bytes []
  | .host p a =>
    let t ← get
    let f := t.reqFn n p
    if !t.hostUp p f then throw (.fail Status.hostWriteFailed 0)
    if t.pathBlocked r.cls (.host p f) then throw .hold
    set (t.hostWrite p f a bytes false false)
  | _ => throw (.fail Status.faultPermission 0)

/-- The ring has room for the next record (R282). -/
def ringRoom (c : Ctx) : Bool := decide ((c.cqPosted + 2 ^ 32 - c.cqConsumed) % 2 ^ 32 < 2 ^ c.q.cqLog2)

/-- What the attempt to write the next record of a queue comes to, with the state it leaves: written, no room, a place that cannot
be written, or a wait for a tag, for memory that starts, or for the posted word path. -/
inductive RecordTry where
  | written (s : State)
  | full
  | held (va : Nat) (s : State)
  | wait (s : State)

/-- Attempts to write a record into the next ring place (R282, R301). Orphaned contexts hold every record (R406). -/
def tryRecord (s : State) (n : Nat) (r : Rec) (echo : Bool) : RecordTry :=
  let c := s.ctx n
  if c.orphaned then .held (ringPlace c c.cqPosted) s
  else if !ringRoom c then .full
  else
    let va := ringPlace c c.cqPosted
    match s.acquireTag n with
    | (t, false) => .wait t
    | (s, true) =>
      match (ringWrite s n va (s.recordBytes n r echo)).run s with
      | .ok _ t =>
        let c := t.ctx n
        .written (t.setCtx n { c with cqPosted := (c.cqPosted + 1) % 2 ^ 32, lastSeq := r.seq })
      | .error (.fail _ _) t => .held va t
      | .error _ t => .wait t

/-- A record that cannot be written takes a pool place when one is free, otherwise it stays with its quire (R301). -/
def pool (s : State) (n e : Nat) : State :=
  match s.entry? n e with
  | none => s
  | some x =>
    if x.pooled then s
    else if s.heldCount < 4096 then s.modEntry n e fun y => { y with pooled := true }
    else if x.poolMissed then s
    else (s.modEntry n e fun y => { y with poolMissed := true }).addObj 0x3090 2 1

/-- The finished entries of a queue that is not running take pool places, up to the first that is not finished: a record
behind it waits with its quire (R261, R282, R301). -/
def poolAll (s : State) (n : Nat) : State :=
  ((s.ctx n).entries.takeWhile (·.record.isSome)).foldl (fun t e => t.pool n e.n) s

/-- Frees a generation that is neither current nor pinned, and a handle without generations (R273, R274). -/
def freeGens (s : State) (h : Nat) : State :=
  match AMap.get? s.graphs h with
  | none => s
  | some g =>
    let gens := g.gens.filter fun x => (x.num == g.current && !g.unbound) || decide (0 < x.pins)
    if g.unbound && gens.isEmpty then { s with graphs := AMap.erase s.graphs h }
    else { s with graphs := AMap.set s.graphs h { g with gens := gens } }

/-- A launch's pin released. -/
def unpin (s : State) (p : Option (Nat × Nat)) : State :=
  match p with
  | none => s
  | some (h, num) =>
    match AMap.get? s.graphs h with
    | none => s
    | some g =>
      let gens := g.gens.map fun x => if x.num = num then { x with pins := x.pins - 1 } else x
      ({ s with graphs := AMap.set s.graphs h { g with gens := gens } }).freeGens h

/-- A queue enters HELD at a record that cannot be written, with attention; of an orphaned context without (R301, R302, R406). -/
def enterHeld (s : State) (n va : Nat) : State :=
  let c := s.ctx n
  let s := (s.setCtx n { c with mode := .held }).poolAll n
  if c.orphaned then s else s.raiseAs 4 2 (2 ^ c.partition) 0x3090 1 va s.heldCount

/-- A release ends when no record of the queue waits any more (R302). -/
def endRelease (s : State) (n : Nat) : State :=
  let c := s.ctx n
  if c.mode == .releasing && !((c.entries.head?).any fun e => e.record.isSome) then s.setCtx n { c with mode := .run } else s

/-- Issues the records of a queue in ring order while they can be written (R261, R282, R301, R302): the done signal of an entry
is made when its turn comes, then its record. -/
def issueN (s : State) (n : Nat) : Nat → State
  | 0 => s
  | fuel + 1 =>
    let c := s.ctx n
    if c.mode == .full || c.mode == .held then s.poolAll n
    else
      match c.entries.head? with
      | none => s.endRelease n
      | some e =>
        match e.record with
        | none => s.endRelease n
        | some r =>
          if !e.readBacks.isEmpty then s
          else
            let s := match e.done with
              | some g => (s.applySignal g).modEntry n e.n fun x => { x with done := none }
              | none => s
            match s.tryRecord n r false with
            | .written t =>
              let c := t.ctx n
              let t := t.setCtx n { c with entries := c.entries.tail }
              issueN (t.checkWake n) n fuel
            | .full =>
              let c := s.ctx n
              ((s.setCtx n { c with mode := .full }).addObj 0x3091 3 1).poolAll n
            | .held va t => t.enterHeld n va
            | .wait t => t

/-- Records that found no pool place take one when it frees (R301). -/
def repool (s : State) : State :=
  s.ctxs.foldl (fun t c => c.2.entries.foldl (fun t e =>
    if e.poolMissed && !e.pooled && c.2.mode != .run then t.pool c.1 e.n else t) t) s

/-- The records of a queue that can be written now; at most eight entries are in progress (R281). -/
def issue (s : State) (n : Nat) : State := ((s.issueN n 9).repool).numberReady

/-- Every queue's records that can be written now, where something they may have waited for has come. -/
def issueAll (s : State) : State := (s.ctxs.map (·.1)).foldl (fun t n => t.issue n) s

/-- `q_state` of a context (R282). -/
def qState (s : State) (n : Nat) : Nat :=
  let c := s.ctx n
  if c.phase != .opened then 4
  else if c.orphaned then 3
  else
    match c.mode with
    | .full => 2
    | .held => 3
    | .releasing => 3
    | .run => if c.entries.isEmpty then 0 else 1

/-! ### Completion of a quire -/

/-- The stamps of a quire's record (R293): of the cluster that ran a slice of the lowest-indexed op run on any cluster. -/
def stampsOf (q : Quire) : Nat × Nat :=
  let ran := q.ops.findSome? fun o => o.slices.findSome? fun x =>
    if x.unit ≤ 2 then x.place.bind fun c => AMap.get? q.stamps c else none
  ran.getD (0, 0)

/-- The host ports an op wrote. -/
def portsOf (q : Quire) : List (Nat × Nat) :=
  q.ops.foldl (fun l o => o.hostPorts.foldl (fun l h => if l.any fun x => x.1 == h.1 then l else l ++ [h]) l) []

/-- A quire whose ops have all ended is complete: its record and done signal are fixed (R261, R252), a launch's generation is
unpinned (R273), and in read-back mode the read-backs on the ports it wrote are sent (R237). -/
def finishQuire (s : State) (n e : Nat) : State :=
  match s.entry? n e with
  | none => s
  | some x =>
    match x.quire with
    | none => s
    | some q =>
      if x.record.isSome || !allRead q || !(q.ops.all Op.over) then s
      else
        let st := quireStatus q.ops
        let (a, b) := stampsOf q
        let r : Rec := { seq := x.seq, status := st, result := resultWord q.ops, partMap := partMapOf q.ops,
                         firstFail := firstFail q.ops, opsDone := opsDone q.ops, stampStart := a, stampEnd := b }
        let g : Option Signal :=
          if QuireHdr.doneMode q.hdr ≠ 0 && (QuireHdr.doneAlways q.hdr || !Status.failed st) then
            some ⟨QuireHdr.doneFence q.hdr, QuireHdr.doneMode q.hdr,
              relValue q (QuireHdr.doneRel q.hdr) (QuireHdr.doneValue q.hdr)⟩
          else none
        let c := s.ctx n
        let ports := if c.readback && !x.readBackDone then portsOf q else []
        let s := ports.foldl (fun t p => t.send (.readBack p.1 (t.reqFn n p.1) p.2)) s
        let s := s.modEntry n e fun y => { y with record := some r, done := g, readBacks := ports.map (·.1), graph := none }
        (s.unpin x.graph).issue n

/-- Waiting ops that name a failed or cancelled op (or, strict, a PARTIAL one) or stand behind a cancelled BARRIER are
cancelled, in index order (R260). -/
def cancelFrom (q : Quire) : Quire :=
  (List.range q.ops.length).foldl (fun q i =>
    match q.ops[i]? with
    | none => q
    | some x =>
      if x.phase != .waiting then q
      else
        let bad := (OpHdr.preds x.word).any fun p =>
          match q.ops[p]? with
          | some y => y.lost || (OpHdr.strict x.word && y.phase == .done && y.status == Status.partly)
          | none => false
        let barred := (q.ops.take i).any fun y => OpHdr.opcode y.word == 0x11 && y.lost
        if bad || barred then { q with ops := q.ops.set i { x with phase := .cancelled } } else q) q

/-- Waits that can be evaluated now are, and ops that are ready now are numbered (R266, R287). -/
def wakeOps (s : State) : State := (s.latchWaits).numberReady

/-- After an op of entry `e` ended: cancellations, then the quire's completion, and what either lets start. -/
def settleQuire (s : State) (n e : Nat) : State :=
  (((s.modQuire n e cancelFrom).latchWaits).finishQuire n e).wakeOps

/-- Attention and count of an op that ended SILENT_ERROR_UNRECOVERED (R345). -/
def noteUnrecovered (s : State) (o : OpRef) (status : Nat) : State :=
  if status = Status.silentError then s.countRaise 2 2 (2 ^ (s.ctx o.ctx).partition) 0x5037 1 0 else s

/-- An op that fails for poison it consumed counts once; the ops over tables and VECTOR_RUN count their parts, items and
tasks instead once they are dispatched (R361, R363). -/
def notePoison (s : State) (o : OpRef) (status : Nat) : State :=
  if status != Status.poisonConsumed then s
  else if (s.op? o).any fun x => x.phase != .waiting && [0x02, 0x03, 0x04, 0x05, 0x06, 0x0E].contains (OpHdr.opcode x.word) then s
  else s.consumePoison

/-- An op ends with its status (R259, R260); its context's tag may leave the busy state (R208). -/
def endOp (s : State) (o : OpRef) (status low high partMap : Nat) : State :=
  let st := match s.op? o with
    | some x => if status = Status.ok && x.replayed then Status.okReplayed else status
    | none => status
  let s := s.notePoison o st
  let s := if Status.failed st then s.dropRequests (· == o) else s
  let s : State := { s with trans := { s.trans with drains := s.trans.drains.filter (· != .op o) } }
  let s := s.modOp o fun x =>
    { x with phase := .done, status := st, low := low, high := high, partMap := partMap, body := .none }
  let s := s.noteUnrecovered o st
  ((s.leftBusy (s.ctx o.ctx).root).settleQuire o.ctx o.entry).bindPins

/-- An op fails before or at its dispatch; `code` holds the result word bits it gives. -/
def failOp (s : State) (o : OpRef) (status code : Nat) : State := s.endOp o status (code % 256) (code / 65536) 0

/-- The range check of the fences an op names at dispatch (R285), and the poison of the one its header waits for (R360). -/
def headerFail (s : State) (o : OpRef) : Option Nat :=
  match s.op? o with
  | none => none
  | some x =>
    if !OpHdr.waitEn x.word then none
    else if !s.fenceInRange (s.ctx o.ctx).partition (OpHdr.waitFence x.word) then some Status.faultPermission
    else if s.fencePoisoned (OpHdr.waitFence x.word) then some Status.poisonConsumed
    else none

/-- Op `o` has been dispatched: its quire has started, and waits behind it may be evaluated now (R265, R287). -/
def dispatched (s : State) (o : OpRef) (x : Op) : State :=
  ((s.setOp o { x with phase := .dispatched, order := s.nextOrder }).modQuire o.ctx o.entry fun q =>
    { q with started := true }).wakeOps

/-- The dispatch of an op of a given opcode (R258, R263, R266): its dependencies are met, it is first in line, and its root
has a tag. `m` reads and checks the op's own structures and gives the op in its dispatched form. A check that fails ends
the op with its status; a stall leaves it waiting. -/
def dispatch (s : State) (o : OpRef) (code : Nat) (m : Op → Req → M Op) : State :=
  match s.op? o with
  | none => s
  | some x =>
    if OpHdr.opcode x.word != code || !s.running || x.phase != .waiting then s
    else
      let s := s.numberReady
      let x := (s.op? o).getD x
      match (if s.conditionsHold o then s.headerFail o else none) with
      | some st => s.failOp o st 0
      | none =>
        if !s.ready o || !s.firstInLine o then s
        else
          match s.acquireTag o.ctx with
          | (t, false) => t
          | (t, true) =>
            t.runM (m x (t.spineReq o.ctx (.op o 1000)))
              (fun y u => u.dispatched o y)
              (fun st code u => (u.modQuire o.ctx o.entry fun q => { q with started := true }).failOp o st code)

/-- The slices of an op have all been reported: the op's status is fixed by its lowest-numbered failing slice (R269). -/
def settleSlices (s : State) (o : OpRef) : State :=
  match s.op? o with
  | none => s
  | some x =>
    if x.phase != .dispatched || !(x.slices.all fun y => y.phase == .reported) then s
    else
      let bad := x.slices.find? fun y => Status.failed y.status
      match bad with
      | some y => s.modOp o fun z => { z with phase := .settled, status := y.status, low := y.low, high := y.high }
      | none => s.modOp o fun z => { z with phase := .settled, status := Status.ok }

end State

end Sys2Proof.Machine
end

