-- ==== Sys2Proof/Machine/Queues.lean ====
section
/-! DEFINITION. The commands of the queues and of the Spine: doorbells, submission entries, stored graphs, op chunks, and the
ops that the Spine runs itself (12_quires_and_ops.md, 13_queues_and_completions.md). -/

namespace Sys2Proof.Machine

open Host (Outcome)

namespace State

/-! ### Doorbells (R279 to R283, R302) -/

/-- Function `ff` owns the doorbell page of context `n`. -/
def ownsPage (s : State) (ff n : Nat) : Bool :=
  (s.ctx n).phase != .closed && decide (8 * (s.ctx n).port + (s.ctx n).fn = ff)

/-- A write to a context's doorbell page: discarded during a reset, discarded and counted from a function that does not own
the page (R279, R471). -/
def doorbell (s : State) (ff n : Nat) (act : State → State) : State :=
  if !s.portsUp then s
  else if !s.ownsPage ff n then s.addObj 0x3091 2 1
  else act s

/-- R280. -/
def ringDoorbell (s : State) (n v : Nat) : State :=
  let c := s.ctx n
  let v := v % 2 ^ 32
  if c.orphaned then s.addObj 0x3091 1 1
  else
    let d := (v + 2 ^ 32 - c.produced) % 2 ^ 32
    if d = 0 ∨ 2 ^ 31 ≤ d then s
    else if 2 ^ c.q.sqLog2 < (v + 2 ^ 32 - c.consumed) % 2 ^ 32 then
      s.countRaise 4 0 (2 ^ c.partition) 0x3091 1 0
    else s.setCtx n { c with produced := v }

/-- R282: a FULL queue goes on when the count advances so that the ring has room. -/
def advanceConsumed (s : State) (n v : Nat) : State :=
  let c := { s.ctx n with cqConsumed := v % 2 ^ 32 }
  (s.setCtx n { c with mode := if c.mode == .full && ringRoom c then .run else c.mode }).issue n

/-- R302: the queue stays HELD until its last held record is written. -/
def releaseHeld (s : State) (n v : Nat) : State :=
  let c := s.ctx n
  if v = 1 ∧ c.mode = .held ∧ c.orphaned = false then (s.setCtx n { c with mode := .releasing }).issue n else s

end State

/-- SQ_PRODUCED (R280). -/
def execSqProduced (ff n v : Nat) (s : State) : Outcome State Fault Refusal :=
  .next (s.inTurn (some (ff / 8)) (.sqProduced ff n v)
    (s.doorbell ff n fun s => s.ringDoorbell n v))

/-- CQ_CONSUMED (R282). -/
def execCqConsumed (ff n v : Nat) (s : State) : Outcome State Fault Refusal :=
  .next (s.inTurn (some (ff / 8)) (.cqConsumed ff n v)
    (s.doorbell ff n fun s => s.advanceConsumed n v))

/-- WAKE_ARM (R283). -/
def execWakeArm (ff n target : Nat) (s : State) : Outcome State Fault Refusal :=
  .next (s.inTurn (some (ff / 8)) (.wakeArm ff n target)
    (s.doorbell ff n fun s => (s.setCtx n { s.ctx n with wake := some (target % 2 ^ 32) }).checkWake n))

/-- WAKE_DISARM (R283). -/
def execWakeDisarm (ff n target : Nat) (s : State) : Outcome State Fault Refusal :=
  .next (s.inTurn (some (ff / 8)) (.wakeDisarm ff n target)
    (s.doorbell ff n fun s => s.setCtx n { s.ctx n with wake := none }))

/-- RELEASE (R302). -/
def execRelease (ff n v : Nat) (s : State) : Outcome State Fault Refusal :=
  .next (s.inTurn (some (ff / 8)) (.release ff n v)
    (s.doorbell ff n fun s => s.releaseHeld n v))

namespace State

/-! ### Taking entries (R250, R251, R263, R281) -/

/-- The virtual address of ring entry `k` (R278). -/
def entryPlace (c : Ctx) (k : Nat) : Nat := c.q.sqBase + 64 * (k % 2 ^ c.q.sqLog2)

/-- The Spine may take the next entry of a ring: announced, at most seven in progress, the context serving, every quire taken before
having dispatched an op or completed; a FULL or HELD queue starts no new quire (R265, R281, R282). -/
def mayTake (s : State) (n kind : Nat) : Bool :=
  let c := s.ctx n
  s.running && c.phase == .opened && !c.orphaned && decide (c.entries.length < 8) && c.consumed != c.produced &&
    (c.mode == .run || (kind != 1 && kind != 4)) && c.entries.all fun e => e.record.isSome || e.quire.any (·.started)

/-- An entry taken. -/
def take (s : State) (n : Nat) (e : Entry) : State :=
  let c := s.ctx n
  s.setCtx n { c with consumed := (c.consumed + 1) % 2 ^ 32, entries := c.entries ++ [e] }

/-- An entry taken and completed at once with a status and result (R251). -/
def takeDone (s : State) (n kind seq status result : Nat) : State :=
  let e : Entry := { n := (s.ctx n).consumed, kind := kind, seq := seq,
                     record := some { seq := seq, status := status, result := result } }
  (s.take n e).issue n

/-- Reads the next ring entry and, when it is of the wanted kind (1 also takes entries of no listed kind), hands it on.
A read that fails ends the entry with that status and `seq` 0 (R263). -/
def withEntry (s : State) (n kind : Nat) (act : Nat → State → State) : State :=
  if !s.mayTake n kind then s
  else
    match s.acquireTag n with
    | (t, false) => t
    | (t, true) =>
      t.runM (readNum (t.spineReq n (.spine n)) (entryPlace (t.ctx n) (t.ctx n).consumed) 64)
        (fun w u =>
          let k := SubEntry.kind w
          if k = kind ∨ (kind = 1 ∧ (k = 0 ∨ 5 < k)) then
            if !SubEntry.ok w then u.takeDone n k (SubEntry.seq w) Status.descriptorInvalid 0
            else if kind ≠ 1 ∧ (u.ctx n).verQuire = 2 then u.takeDone n k (SubEntry.seq w) Status.versionUnsupported 0
            else act w u
          else s)
        (fun st _ u => if kind = 1 then u.takeDone n 0 0 st 0 else s)

/-- The status with which a quire header fails R253, or none. -/
def headerStatus (s : State) (n h : Nat) : Option Nat :=
  let c := s.ctx n
  if QuireHdr.version h ≠ c.verQuire then some Status.versionUnsupported
  else if !QuireHdr.ok h then some Status.descriptorInvalid
  else if QuireHdr.doneMode h ≠ 0 ∧ s.fenceInRange c.partition (QuireHdr.doneFence h) = false then
    some Status.faultPermission
  else none

/-- Starts a quire whose header has been read. -/
def startQuire (s : State) (n kind w h : Nat) (src : QSrc) (graph : Option (Nat × Nat)) : State :=
  let seq := SubEntry.seq w
  match s.headerStatus n h with
  | some st => (s.takeDone n kind seq st 0).unpin graph
  | none =>
    s.take n { n := (s.ctx n).consumed, kind := kind, seq := seq, graph := graph,
               quire := some { src := src, fenceBase := SubEntry.fenceBase w, hdr := h } }

/-- SUBMIT of an entry. -/
def submitEntry (n w : Nat) (s : State) : State :=
  let va := SubEntry.addr w
  s.runM (readNum (s.spineReq n (.spine n)) va 64)
    (fun h u => u.startQuire n 1 w h (.mem va) none)
    (fun st _ u => u.takeDone n 1 (SubEntry.seq w) st 0)

/-! ### Stored graphs (R270 to R274) -/

/-- First byte of a partition's graph store. -/
def storeAt (s : State) (p : Nat) : Nat := bits (s.obj 0x3040 p) 18 0 * 65536

/-- 4 KiB units of a partition's graph store; none while it is not valid. -/
def storeUnits (s : State) (p : Nat) : Nat := if flag (s.obj 0x3040 p) 63 then bits (s.obj 0x3040 p) 38 19 * 16 else 0

/-- Units of a partition's store in use: (first, count). -/
def unitsUsed (s : State) (p : Nat) : List (Nat × Nat) :=
  s.graphs.flatMap fun g => if g.2.part = p then g.2.gens.map fun x => (x.base, x.units) else []

/-- The lowest place for `k` units in a partition's store: at 0 or behind a generation. -/
def allocUnits (s : State) (p k : Nat) : Option Nat :=
  let used := s.unitsUsed p
  let free := fun b => decide (b + k ≤ s.storeUnits p) &&
    used.all fun u => decide (b + k ≤ u.1) || decide (u.1 + u.2 ≤ b)
  let cands := (0 :: used.map fun u => u.1 + u.2).filter free
  cands.foldl (fun m b => match m with
    | none => some b
    | some x => some (min x b)) none

/-- The device address of record `i` of a generation. -/
def genAddr (s : State) (p : Nat) (g : Gen) (i : Nat) : Nat := s.storeAt p + g.base * 4096 + i * 64

/-- Generation `num` of handle `h`, with its partition. -/
def gen? (s : State) (h num : Nat) : Option (Nat × Gen) :=
  (AMap.get? s.graphs h).bind fun g => (g.gens.find? fun x => x.num == num).map fun x => (g.part, x)

/-- Record `i` of a quire: through translation, or from the pinned generation (R263, R273). -/
def readRecord (r : Req) (src : QSrc) (i : Nat) : M Nat := do
  match src with
  | .mem va => readNum r (va + 64 * i) 64
  | .graph h num =>
    let s ← get
    match s.gen? h num with
    | none => throw (.fail Status.internal 0)
    | some (p, g) =>
      let a := s.genAddr p g i
      if s.tierStarting a then throw .hold
      if s.anyPoison a 64 then throw (.fail Status.poisonConsumed 0)
      return s.readNat a 64

/-- Records of a quire from `i` on. -/
def readRecords (r : Req) (src : QSrc) : Nat → Nat → M (List Nat)
  | 0, _ => return []
  | n + 1, i => do
    let w ← readRecord r src i
    let ws ← readRecords r src n (i + 1)
    return w :: ws

/-- The record positions of the ops of a list of records after the header; none where an op breaks R255. -/
def opPlaces (v2 : Bool) (len : Nat) (records : List Nat) : Nat → Nat → Nat → Option (List (Nat × Nat))
  | 0, _, _ => some []
  | k + 1, i, at_ =>
    match records[at_]? with
    | none => none
    | some w =>
      if !OpHdr.ok w i v2 || decide (len < at_ + OpHdr.ext w) then none
      else (opPlaces v2 len records k (i + 1) (at_ + 1 + OpHdr.ext w)).map fun l => (at_, 1 + OpHdr.ext w) :: l

/-- The lowest handle not in use. -/
def freeHandle (s : State) : Option Nat := (List.range 4096).find? fun h => (AMap.get? s.graphs h).isNone

/-- Handles a context holds. -/
def graphsOf (s : State) (n : Nat) : Nat := (s.graphs.filter fun g => g.2.ctx == n).length

/-- BIND of an entry (R271). -/
def bindEntry (n w : Nat) (s : State) : State :=
  let va := SubEntry.addr w
  let seq := SubEntry.seq w
  let r := s.spineReq n (.spine n)
  let p := (s.ctx n).partition
  s.runM (readNum r va 64)
    (fun h u =>
      match u.headerStatus n h with
      | some st => u.takeDone n 2 seq st 0
      | none =>
        u.runM (readRecords r (.mem va) (QuireHdr.lenM1 h + 1) 0)
          (fun ws u =>
            match opPlaces false (QuireHdr.lenM1 h) ws (QuireHdr.ops h) 0 1 with
            | none => u.takeDone n 2 seq Status.descriptorInvalid 0
            | some _ =>
              let k := ceilDiv ws.length 64
              match u.allocUnits p k, u.freeHandle with
              | none, _ => u.takeDone n 2 seq Status.descriptorInvalid 0x20
              | some _, none => u.takeDone n 2 seq Status.descriptorInvalid 0x22
              | some b, some hd =>
                if 64 ≤ u.graphsOf n then u.takeDone n 2 seq Status.descriptorInvalid 0x22
                else
                  let u := u.write (u.storeAt p + b * 4096) (ws.flatMap (leBytes 64))
                  let g : Graph := { ctx := n, part := p, current := 1,
                                     gens := [{ num := 1, len := ws.length, base := b, units := k }] }
                  ({ u with graphs := AMap.set u.graphs hd g }).takeDone n 2 seq Status.ok hd)
          (fun st _ u => u.takeDone n 2 seq st 0))
    (fun st _ u => u.takeDone n 2 seq st 0)

/-- The graph an entry names, bound by its own context (R274). -/
def ownGraph (s : State) (n w : Nat) : Option Graph :=
  (AMap.get? s.graphs (SubEntry.graph w)).bind fun g => if g.ctx = n ∧ g.unbound = false then some g else none

/-- A list of patches applied to the records of a quire; none where an entry breaks R272. -/
def applyPatches (places : List (Nat × Nat)) : List Nat → List Nat → Option (List Nat)
  | [], ws => some ws
  | e :: es, ws =>
    if !PatchEntry.ok e then none
    else
      match places[PatchEntry.op e]? with
      | none => none
      | some (at_, k) =>
        let i := PatchEntry.word e
        if 8 * k ≤ i then none
        else
          let j := at_ + i / 8
          let lo := 64 * (i % 8)
          applyPatches places es (ws.set j (setBits (ws.getD j 0) (lo + 63) lo (PatchEntry.value e)))

/-- The words of a list of 16-byte entries. -/
def words16 : Nat → List (BitVec 8) → List Nat
  | 0, _ => []
  | n + 1, bs => leNat (bs.take 16) :: words16 n (bs.drop 16)

/-- PATCH of an entry (R272). -/
def patchEntry (n w : Nat) (s : State) : State :=
  let seq := SubEntry.seq w
  let h := SubEntry.graph w
  match s.ownGraph n w with
  | none => s.takeDone n 3 seq Status.descriptorInvalid 0
  | some g =>
    match g.gens.find? fun x => x.num == g.current with
    | none => s.takeDone n 3 seq Status.descriptorInvalid 0
    | some old =>
      let r := s.spineReq n (.spine n)
      let bad := fun (u : State) (low : Nat) => u.takeDone n 3 seq Status.descriptorInvalid low
      s.runM (do
          let bs ← readVA r (SubEntry.addr w) (16 * SubEntry.count w)
          let ws ← readRecords r (.graph h g.current) old.len 0
          return (bs, ws))
        (fun (bs, ws) u =>
          let hdr := ws.headD 0
          match opPlaces false (QuireHdr.lenM1 hdr) ws (QuireHdr.ops hdr) 0 1 with
          | none => bad u 0
          | some places =>
            match applyPatches places (words16 (SubEntry.count w) bs) ws with
            | none => bad u 0
            | some ws =>
              match u.allocUnits g.part old.units with
              | none => bad u 0x20
              | some b =>
                if 4 ≤ g.gens.length then bad u 0x21
                else
                  let new : Gen := { num := g.current + 1, len := old.len, base := b, units := old.units }
                  let u := u.write (u.storeAt g.part + b * 4096) (ws.flatMap (leBytes 64))
                  let u := { u with graphs := AMap.set u.graphs h { g with current := new.num, gens := g.gens ++ [new] } }
                  (u.freeGens h).takeDone n 3 seq Status.ok 0)
        (fun st _ u => u.takeDone n 3 seq st 0)

/-- LAUNCH of an entry: pins the current generation and runs it (R273). -/
def launchEntry (n w : Nat) (s : State) : State :=
  let seq := SubEntry.seq w
  let h := SubEntry.graph w
  match s.ownGraph n w with
  | none => s.takeDone n 4 seq Status.descriptorInvalid 0
  | some g =>
    let pinned : Graph := { g with gens := g.gens.map fun x => if x.num = g.current then { x with pins := x.pins + 1 } else x }
    s.runM (readRecord (s.spineReq n (.spine n)) (.graph h g.current) 0)
      (fun hdr u =>
        ({ u with graphs := AMap.set u.graphs h pinned }).startQuire n 4 w hdr (.graph h g.current) (some (h, g.current)))
      (fun st _ u => u.takeDone n 4 seq st 0)

/-- UNBIND of an entry (R274). -/
def unbindEntry (n w : Nat) (s : State) : State :=
  let seq := SubEntry.seq w
  let h := SubEntry.graph w
  match s.ownGraph n w with
  | none => s.takeDone n 5 seq Status.descriptorInvalid 0
  | some g =>
    let u := ({ s with graphs := AMap.set s.graphs h { g with unbound := true } }).freeGens h
    u.takeDone n 5 seq Status.ok 0

end State

/-- SUBMIT (R251, R253). -/
def execSubmit (n : Nat) (s : State) : Outcome State Fault Refusal := .next (s.withEntry n 1 (State.submitEntry n))

/-- BIND (R271). -/
def execBind (n : Nat) (s : State) : Outcome State Fault Refusal := .next (s.withEntry n 2 (State.bindEntry n))

/-- PATCH (R272). -/
def execPatch (n : Nat) (s : State) : Outcome State Fault Refusal := .next (s.withEntry n 3 (State.patchEntry n))

/-- LAUNCH (R273). -/
def execLaunch (n : Nat) (s : State) : Outcome State Fault Refusal := .next (s.withEntry n 4 (State.launchEntry n))

/-- UNBIND (R274). -/
def execUnbind (n : Nat) (s : State) : Outcome State Fault Refusal := .next (s.withEntry n 5 (State.unbindEntry n))

namespace State

/-! ### Op chunks (R254, R255, R263, R264) -/

/-- Places of the op-record pool that a queue holds: of its ops that have not ended, and of the quires whose record found
no place in the pool of held records (R264, R301). -/
def placesOf (s : State) (n : Nat) : Nat :=
  (s.ctx n).entries.foldl (fun k e => match e.quire with
    | some q => k + (q.ops.filter fun o => !o.over || (e.poolMissed && !e.pooled)).length
    | none => k) 0

/-- 64 places are free to the queue: of its 256, and of the pool of 16,384, of which 2,048 serve only class 0. -/
def chunkRoom (s : State) (n : Nat) : Bool :=
  let total := s.ctxs.foldl (fun k c => k + s.placesOf c.1) 0
  let low := s.ctxs.foldl (fun k c => if c.2.cls = 0 then k else k + s.placesOf c.1) 0
  decide (s.placesOf n + 64 ≤ 256) && decide (total + 64 ≤ 16384) && ((s.ctx n).cls == 0 || decide (low + 64 ≤ 14336))

/-- Opcodes that a version 2 quire refuses (R276). -/
def refusedV2 (code : Nat) : Bool := code == 0x06 || code == 0x0C || code == 0x0E

/-- An op that failed before dispatch. -/
def failedOp (w status : Nat) : Op := { word := w, phase := .done, status := status }

/-- Reads the next op of a quire. -/
def readOp (r : Req) (v2 : Bool) (q : Quire) : M Quire := do
  let i := q.ops.length
  let len := QuireHdr.lenM1 q.hdr
  if len < q.nextRec then
    return { q with ops := q.ops ++ [failedOp 0 Status.descriptorInvalid], cut := true }
  let w ← readRecord r q.src q.nextRec
  let k := OpHdr.ext w
  if len < q.nextRec + k then
    return { q with ops := q.ops ++ [failedOp w Status.descriptorInvalid], cut := true }
  let next := q.nextRec + 1 + k
  if !OpHdr.ok w i v2 then
    return { q with ops := q.ops ++ [failedOp w Status.descriptorInvalid], nextRec := next }
  if v2 && refusedV2 (OpHdr.opcode w) then
    return { q with ops := q.ops ++ [failedOp w Status.versionUnsupported], nextRec := next }
  let ext ← readRecords r q.src k (q.nextRec + 1)
  return { q with ops := q.ops ++ [{ word := w, ext := ext }], nextRec := next }

/-- Reads up to `k` further ops. A read that fails makes its op fail with that status and ends the reading (R263). -/
def readChunk (r : Req) (v2 : Bool) : Nat → Quire → M Quire
  | 0, q => return q
  | k + 1, q => do
    if q.cut || QuireHdr.ops q.hdr ≤ q.ops.length then return q
    let next ← tryCatch (readOp r v2 q) fun e =>
      match e with
      | .fail st _ => return { q with ops := q.ops ++ [failedOp 0 st], cut := true }
      | e => throw e
    readChunk r v2 k next

/-- An op whose records came back poisoned failed for it, and counts once (R361, R363). -/
def chunkPoison (s : State) (old new : Quire) : State :=
  if (new.ops.drop old.ops.length).any fun o => o.status == Status.poisonConsumed then s.consumePoison else s

/-- The next chunk of the quire of entry `e` may be read: the queue's records are read in index order, but for the first chunk of
the quire taken ahead of its turn, beyond which that is not read (R264, R265). -/
def chunkTurn (s : State) (n e : Nat) (q : Quire) : Bool :=
  q.ops.isEmpty || (s.mayStart n e &&
    ((s.ctx n).entries.takeWhile fun x => x.n != e).all fun x => x.record.isSome || x.quire.any allRead)

/-- Record position of op `i` of a quire. -/
def recordPlace (q : Quire) (i : Nat) : Nat := (q.ops.take i).foldl (fun n x => n + 1 + OpHdr.ext x.word) 1

/-- Op `i` of a quire failed at its record, and every later op that has not begun is cancelled (R263). -/
def cutAt (q : Quire) (i : Nat) : Quire :=
  { q with cut := true, ops := q.ops.mapIdx fun j x => if i < j ∧ x.phase = .waiting then { x with phase := .cancelled } else x }

/-- A record that the Spine or a Stitcher holds failed its check: it is read again from the quire or the pinned generation, and that
read is handled under R263; a second failure is beyond the limit of R338. -/
def rereadOp (s : State) (n e i times : Nat) : State :=
  let o : OpRef := ⟨n, e, i⟩
  match s.quire? o, s.op? o with
  | some q, some x =>
    if x.over || times = 0 then s
    else if 2 ≤ times then (if x.phase = .waiting ∨ x.slices.isEmpty then s.failOp o Status.silentError 0 else s)
    else
      s.runM (readRecords (s.spineReq n (.spine n)) q.src (1 + OpHdr.ext x.word) (recordPlace q i))
        (fun ws u => u.modOp o fun y => { y with word := ws.headD 0, ext := ws.drop 1 })
        (fun st _ u => (u.modQuire n e fun q => cutAt q i).failOp o st 0)
  | _, _ => s

/-- OP_CHUNK_READ of entry `e` of context `n`. `again` names an op whose held record fails its check, and how often (R330, R338;
DESIGN CHOICE, log entry 74). -/
def chunkRead (s : State) (n e : Nat) (again : Option (Nat × Nat)) : State :=
  let s : State := match again with
    | some (i, times) => if s.running && (s.ctx n).phase == .opened then s.rereadOp n e i times else s
    | none => s
  let c := s.ctx n
  match (s.entry? n e).bind (·.quire) with
  | none => s
  | some q =>
    if !s.running || c.phase != .opened || allRead q || !s.chunkTurn n e q || !s.chunkRoom n then s
    else
      match s.acquireTag n with
      | (t, false) => t
      | (t, true) =>
        t.runM (readChunk (t.spineReq n (.spine n)) (c.verQuire == 2) 64 q)
          (fun new u => ((u.chunkPoison q new).modQuire n e fun _ => new).settleQuire n e)
          (fun _ _ u => u)

/-! ### Ops of the Spine -/

/-- Every op before `i` has ended (R257). -/
def earlierOver (q : Quire) (i : Nat) : Bool := (q.ops.take i).all Op.over

/-- BARRIER (R257, R258): the first command that finds its dependencies met checks and dispatches it; it ends once every
earlier op has ended, OK, or cancelled where one was lost and it does not run after failures. -/
def barrierOp (s : State) (o : OpRef) : State :=
  match s.quire? o with
  | none => s
  | some q =>
    let s := s.dispatch o 0x11 fun x _ => do
      if !BarrierOp.ok x.word then failWith Status.descriptorInvalid
      return x
    match s.op? o with
    | some x =>
      if x.phase != .dispatched || OpHdr.opcode x.word != 0x11 || !earlierOver q o.op then s
      else if !BarrierOp.afterFailure x.word && (q.ops.take o.op).any Op.lost then
        (s.modOp o fun y => { y with phase := .cancelled }).settleQuire o.ctx o.entry
      else s.endOp o Status.ok 0 0 0
    | none => s

/-- Ends an op that its dispatch has just put in the dispatched form. -/
def endDispatched (s : State) (o : OpRef) (code : Nat) : State :=
  match s.op? o with
  | some x => if x.phase = .dispatched ∧ OpHdr.opcode x.word = code then s.endOp o Status.ok 0 0 0 else s
  | none => s

/-- NOP (R257). -/
def nopOp (s : State) (o : OpRef) : State :=
  (s.dispatch o 0x00 fun x _ => do
    if opFields x.word ≠ 0 then failWith Status.descriptorInvalid
    return x).endDispatched o 0x00

/-- The fences of an op's enabled body waits lie in range (R285); poisoned ones fail it (R360). -/
def bodyFences (s : State) (p : Nat) (fs : List Nat) : Option Nat :=
  if fs.any fun f => !s.fenceInRange p f then some Status.faultPermission else none

/-- FENCE_WAIT (R289): the first command checks and dispatches it; it completes once every enabled body wait is met. -/
def fenceWaitOp (s : State) (o : OpRef) : State :=
  let fences := fun (x : Op) => ((List.range 3).filter (FenceWaitOp.en x.word)).map (FenceWaitOp.fence x.word)
  let s := s.dispatch o 0x09 fun x r => do
    if !FenceWaitOp.ok x.word then failWith Status.descriptorInvalid
    let s ← get
    match s.bodyFences r.part (fences x) with
    | some st => failWith st
    | none => return { x with body := .fenceWait [] }
  let s := s.latchBodies
  match s.op? o with
  | some x =>
    match x.phase, x.body with
    | .dispatched, .fenceWait met =>
      let want := (List.range 3).filter (FenceWaitOp.en x.word)
      if want.any fun k => !met.contains k && s.fencePoisoned (FenceWaitOp.fence x.word k) then
        s.endOp o Status.poisonConsumed 0 0 0
      else if want.all fun k => met.contains k then s.endOp o Status.ok 0 0 0
      else s
    | _, _ => s
  | none => s

/-- The signals of a FENCE_SIGNAL, in ascending order (R290). -/
def signalsOf (q : Quire) (w : Nat) : List Signal :=
  ((List.range 4).filter fun k => FenceSignalOp.mode w k != 0).map fun k =>
    ⟨FenceSignalOp.fence w k, FenceSignalOp.mode w k, relValue q (FenceSignalOp.rel w k) (FenceSignalOp.value w k)⟩

/-- FENCE_SIGNAL (R290). -/
def fenceSignalOp (s : State) (o : OpRef) : State :=
  match s.quire? o with
  | none => s
  | some q =>
    (s.dispatch o 0x0A fun x r => do
      if !FenceSignalOp.ok x.word then failWith Status.descriptorInvalid
      let s ← get
      match s.bodyFences r.part ((signalsOf q x.word).map (·.fence)) with
      | some st => failWith st
      | none =>
        set ((signalsOf q x.word).foldl applySignal s)
        return x).endDispatched o 0x0A

/-- Every host port's read-back that a HOST_FLAG needs before its flag (R237). -/
def flagReadBacks (c : Ctx) (w port : Nat) : List Nat :=
  let cross := HostFlagOp.crossPort w
  if c.readback then (if cross then [port, 1 - port] else [port])
  else if cross then [1 - port] else []

/-- The ops before place `j + 1` on which one of `deps` depends, by predecessors and BARRIERs (R257, R258). -/
def dependsOn (q : Quire) : Nat → List Nat → List Nat
  | 0, deps => deps
  | j + 1, deps =>
    let barrier := fun (k : Nat) => (q.ops[k]?).any fun o => OpHdr.opcode o.word == 0x11
    let named := deps.any fun k => (q.ops[k]?).any fun o => (OpHdr.preds o.word).contains j
    dependsOn q j (if named || barrier j || deps.any barrier then j :: deps else deps)

/-- The first address that the ops a flag depends on wrote on a port, otherwise the flag's own. -/
def firstWritten (q : Quire) (i p a : Nat) : Nat :=
  ((dependsOn q i [i]).findSome? fun j =>
    (q.ops[j]?).bind fun o => (o.hostPorts.find? fun h => h.1 == p).map (·.2)).getD a

/-- The flag of a HOST_FLAG written to its host port without Relaxed Ordering (R235, R236). -/
def writeFlag (x : Op) (r : Req) : M Unit := do
  match ← translate { r with targets := 6 } (HostFlagOp.addr x.word) .write with
  | .host p a =>
    let s ← get
    let f := s.reqFn r.ctx p
    if s.hostUp p f then
      if s.pathBlocked r.cls (.host p f) then throw .hold
      set (notePort (ownerOf s r.who) p a
        (s.hostWrite p f a (leBytes (HostFlagOp.size x.word) (HostFlagOp.value x.word)) false false))
    else failWith Status.hostWriteFailed
  | .poison => failWith Status.poisonConsumed
  | _ => failWith Status.faultPermission

/-- The op with the host ports that its own writes have reached (R237). -/
def withPorts (o : OpRef) (x : Op) : M Op := do
  let s ← get
  return { x with hostPorts := ((s.op? o).map (·.hostPorts)).getD x.hostPorts }

/-- HOST_FLAG (R236): checked and, without read-backs, written; otherwise the read-backs are sent and the flag follows
their completion. -/
def hostFlagOp (s : State) (o : OpRef) : State :=
  match s.quire? o with
  | none => s
  | some q =>
    let s := s.dispatch o 0x0B fun x r => do
      if !HostFlagOp.ok x.word then failWith Status.descriptorInvalid
      match ← translate { r with targets := 6 } (HostFlagOp.addr x.word) .write with
      | .host p a =>
        let s ← get
        let back := flagReadBacks (s.ctx o.ctx) x.word p
        if back.isEmpty then
          writeFlag x r
          withPorts o { x with body := .flag [] }
        else
          set (back.foldl (fun t b => t.send (.readBack b (t.reqFn o.ctx b)
            (if b = p then a else firstWritten q o.op b a))) s)
          return { x with body := .flag back }
      | .poison => failWith Status.poisonConsumed
      | _ => failWith Status.faultPermission
    match s.op? o with
    | some x =>
      match x.phase, x.body with
      | .dispatched, .flag [] => s.endOp o Status.ok 0 0 0
      | _, _ => s
    | none => s

/-- READ_BACK_COMPLETE (R237): of a record's read-back on the port named first, or of a flag's. When the last one is back,
the record is issued or the flag written. -/
def readBackDone (s : State) (n e : Nat) (flagOp : Option Nat) : State :=
  match flagOp with
  | none =>
    match s.entry? n e with
    | some x =>
      match x.readBacks with
      | [] => s
      | _ :: rest =>
        (s.modEntry n e fun y => { y with readBacks := rest, readBackDone := rest.isEmpty }).issue n
    | none => s
  | some i =>
    let o : OpRef := ⟨n, e, i⟩
    match s.op? o with
    | some x =>
      match x.phase, x.body with
      | .dispatched, .flag (_ :: rest) =>
        if rest.isEmpty then
          s.runM (writeFlag x (s.spineReq n (.op o 1000)))
            (fun _ t => t.endOp o Status.ok 0 0 0)
            (fun st _ t => t.endOp o st 0 0 0)
        else s.modOp o fun y => { y with body := .flag rest }
      | _, _ => s
    | none => s

/-- A posted write split at aligned 256-byte boundaries (R232). -/
def postedWrite (r : Req) : Nat → Nat → List (BitVec 8) → M Unit
  | 0, _, _ => return ()
  | fuel + 1, va, bs => do
    if bs.isEmpty then return ()
    let k := min bs.length (256 - va % 256)
    pathTurn r va .write
    writeVA r va (bs.take k)
    postedWrite r fuel (va + k) (bs.drop k)

/-- INLINE_DATA (R310). Its writes to a peer are acknowledged before OP_COMPLETION ends it. -/
def inlineOp (s : State) (o : OpRef) : State :=
  let s := s.dispatch o 0x10 fun x r => do
    if !InlineOp.ok x.word x.ext then failWith Status.descriptorInvalid
    postedWrite r 4 (InlineOp.dst x.word) (InlineOp.payload x.ext (InlineOp.len x.word))
    withPorts o x
  match s.op? o with
  | some x =>
    if x.phase = .dispatched ∧ OpHdr.opcode x.word = 0x10 then
      if s.unackedOf o then s.modOp o fun y => { y with phase := .settled }
      else s.endOp o Status.ok 0 0 0
    else s
  | none => s

/-- OP_COMPLETION (R259): the status is fixed and every write of the op has been performed. -/
def opCompletion (s : State) (o : OpRef) : State :=
  match s.op? o with
  | some x =>
    if s.running && x.phase == .settled && !s.unackedOf o then s.endOp o x.status x.low x.high x.partMap else s
  | none => s

/-- FENCE_TIMEOUT (R288, R289): of the header's wait while the other conditions hold, or of the body waits; a timeout of 0
in `fence_timeout`, or of all ones in a FENCE_WAIT, never passes. A fence met in the meantime is not timed out. -/
def timeoutOf (s : State) (w : Nat) : Option Nat :=
  let own := if OpHdr.opcode w = 0x09 then FenceWaitOp.timeout w else 0
  if own = 2 ^ 32 - 1 then none
  else if own ≠ 0 then some own
  else if s.obj 0x3071 1 = 0 then none else some (s.obj 0x3071 1)

/-- The next block of a STREAM is a WAIT that is not met (R226, R288). -/
def streamWaits (x : Op) : Bool :=
  match x.body with
  | .stream w =>
    match w.list[w.idx]? with
    | some b => BlockEntry.kind b == 2 && !x.waitMet && (x.slices[0]?).any fun y => y.phase == .running
    | none => false
  | _ => false

/-- A STREAM at a RING block whose buffer is not freed yet: a wait too, on `free_fence` (R230, R288). DEDUCED, log entry 20. -/
def ringWaits (s : State) (x : Op) (w : StreamWork) : Bool :=
  match w.list[w.idx]? with
  | some b => BlockEntry.kind b == 1 && w.ringChecked &&
      decide (s.fence (StreamOp.freeFence x.word) < StreamOp.ringStart x.word + w.rings + 1 - StreamOp.ringCount x.word)
  | none => false

/-- FENCE_TIMEOUT: a wait that is not met fails its op, or its STREAM block (R260, R288, R289). -/
def fenceTimeout (s : State) (o : OpRef) : State :=
  match s.op? o with
  | none => s
  | some x =>
    if !s.running || (s.timeoutOf x.word).isNone then s
    else if x.phase = .waiting then
      if s.conditionsHold o && !s.waitMet o then s.endOp o Status.fenceTimeout 0 0 0 else s
    else if x.phase = .dispatched then
      match x.body with
      | .fenceWait met =>
        if (List.range 3).any fun k => FenceWaitOp.en x.word k && !met.contains k then
          s.endOp o Status.fenceTimeout 0 0 0
        else s
      | .stream w =>
        if streamWaits x || s.ringWaits x w then
          s.modSlice o 0 fun y => { y with phase := .ended, status := Status.fenceTimeout, high := min w.blocks 0xFFFF }
        else s
      | _ => s
    else s

/-- STATUS_ECHO (R300): the echo takes a ring place when it can be written at once, and is skipped otherwise. -/
def statusEcho (s : State) (n : Nat) : State :=
  let c := s.ctx n
  if !s.running || c.phase != .opened || c.echoUs = 0 || c.mode != .run || c.orphaned then s
  else
    let r : Rec := { seq := c.lastSeq, status := Status.ok }
    match s.tryRecord n r true with
    | .written t => t.checkWake n
    | .held _ t => t
    | .wait t => t
    | .full => s

end State

/-- OP_CHUNK_READ (R264). -/
def execOpChunkRead (n : Nat) (e : ChunkAt) (s : State) : Outcome State Fault Refusal :=
  .next (s.chunkRead n e.entry e.again)

/-- OP_COMPLETION (R259). -/
def execOpCompletion (o : OpRef) (s : State) : Outcome State Fault Refusal := .next (s.opCompletion o)

/-- STATUS_ECHO (R300). -/
def execStatusEcho (n : Nat) (s : State) : Outcome State Fault Refusal := .next (s.statusEcho n)

/-- FENCE_TIMEOUT (R288). -/
def execFenceTimeout (o : OpRef) (s : State) : Outcome State Fault Refusal := .next (s.fenceTimeout o)

/-- NOP_OP (R257). -/
def execNopOp (o : OpRef) (s : State) : Outcome State Fault Refusal :=
  .next (if s.running then s.nopOp o else s)

/-- BARRIER (R257). -/
def execBarrier (o : OpRef) (s : State) : Outcome State Fault Refusal :=
  .next (if s.running then s.barrierOp o else s)

/-- FENCE_WAIT (R289). -/
def execFenceWait (o : OpRef) (s : State) : Outcome State Fault Refusal :=
  .next (if s.running then s.fenceWaitOp o else s)

/-- FENCE_SIGNAL (R290). -/
def execFenceSignal (o : OpRef) (s : State) : Outcome State Fault Refusal :=
  .next (if s.running then s.fenceSignalOp o else s)

/-- HOST_FLAG (R236). -/
def execHostFlag (o : OpRef) (s : State) : Outcome State Fault Refusal :=
  .next (if s.running then s.hostFlagOp o else s)

/-- READ_BACK_COMPLETE (R237). -/
def execReadBackComplete (n e : Nat) (flag : Option Nat) (s : State) : Outcome State Fault Refusal :=
  .next (if s.running then s.readBackDone n e flag else s)

/-- INLINE_DATA (R310). -/
def execInlineData (o : OpRef) (s : State) : Outcome State Fault Refusal :=
  .next (if s.running then s.inlineOp o else s)

end Sys2Proof.Machine
end

