-- ==== Sys2Proof/Machine/Mailbox.lean ====
section
/-! DEFINITION. Mailboxes (13_queues_and_completions.md, R304 to R309): the check of a go word, the six requests, and their
replies. A request whose access waits for a peer keeps its slot busy. -/

namespace Sys2Proof.Machine

open Host (Outcome)

/-- The bytes of a reply (R306): header, and payload padded to 16 bytes. -/
def mboxBytes (tag status dev kind : Nat) (payload : List (BitVec 8)) : List (BitVec 8) :=
  let n := payload.length
  leBytes 16 (tag % 2 ^ 32 * 2 ^ 96 + status * 2 ^ 80 + dev * 2 ^ 64 + n * 2 ^ 56 + kind * 2 ^ 48) ++
    payload ++ List.replicate (roundUp n 16 - n) 0

/-- The bytes that a request kind needs of its payload (R307). -/
def mboxNeeds : Nat → Nat
  | 1 => 10
  | 2 => 8
  | 3 => 11
  | 4 => 2
  | _ => 0

namespace State

/-- Mailbox slot `nn = 32 port + slot`. -/
def mboxSlot (s : State) (nn : Nat) : MboxSlot := AMap.getD s.mbox nn {}

def setMboxSlot (s : State) (nn : Nat) (x : MboxSlot) : State := { s with mbox := AMap.put {} s.mbox nn x }

/-- The function that slot `nn` belongs to (R304). -/
def mboxFn (s : State) (nn : Nat) : Nat := nn / 32 * 8 + bits (s.obj 0x9050 nn) 3 1

/-- The context negotiated mailbox v1 (R309). -/
def mboxV1 (s : State) (n : Nat) : Bool := (s.ctx n).phase != .closed && (s.ctx n).verMbox == 1

/-- The reply of a request: posted to the slot's reply buffer, or for v1 written into the slot; the slot is free again
(R306, R309). A reply that cannot reach the host is discarded (R229). -/
def mboxReply (s : State) (nn : Nat) (w : MboxWait) (status : Nat) (payload : List (BitVec 8)) : State :=
  let ff := s.mboxFn nn
  let dev := s.statusWord ff
  let x := s.mboxSlot nn
  if s.mboxV1 w.ctx then
    s.setMboxSlot nn { x with waiting := none, reply := mboxBytes (2 ^ 32 - 1) status dev w.kind payload }
  else
    let s := s.setMboxSlot nn { x with waiting := none }
    if s.hostUp (ff / 8) (ff % 8) then
      s.hostWrite (ff / 8) (ff % 8) (bits (s.obj 0x9050 nn) 127 72 * 256) (mboxBytes w.tag status dev w.kind payload) false false
    else s

/-- The requests of context `n` that wait in a slot end: with CONTEXT_TORN_DOWN, or without a reply (R318, R406). -/
def mboxEnd (s : State) (n : Nat) (reply : Bool) : State :=
  s.mbox.foldl (fun t x =>
    match x.2.waiting with
    | some w =>
      if w.ctx = n then
        (if reply then t.mboxReply x.1 w Status.contextTornDown [] else t.setMboxSlot x.1 { x.2 with waiting := none })
      else t
    | none => t) s

/-- The requester of a slot's accesses: they never stall (R308). -/
def mboxReq (s : State) (nn n : Nat) : Req := { s.spineReq n (.mailbox nn) with mayStall := false }

/-- The owner under which a slot's frames to peers travel. -/
def mboxOwner (nn n : Nat) : OpRef := ⟨n, 2 ^ 40 + nn, 0⟩

/-- Runs the access of a READ or WRITE; none where it is held. -/
def mboxAccess (s : State) (nn : Nat) (w : MboxWait) (m : M (List (BitVec 8))) : Option State :=
  match m.run s with
  | .ok bytes t =>
    if w.kind = 2 ∧ t.unackedOf (mboxOwner nn w.ctx) then
      some (t.setMboxSlot nn { t.mboxSlot nn with waiting := some { w with sent := true } })
    else some (t.mboxReply nn w Status.ok bytes)
  | .error (.fail st _) t => some (t.mboxReply nn w st [])
  | .error (.remote r peer off va len) _ => some (s.requestRead r.who (payerOf s r.who) r.cls peer off va len)
  | .error _ _ => none

/-- Performs the READ or WRITE that slot `nn` holds (R307, R308); none where its access is held. -/
def mboxPerform (s : State) (nn : Nat) (w : MboxWait) : Option State :=
  let r := s.mboxReq nn w.ctx
  let va := leNat (w.payload.take 8)
  if w.kind = 1 then
    let n := leNat ((w.payload.drop 8).take 2)
    if n = 0 ∨ 240 < n then some (s.mboxReply nn w Status.descriptorInvalid [])
    else mboxAccess s nn w (readVA r va n)
  else
    mboxAccess s nn w (do
      writeVA r va (w.payload.drop 8)
      return [])

/-- A waiting request goes on after an answer of its peer: a WRITE ends when its frames are acknowledged, a READ is tried
again (R308). -/
def mboxResume (s : State) (nn : Nat) : State :=
  match (s.mboxSlot nn).waiting with
  | none => s
  | some w =>
    if w.sent then
      if s.unackedOf (mboxOwner nn w.ctx) then s else s.mboxReply nn w Status.ok []
    else (s.mboxPerform nn w).getD s

/-- A waiting request ends with a status of the fabric (R377, R383). -/
def mboxFail (s : State) (nn status : Nat) : State :=
  match (s.mboxSlot nn).waiting with
  | none => s
  | some w => s.mboxReply nn w status []

/-- The status with which a request is answered before it is performed, or none (R305, R307, R308). -/
def mboxStatus (s : State) (nn kind : Nat) (g : GoWord) : Option Nat :=
  let c := s.ctx g.context
  if g.reserved ≠ 0 ∨ 240 < g.len ∨ g.len < mboxNeeds kind ∨ (kind = 5 ∧ s.mboxV1 g.context = true) then
    some Status.descriptorInvalid
  else if c.phase = .closed then some Status.contextTornDown
  else if s.partFn c.partition ≠ s.mboxFn nn then some Status.faultPermission
  else if c.phase = .tearing then some Status.contextTornDown
  else none

/-- A go word of function `ff` in a slot: discarded and counted for a foreign or disabled slot, ignored and counted while
the slot is busy, otherwise checked and performed by `act` (R304, R305). -/
def mboxGo (s : State) (ff slot kind : Nat) (g : GoWord) (payload : List (BitVec 8))
    (act : State → Nat → MboxWait → State) : State :=
  let nn := ff / 8 * 32 + slot % 32
  if !s.portsUp then s
  else if !flag (s.obj 0x9050 nn) 0 || s.mboxFn nn != ff then s.addObj 0x9051 (ff / 8) 1
  else if (s.mboxSlot nn).waiting.isSome then s.addObj 0x9052 (ff / 8) 1
  else
    let w : MboxWait := { ctx := g.context, kind := kind, tag := g.tag, payload := payload.take g.len }
    match s.mboxStatus nn kind g with
    | some st => s.mboxReply nn w st []
    | none => act s nn w

/-- A READ or WRITE: the slot is busy from here to the reply, also while the tag of its space, or a unit that is starting, is awaited
(R305, R308). -/
def mboxMemory (s : State) (nn : Nat) (w : MboxWait) : State :=
  let s := s.setMboxSlot nn { s.mboxSlot nn with waiting := some w }
  match s.acquireTag w.ctx with
  | (t, false) => t
  | (t, true) => (t.mboxPerform nn w).getD t

/-- A READ or WRITE that waits goes on of itself: its tag is bound, or asked for, or its access is no longer held; none where nothing
has changed. -/
def mboxGoesOn (s : State) (nn : Nat) (x : MboxSlot) : Option State :=
  match x.waiting with
  | none => none
  | some w =>
    if w.sent then none
    else
      match s.acquireTag w.ctx with
      | (t, false) => if t.trans.tags = s.trans.tags then none else some t
      | (t, true) => t.mboxPerform nn w

/-- FENCE_SIGNAL (R307, R285): modes 1 to 3 only. -/
def mboxSignal (s : State) (nn : Nat) (w : MboxWait) : State :=
  let f := leNat ((w.payload.drop 8).take 2)
  let mode := leNat ((w.payload.drop 10).take 1)
  if mode = 0 ∨ 3 < mode then s.mboxReply nn w Status.descriptorInvalid []
  else if s.fenceInRange (s.ctx w.ctx).partition f = false then s.mboxReply nn w Status.faultPermission []
  else (s.applySignal ⟨f, mode, leNat (w.payload.take 8)⟩).mboxReply nn w Status.ok []

/-- FENCE_READ (R307, R285, R360). -/
def mboxFence (s : State) (nn : Nat) (w : MboxWait) : State :=
  let f := leNat (w.payload.take 2)
  if s.fenceInRange (s.ctx w.ctx).partition f = false then s.mboxReply nn w Status.faultPermission []
  else if s.fencePoisoned f then s.mboxReply nn w Status.poisonConsumed []
  else s.mboxReply nn w Status.ok (leBytes 8 (s.fence f))

/-- STATUS (R307). -/
def mboxQueue (s : State) (nn : Nat) (w : MboxWait) : State :=
  let c := s.ctx w.ctx
  let held := (c.entries.filter (·.pooled)).length
  s.mboxReply nn w Status.ok (leBytes 4 (s.qState w.ctx) ++ leBytes 4 c.consumed ++ leBytes 4 c.cqPosted ++ leBytes 1 held)

/-- The firmware writes the oldest waiting event into the log. An entry of the log that it overwrites before a reader has
acknowledged it counts as lost for that reader (R298). -/
def attentionLog (s : State) : State :=
  match s.attn.waiting with
  | [] => s
  | e :: rest =>
    let gone := s.attn.log.filter fun x => x.seq % 1024 == e.seq % 1024
    let s := gone.foldl loseEvent s
    { s with attn := { s.attn with
      waiting := rest
      log := (s.attn.log.filter fun x => x.seq % 1024 != e.seq % 1024) ++ [e] } }

end State

/-- MBOX_NOP (R307). -/
def execMboxNop (ff slot : Nat) (g : GoWord) (payload : List (BitVec 8)) (s : State) : Outcome State Fault Refusal :=
  .next (s.inTurn (some (ff / 8)) (.mboxNop ff slot g payload)
    (s.mboxGo ff slot 0 g payload fun t nn w => t.mboxReply nn w Status.ok []))

/-- MBOX_READ (R308). -/
def execMboxRead (ff slot : Nat) (g : GoWord) (payload : List (BitVec 8)) (s : State) : Outcome State Fault Refusal :=
  .next (s.inTurn (some (ff / 8)) (.mboxRead ff slot g payload)
    (s.mboxGo ff slot 1 g payload State.mboxMemory))

/-- MBOX_WRITE (R308). -/
def execMboxWrite (ff slot : Nat) (g : GoWord) (payload : List (BitVec 8)) (s : State) : Outcome State Fault Refusal :=
  .next (s.inTurn (some (ff / 8)) (.mboxWrite ff slot g payload)
    (s.mboxGo ff slot 2 g payload State.mboxMemory))

/-- MBOX_FENCE_SIGNAL (R307). -/
def execMboxFenceSignal (ff slot : Nat) (g : GoWord) (payload : List (BitVec 8)) (s : State) : Outcome State Fault Refusal :=
  .next (s.inTurn (some (ff / 8)) (.mboxFenceSignal ff slot g payload)
    (s.mboxGo ff slot 3 g payload State.mboxSignal))

/-- FENCE_READ (R307). -/
def execFenceRead (ff slot : Nat) (g : GoWord) (payload : List (BitVec 8)) (s : State) : Outcome State Fault Refusal :=
  .next (s.inTurn (some (ff / 8)) (.fenceRead ff slot g payload)
    (s.mboxGo ff slot 4 g payload State.mboxFence))

/-- MBOX_STATUS (R307). -/
def execMboxStatus (ff slot : Nat) (g : GoWord) (payload : List (BitVec 8)) (s : State) : Outcome State Fault Refusal :=
  .next (s.inTurn (some (ff / 8)) (.mboxStatus ff slot g payload)
    (s.mboxGo ff slot 5 g payload State.mboxQueue))

/-- ATTENTION_LOG_WRITE (R298): the firmware writes an event into the log. -/
def execAttentionLogWrite (s : State) : Outcome State Fault Refusal :=
  .next (if s.mgmtUp then s.attentionLog else s)

end Sys2Proof.Machine
end

