-- ==== Sys2Proof/Machine/Contexts.lean ====
section
/-! DEFINITION. Contexts (14_contexts_and_scheduling.md, 18_host_and_cxl_ports.md): creation, teardown, orphaning and
attachment. -/

namespace Sys2Proof.Machine

open Host (Outcome)

/-- What writing an action object comes to: the state, the item status, the value returned, and the contexts whose
teardown the answer waits for. -/
structure ActResult where
  state : State
  status : Nat := 0
  value : List (BitVec 8) := []
  waits : List Nat := []

/-- The host function a request acts for (R315, R423): the function of a BAR0 window, or of MCTP on a port. -/
def hostFnOf (r : Requester) : Option Nat :=
  match r.path with
  | .hostA => some (r.ident % 8)
  | .hostB => some (8 + r.ident % 8)
  | _ => none

namespace State

/-! ### Readiness (R464, R465, R468) -/

/-- `rdy_mgmt` (R464). -/
def rdyMgmt (s : State) : Nat := if !s.running then 0 else if s.mgmtUp then 2 else 1

/-- `port_state` of Sharel port `p` (R368). -/
def portState (s : State) (p : Nat) : Nat :=
  let x := s.sharelPort p
  if !x.up then (if s.running then 1 else 0)
  else if x.adjs.any (·.version == 2) then 3
  else if x.adjs.any (·.version == 1) then 4
  else 2

/-- A readiness object (R464); those of Weevils, Sharel ports and CXL links follow the units they report. -/
def ready? (s : State) (index sub : Nat) : Nat :=
  match index with
  | 0x2005 => if sub < 24 then s.obj 0x2004 (sub / 4) else s.obj 0x2003 ((sub - 24) / 4)
  | 0x2006 =>
    if 3 ≤ s.portState sub ∧ s.fabric.held then 2 else if s.portState sub = 0 then 0 else 1
  | 0x2007 =>
    match (s.cxlLink sub).state with
    | 0 => 0
    | 1 => 1
    | 2 => 2
    | _ => 3
  | 0x2008 => s.rdyMgmt
  | _ => s.obj index sub

/-- The attention of a readiness object that follows its unit and has changed to 2 or 3 (R465). -/
def noteReady (old s : State) (index sub : Nat) : State :=
  let v := s.ready? index sub
  if v = old.ready? index sub then s
  else if v = 2 then s.raiseAs 8 0 0xFF index sub 0 v
  else if v = 3 then s.raiseAs 8 2 0xFF index sub 0 v
  else s

/-- The same for every such object. -/
def noteAll (old s : State) : State :=
  let one := fun (t : State) (x : Nat × Nat) => noteReady old t x.1 x.2
  ((List.range 32).map (fun i => (0x2005, i)) ++ (List.range 6).map (fun i => (0x2006, i)) ++
    (List.range 4).map (fun i => (0x2007, i)) ++ [(0x2008, 1)]).foldl one s

/-- Every instance of a readiness object. -/
def readyAll (s : State) (index n : Nat) : List Nat := (List.range n).map fun i => s.ready? index i

/-- `accepting` (R468). -/
def accepting (s : State) : Bool :=
  s.rdyMgmt == 2 && (s.readyAll 0x2002 64).any (· == 2) &&
    ((s.readyAll 0x2004 6).any (· == 2) || (s.readyAll 0x2003 2).all (· == 2)) && (s.readyAll 0x2001 2).any (· == 2)

/-- `rdy_summary` (R465). -/
def rdySummary (s : State) : Nat :=
  let all := [(0x2001, 2), (0x2002, 64), (0x2003, 2), (0x2004, 6), (0x2005, 32), (0x2006, 6), (0x2007, 4)]
  let failed := all.any fun x => (s.readyAll x.1 x.2).any (· == 3)
  b2n (s.ready? 0x2001 0 == 2) + b2n (s.ready? 0x2001 1 == 2) * 2 + b2n failed * 4 +
    b2n ((s.readyAll 0x2002 64).any (· == 2)) * 8 + b2n ((s.readyAll 0x2002 64).all (· == 2)) * 16 +
    b2n ((s.readyAll 0x2003 2).all (· == 2)) * 32 + b2n ((s.readyAll 0x2004 6).any (· == 2)) * 64 +
    b2n ((s.readyAll 0x2004 6).all (· == 2)) * 128 + b2n ((s.readyAll 0x2006 6).any (· == 2)) * 256 +
    b2n ((s.readyAll 0x2007 4).any (· == 2)) * 512 + b2n (s.rdyMgmt == 2) * 1024 + b2n s.accepting * 2048

/-- A readiness object changes; a change to 2 or 3 raises attention (R465). -/
def setReady (s : State) (index sub v : Nat) : State :=
  if s.obj index sub = v then s
  else
    let s := s.setObj index sub v
    if v = 2 then s.raise 8 0 0xFF index sub 0
    else if v = 3 then s.raise 8 2 0xFF index sub 0
    else s

/-! ### Creation (R315, R316) -/

/-- The lowest free context number. -/
def freeCtx (s : State) : Option Nat := (List.range 1024).find? fun n => (s.ctx n).phase == .closed

/-- A root held in a valid `pin_space` entry (R211). -/
def pinnedRoot (s : State) (root : Nat) : Bool :=
  (List.range 8).any fun nn => flag (s.obj 0x3104 nn) 0 && bits (s.obj 0x3104 nn) 51 16 * 65536 == root

/-- Cluster `c` is held by an open class-0 context (R319). -/
def heldC0 (s : State) (c : Nat) : Bool :=
  s.ctxs.any fun x => x.2.phase != .closed && x.2.cls == 0 && flag x.2.c0 c

/-- The status with which a creation request fails R316, or OK. -/
def createStatus (s : State) (r : Requester) (w : Nat) : Nat :=
  let p := CtxReq.partition w
  let clusters := (List.range 64).filter fun c => flag (CtxReq.c0 w) c
  if !CtxReq.ok w then Status.descriptorInvalid
  else if !CtxReq.versionsOk w then Status.versionUnsupported
  else if !s.partValid p then Status.faultPermission
  else if (match hostFnOf r with
    | some f => s.partFn p != f
    | none => false) then Status.faultPermission
  else if CtxReq.placeRight w && (match hostFnOf r with
    | some f => f % 8 != 0
    | none => false) then Status.faultPermission
  else if CtxReq.cls w = 0 ∧ (!s.pinnedRoot (CtxReq.root w) || clusters.isEmpty || clusters.any fun c =>
    s.clusterPart c != p || !s.clusterReserved c || s.heldC0 c) then Status.descriptorInvalid
  else if CtxReq.cls w ≠ 0 ∧ CtxReq.c0 w ≠ 0 then Status.descriptorInvalid
  else if s.freeCtx.isNone then Status.internal
  else Status.ok

/-- The queue descriptor of a request (R277). -/
def queueDesc (w : Nat) : QDesc :=
  { queue := CtxReq.queue w, vector := CtxReq.vector w, msixEn := CtxReq.msixEn w, cqLog2 := CtxReq.cqLog2 w,
    sqLog2 := CtxReq.sqLog2 w, cqBase := CtxReq.cqBase w, sqBase := CtxReq.sqBase w }

/-- The context a request creates (R315, R317). -/
def newCtx (s : State) (w : Nat) : Ctx :=
  let p := CtxReq.partition w
  { phase := .opened, partition := p, cls := CtxReq.cls w, shared := CtxReq.shared w,
    readback := CtxReq.readback w || CtxReq.verQuire w == 2, placeRight := CtxReq.placeRight w,
    verQuire := CtxReq.verQuire w, verCpl := CtxReq.verCpl w, verMbox := CtxReq.verMbox w, root := CtxReq.root w,
    c0 := CtxReq.c0 w, q := queueDesc w, port := s.partFn p / 8, fn := s.partFn p % 8 }

/-- The result of a creation: status in bits [31:16], context in bits [9:0] (R316). -/
def createValue (status n : Nat) : List (BitVec 8) := leBytes 8 (status * 2 ^ 16 + n)

/-- CTX_CREATE: refused with INTERNAL and 0x40 while the device accepts no contexts (R468). -/
def ctxCreate (s : State) (r : Requester) (w : Nat) : ActResult :=
  if !s.accepting then { state := s, value := createValue Status.internal 0x40 }
  else
    let st := s.createStatus r w
    match s.freeCtx with
    | some n =>
      if st ≠ Status.ok then { state := s, value := createValue st 0 }
      else
        let s := s.setCtx n (s.newCtx w)
        let s := (List.range 64).foldl (fun t c =>
          if CtxReq.cls w = 0 ∧ flag (CtxReq.c0 w) c then t.setCluster c { t.cluster c with resident := some n } else t) s
        { state := s, value := createValue Status.ok n }
    | none => { state := s, value := createValue st 0 }

/-! ### Teardown (R303, R318) -/

/-- A folio change of a torn-down context ends: a copy not yet in force is dropped, a change in force is drained. -/
def dropChanges (s : State) (n : Nat) : State :=
  let mine := s.tiers.redirs.filter fun x => x.owner.ctx == n
  let s := mine.foldl (fun t x => t.dropRange (s.ctx n).root x.folio.va x.folio.size) s
  { s with tiers := { s.tiers with redirs := s.tiers.redirs.filter fun x => x.owner.ctx != n } }

/-- A requester belongs to context `n`. -/
def whoOf (s : State) (n : Nat) (w : Who) : Bool :=
  match w with
  | .spine m => m == n
  | .op o _ => o.ctx == n
  | .row o _ _ => o.ctx == n
  | .core k => ((s.core k).task).any fun t => t.o.ctx == n
  | .engine cc e => (s.engine cc e).bufs.any fun b => b.o.ctx == n
  | .mailbox nn => ((AMap.getD s.mbox nn {}).waiting).any fun x => x.ctx == n
  | .port _ => false
  | .fabric _ _ => false

/-- Every access and slice of a context is dropped from the units (step 2 of R318), and its unsent frames (R392). -/
def stopWork (s : State) (n : Nat) : State :=
  let gone := s.whoOf n
  let s := (s.dropUnsent n).dropRequests fun o => o.ctx == n
  let s : State := { s with
    trans := { s.trans with
      stalls := s.trans.stalls.filter fun x => x.req.ctx != n
      walks := s.trans.walks.filter fun x => x.req.ctx != n
      failing := s.trans.failing.filter fun x => !gone x.1
      tagWaiters := s.trans.tagWaiters.filter (· != n)
      drains := s.trans.drains.filter fun d => match d with
        | .op o => o.ctx != n
        | .tag _ => true }
    fabric := { s.fabric with reads := s.fabric.reads.filter fun x => !gone x.who }
    weevils := { s.weevils with
      queues := s.weevils.queues.map fun (x : Nat × List SliceRef) => (x.1, x.2.filter fun q => q.o.ctx != n)
      updates := s.weevils.updates.map fun (x : Nat × List HeldUpdate) => (x.1, x.2.filter fun q => q.o.ctx != n)
      hive := s.weevils.hive.map fun (x : Nat × HiveEntry) =>
        (x.1, { x.2 with evictor := x.2.evictor.filter fun o => o.ctx != n }) }
    cores := s.cores.map fun (x : Nat × Core) =>
      if x.2.task.any (fun t => t.o.ctx == n) || x.2.image.any (fun i => i.o.ctx == n) then
        (x.1, ({ mustPass := x.2.mustPass } : Core)) else x
    engines := s.engines.map fun (x : Nat × Engine) =>
      (x.1, { x.2 with bufs := x.2.bufs.filter (fun b => b.o.ctx != n), foreign := x.2.foreign.filter (fun b => b.o.ctx != n) })
    clusters := s.clusters.map fun (x : Nat × Cluster) => (x.1, { x.2 with
      queue := x.2.queue.filter (fun q => q.o.ctx != n)
      devArea := x.2.devArea.filter fun o => o.ctx != n }) }
  State.dropChanges s n

/-- Records that a teardown writes: those already made first, then CONTEXT_TORN_DOWN for the rest (R303). -/
def tearRecords (c : Ctx) : List Rec :=
  (c.entries.filterMap (·.record)) ++
    ((c.entries.filter fun e => e.record.isNone).map fun e => ({ seq := e.seq, status := Status.contextTornDown } : Rec))

/-- Writes the records of a teardown, each only where it can be written: they stop at the first that cannot, and wait with their
context while a tag or the posted word path is awaited (R303). -/
def writeRecords (s : State) (n : Nat) : List Rec → State
  | [] => s.setCtx n { s.ctx n with tearing := [] }
  | r :: rs =>
    match s.tryRecord n r false with
    | .written t => writeRecords (t.checkWake n) n rs
    | .wait t => t.setCtx n { t.ctx n with tearing := r :: rs }
    | .held _ t => t.setCtx n { t.ctx n with tearing := [] }
    | .full => s.setCtx n { s.ctx n with tearing := [] }

/-- The teardown of a context begins (steps 1 to 3 of R318). `records` says whether it writes records: a requested one
does unless the context is orphaned (R303, R406). -/
def beginTeardown (s : State) (n : Nat) (records : Bool) : State :=
  let c := s.ctx n
  if c.phase != .opened then s
  else
    let s := s.stopWork n
    let s := if records && !c.orphaned then s.writeRecords n (tearRecords c) else s
    let s := s.mboxEnd n true
    let pins := c.entries.filterMap (·.graph)
    let s := s.setCtx n { s.ctx n with phase := .tearing, entries := [], mode := .run }
    (pins.foldl (fun t p => t.unpin (some p)) s).repool

/-- Writes of the context's ops that have not been acknowledged: frames to peers, and stores in the posted word path. -/
def ctxUnacked (s : State) (n : Nat) : Bool :=
  (s.fabric.send.any fun e => e.2.unacked.any fun f => f.2.any fun p => p.o.ctx == n) || s.path.any fun e => e.o.ctx == n

/-- The graphs of a context unbound (R274). -/
def unbindAll (s : State) (n : Nat) : State :=
  s.graphs.foldl (fun t g =>
    if g.2.ctx = n then
      ({ t with graphs := AMap.set t.graphs g.1 { g.2 with unbound := true, gens := g.2.gens.map fun (x : Gen) => { x with pins := 0 } } }
        ).freeGens g.1
    else t) s

/-- Swap slots of the context freed on every cluster, and its residency ended (R318, R320). -/
def freeClusters (s : State) (n : Nat) : State :=
  { s with clusters := s.clusters.map fun (x : Nat × Cluster) => (x.1, { x.2 with
      saved := AMap.erase x.2.saved n
      resident := x.2.resident.filter (· != n)
      needsRetry := x.2.needsRetry && x.2.resident != some n }) }

/-- Bits [79:64] of a reply's header: the requester's status word, filled in when the reply leaves (R426). -/
def stampReply (dev : Nat) (bs : List (BitVec 8)) : List (BitVec 8) := bs.take 8 ++ leBytes 2 dev ++ bs.drop 10

/-- The reader whose status word a path's replies carry (R426). -/
def readerOf (r : Requester) : Nat :=
  match r.path with
  | .mgmt => 16
  | .i3c => 17
  | .hostA => r.ident % 8
  | .hostB => 8 + r.ident % 8

/-- A party's kept replies with one more, at most 16 (R430). -/
def keepReply (s : State) (p : Party) (tag : Nat) (bs : List (BitVec 8)) : State :=
  let old := ((s.amiso.kept.find? fun x => x.1 == p).map (·.2)).getD []
  let new := ((tag, bs) :: old.filter fun x => x.1 != tag).take 16
  { s with amiso := { s.amiso with kept := (p, new) :: s.amiso.kept.filter fun x => x.1 != p } }

/-- The party of a requester (R430, R434). -/
def partyOf (r : Requester) : Party := if r.session = 0 then .plain r.path r.ident else .session r.session

/-- A message as it leaves: the status word stamped, and with a key the trailer of R442. -/
def sealReply (s : State) (r : Requester) (key bs : List (BitVec 8)) : List (BitVec 8) :=
  let bs := stampReply (s.statusWord (readerOf r)) bs
  if key.isEmpty then bs else bs ++ kmac256 key bs 128 "AMISO MSG"

/-- Puts a finished reply on its carrier: into the window of a function whose request of this tag is being performed (R433),
otherwise as a message. -/
def carryReply (s : State) (r : Requester) (tag : Option Nat) (bs : List (BitVec 8)) : State :=
  match hostFnOf r, tag with
  | some f, some t =>
    let w := AMap.getD s.wins f {}
    if w.phase = 1 ∧ leNat ((w.req.drop 4).take 4) = t then { s with wins := AMap.set s.wins f { w with reply := bs, phase := 2 } }
    else s.send (.amiso r.path r.ident bs)
  | _, _ => s.send (.amiso r.path r.ident bs)

/-- Sends the reply to a message of a tag, kept for repeats (R430), or the bare result of one object. -/
def sendReply (s : State) (r : Requester) (tag : Option Nat) (key bs : List (BitVec 8)) : State :=
  match tag with
  | none => s.carryReply r tag bs
  | some t =>
    let bs := s.sealReply r key bs
    let known := r.session == 0 || s.amiso.sessions.any fun x => x.n == r.session
    (if known then s.keepReply (partyOf r) t bs else s).carryReply r tag bs

/-- Answers that waited for context `n` alone are sent (R312, R318, R435). -/
def releaseAnswers (s : State) (n : Nat) : State :=
  let l := s.amiso.answers.map fun a => { a with waits := a.waits.filter (· != n) }
  let s := { s with amiso := { s.amiso with answers := l.filter fun a => !a.waits.isEmpty } }
  (l.filter fun a => a.waits.isEmpty).foldl (fun t a => t.sendReply a.r a.tag a.key a.bytes) s

/-- TEARDOWN_COMPLETE (steps 4 and 5 of R318): once its last writes are acknowledged and its records written. -/
def teardownComplete (s : State) (n : Nat) : State :=
  let c := s.ctx n
  if c.phase != .tearing || s.ctxUnacked n then s
  else if !c.tearing.isEmpty && !((s.writeRecords n c.tearing).ctx n).tearing.isEmpty then s.writeRecords n c.tearing
  else
    let s := if c.tearing.isEmpty then s else s.writeRecords n c.tearing
    let s := (s.unbindAll n).freeClusters n
    let s := s.setCtx n {}
    (s.touchTag c.root).releaseAnswers n

/-- A write of `ctx_teardown`: from the context's own function, or with the operator role, which the caller has checked
(R318). A closed context has nothing to end. -/
def ctxTeardown (s : State) (r : Requester) (n : Nat) (operator : Bool) : ActResult :=
  let c := s.ctx n
  let own := match hostFnOf r with
    | some f => f == 8 * c.port + c.fn || s.partFn c.partition == f
    | none => false
  if !own && !operator then { state := s, status := 0x0202 }
  else if c.phase = .closed then { state := s, status := 0x0206 }
  else { state := s.beginTeardown n true, waits := [n] }

/-! ### Orphans (R405, R406) -/

/-- `ctx_owner` of context `n` (R407). -/
def ctxOwner (s : State) (n : Nat) : Nat :=
  let c := s.ctx n
  b2n c.orphaned * 128 + b2n c.attached * 16 + c.port * 8 + c.fn

/-- A shared context is orphaned (R405). -/
def orphan (s : State) (n : Nat) : State :=
  let c := s.ctx n
  if c.phase != .opened || !c.shared || c.orphaned then s
  else
    let s := (s.setCtx n { c with orphaned := true, wake := none }).mboxEnd n false
    s.raiseAs 6 2 0xFF (0x9070 + n / 256) (n % 256) 0 (s.ctxOwner n)

/-- The open contexts whose current owner is a function that meets a condition. -/
def ctxsOf (s : State) (p : Nat → Bool) : List Nat :=
  (s.ctxs.filter fun x => x.2.phase == .opened && p (8 * x.2.port + x.2.fn)).map (·.1)

/-- A write of `ctx_orphan` (R405); a context that is not shared is refused. -/
def ctxOrphan (s : State) (n : Nat) : ActResult :=
  let c := s.ctx n
  if c.phase = .opened ∧ c.shared ∧ c.orphaned = false then { state := s.orphan n } else { state := s, status := 0x0206 }

/-! ### Attachment (R408, R409) -/

/-- Fields of the attach request (R408). -/
def attachCtx (w : Nat) : Nat := bits w 265 256

/-- The valid standby function of a partition (R405). -/
def standby (s : State) (p : Nat) : Option Nat :=
  let v := s.obj 0x9061 p
  if flag v 7 then some ((1 - s.partFn p / 8) * 8 + bits v 2 0) else none

/-- The status with which an attach request fails R408, or OK. -/
def attachStatus (s : State) (f w : Nat) : Nat :=
  let c := s.ctx (attachCtx w)
  if bits w 511 266 ≠ 0 ∨ CtxReq.descOk w = false then Status.descriptorInvalid
  else if c.phase ≠ .opened then Status.contextTornDown
  else if c.shared = false ∨ c.orphaned = false then Status.faultPermission
  else if f ≠ s.partFn c.partition ∧ s.standby c.partition ≠ some f then Status.faultPermission
  else Status.ok

/-- Closed swarms that a port could not post wait there, each with a count and attention (R220). -/
def waitSwarm (s : State) (p : Nat) (w : Swarm) : State :=
  let x := s.swarmPort p
  (s.setSwarmPort p { x with closed := x.closed ++ [w], waited := true }).countRaise 3 1 (s.swarmParts w) 0x4202 p 0

/-- A new swarm of a port closed ahead of its open one, whose accesses take the sequence behind it. -/
def aheadOfOpen (s : State) (p : Nat) : State :=
  let q := (s.swarmPort p).nextSeq
  { s with trans := { s.trans with stalls := s.trans.stalls.map fun (x : Stall) =>
    if x.port == p && x.seq == some q then { x with seq := some ((q + 1) % 2 ^ 32) } else x } }

/-- Posts again, on the port of its new owner, the unanswered faults of a context that a swarm of the old port reported or was to
report (R221). -/
def repostSwarm (n old new : Nat) (t : State) (w : Swarm) : State :=
  let mine := w.entries.filter fun e => e.ctx == n && e.cls != 0
  let hit := fun (x : Stall) => x.req.ctx == n && x.port == old && x.seq == some w.seq
  if mine.isEmpty || !t.trans.stalls.any hit then t
  else if !t.ringEnabled new then
    let lost := t.trans.stalls.filter hit
    let t := { t with trans := { t.trans with
      stalls := t.trans.stalls.filter fun x => !hit x
      failing := t.trans.failing ++ lost.map fun (x : Stall) => (x.req.who, x.va / 4096, x.status) } }
    t.addObj 0x4203 new mine.length
  else
    let q := (t.swarmPort new).nextSeq
    let moved := t.trans.stalls.filter hit
    let t : State := { t with trans := { t.trans with stalls := t.trans.stalls.filter fun x => !hit x } }
    let t := t.aheadOfOpen new
    let t : State := { t with trans := { t.trans with
      stalls := t.trans.stalls ++ moved.map fun (x : Stall) => { x with port := new, seq := some q } } }
    let t := t.setSwarmPort new { t.swarmPort new with nextSeq := (q + 1) % 2 ^ 32 }
    let sw : Swarm := ⟨q, 2, mine⟩
    if t.canPost new && (t.swarmPort new).closed.isEmpty then t.postSwarm new sw 0 else t.waitSwarm new sw

/-- The unanswered swarms of the old port, posted or not, posted again for a context that has moved to another port; its accesses
without an entry walk again (R220, R221; DEDUCED, log entry 21). -/
def repostSwarms (s : State) (n old new : Nat) : State :=
  let x := s.swarmPort old
  let open_ : List Swarm := if x.opened.isEmpty then [] else [⟨x.nextSeq, 1, x.opened⟩]
  let t := (x.posted ++ x.closed ++ if old = new then [] else open_).foldl (repostSwarm n old new) s
  if old = new then t
  else
    let mine := t.trans.stalls.filter fun y => y.req.ctx == n && y.port == old && y.seq.isNone
    { t with trans := { t.trans with
      stalls := t.trans.stalls.filter fun y => !(y.req.ctx == n && y.port == old && y.seq.isNone)
      walks := t.trans.walks ++ mine.map fun (y : Stall) => (⟨y.req, y.va, y.access⟩ : Walk) } }

/-- CTX_ATTACH for host function `f` (R409). -/
def ctxAttach (s : State) (f w : Nat) : ActResult :=
  let n := attachCtx w
  let st := s.attachStatus f w
  if st ≠ Status.ok then { state := s, value := leBytes 16 (st * 2 ^ 16) }
  else
    let c := s.ctx n
    let old := c.port
    let d : Ctx := { c with
      orphaned := false, attached := f != s.partFn c.partition, port := f / 8, fn := f % 8, q := queueDesc w,
      produced := c.consumed, cqConsumed := c.cqPosted, wake := none, mode := .run }
    let posted := c.cqPosted
    let s := s.setCtx n d
    let s := s.issue n
    let s := s.repostSwarms n old (f / 8)
    { state := s, value := leBytes 16 (c.consumed * 2 ^ 64 + posted * 2 ^ 96) }

end State

/-- ORPHAN_MS_EXPIRY (R405): the shared contexts owned through a port whose link is still lost are orphaned. -/
def execOrphanMsExpiry (port : Nat) (s : State) : Outcome State Fault Refusal :=
  .next (if s.running && (s.hostPort port).link != 2 then
    (s.ctxsOf fun f => f / 8 == port).foldl (fun t n => t.orphan n) s else s)

/-- ORPHAN_LIMIT_EXPIRY (R406): the context is torn down and its held records are discarded; a limit of 0 never passes. -/
def execOrphanLimitExpiry (n : Nat) (s : State) : Outcome State Fault Refusal :=
  .next (if s.running && (s.ctx n).orphaned && s.obj 0x9062 2 != 0 then s.beginTeardown n false else s)

end Sys2Proof.Machine
end

