-- ==== Sys2Proof/Machine/Stitcher.lean ====
section
/-! DEFINITION. The Stitchers (12_quires_and_ops.md, R266 to R269): which clusters may take a slice, placement, the start and
the end of a slice's work. -/

namespace Sys2Proof.Machine

open Host (Outcome)

namespace State

/-- Both engines of a cluster are out of service (R55). -/
def enginesOut (s : State) (c : Nat) : Bool := (s.engine c 0).out && (s.engine c 1).out

/-- Cluster `c` is one that context `n`'s partition has for it (R83, R313, R319, R354). -/
def member (s : State) (n c : Nat) : Bool :=
  let x := s.ctx n
  s.clusterPart c == x.partition && s.clusterReserved c == (x.cls == 0) && (x.cls != 0 || flag x.c0 c) &&
    s.obj 0x5003 c != 3

/-- Cluster `c` may take a slice of context `n` for a unit class (R266, R267, R328, R464, R473). -/
def eligible (s : State) (n unit c : Nat) : Bool :=
  s.member n c && s.obj 0x2002 c == 2 && !(s.cluster c).moving && (s.cluster c).mode != .resetting &&
    (unit != 0 || !s.enginesOut c)

/-- The eligible clusters, ascending. -/
def eligibles (s : State) (n unit : Nat) : List Nat := (List.range 64).filter (s.eligible n unit)

/-- The unit class of a slice a Stitcher lists. -/
def refUnit (s : State) (r : SliceRef) : Nat := ((s.slice? r.o r.k).map (·.unit)).getD 9

/-- Cluster `c` is free for a class (R267); none is during a handover (R350). -/
def freeFor (s : State) (unit c : Nat) : Bool :=
  (s.cluster c).mode != .handover && decide ((s.cluster c).queue.length < 16) && !(s.cluster c).queue.any fun r => s.refUnit r == unit

/-- A slice put in the queue of a Stitcher. -/
def placeOn (s : State) (o : OpRef) (k c : Nat) : State :=
  let s := s.modSlice o k fun x => { x with place := some c, phase := .queued }
  let x := s.cluster c
  s.setCluster c { x with queue := x.queue ++ [⟨o, k⟩] }

/-- A sparing of one of the partition's clusters is in progress (R55, R268). -/
def sparingIn (s : State) (p : Nat) : Bool :=
  match s.sparing.active with
  | some (c, _, _) => s.clusterPart c == p
  | none => false

/-- A slice that no cluster can serve ends with DESCRIPTOR_INVALID, which fails its op once the op's other slices have
ended (R268, R269). -/
def unservable (s : State) (o : OpRef) (k : Nat) : State :=
  (s.modSlice o k fun y => { y with phase := .reported, status := Status.descriptorInvalid }).settleSlices o

/-- A slice dispatched before slice `k` of op `o` waits at the Spine for cluster `c`: one bound for it, or, where `unit` names a class,
one of that class that may go to any cluster (R267). -/
def outranked (s : State) (o : OpRef) (k c : Nat) (unit : Option Nat) : Bool :=
  let mine := ((s.op? o).map (·.order)).getD 0
  s.opsIn.any fun x => x.2.phase == .dispatched && x.2.slices.zipIdx.any fun y =>
    y.1.phase == .waiting && decide (y.1.unit ≤ 2) && (decide (x.2.order < mine) || (x.1 == o && decide (y.2 < k))) &&
      match y.1.place with
      | some d => d == c
      | none => unit == some y.1.unit && s.eligible x.1.ctx y.1.unit c

/-- Places one waiting slice where it may go now (R267, R268): on the Stitcher it is bound for while that holds fewer than
16 slices, otherwise on the lowest-numbered eligible cluster free for its class; those dispatched before it go first. -/
def placeSlice (s : State) (o : OpRef) (k : Nat) : State :=
  match s.op? o, s.slice? o k with
  | some x, some y =>
    if x.phase != .dispatched || y.phase != .waiting || decide (2 < y.unit) then s
    else
      match y.place with
      | some c =>
        if !s.eligible o.ctx y.unit c then s.modSlice o k fun z => { z with place := none }
        else if (s.cluster c).queue.length < 16 ∧ (s.cluster c).mode ≠ .handover ∧ s.outranked o k c none = false then s.placeOn o k c
        else s
      | none =>
        let es := s.eligibles o.ctx y.unit
        if es.isEmpty then
          if y.unit = 0 ∧ s.sparingIn (s.ctx o.ctx).partition then s else s.unservable o k
        else
          match es.find? fun c => s.freeFor y.unit c && !s.outranked o k c (some y.unit) with
          | some c => s.placeOn o k c
          | none => s
  | _, _ => s

/-- Places every slice of an op that can be placed at once. -/
def placeAll (s : State) (o : OpRef) : State :=
  match s.op? o with
  | none => s
  | some x => (List.range x.slices.length).foldl (fun t k => t.placeSlice o k) s

/-- A slice is the one its Stitcher works on in its class: the first of the resident context's (R267, R320). -/
def atHead (s : State) (c unit : Nat) : Option SliceRef :=
  let x := s.cluster c
  if x.mode != .serving then none
  else x.queue.find? fun r => x.resident == some r.o.ctx && s.refUnit r == unit

/-- Slice `k` of an op is at the head of its class on its cluster. -/
def heads (s : State) (o : OpRef) (k c : Nat) : Bool :=
  match s.slice? o k with
  | some y => s.running && y.place == some c && s.atHead c y.unit == some ⟨o, k⟩
  | none => false

/-- A slice starts its work: it runs, and its cluster's first start stamp of the quire is taken (R269, R293). -/
def startSlice (s : State) (o : OpRef) (k : Nat) : State :=
  match s.slice? o k with
  | some y =>
    if y.phase != .queued then s
    else
      let s := s.modSlice o k fun z => { z with phase := .running }
      match y.place with
      | some c =>
        if (s.quire? o).any fun q => (AMap.get? q.stamps c).isSome then s
        else
          let (t, s) := s.draw
          s.modQuire o.ctx o.entry fun q => { q with stamps := AMap.set q.stamps c (t, t) }
      | none => s
  | none => s

/-- The flags of a slice's ended tasks (R70). -/
def taskFlags (y : Slice) : Nat :=
  match y.work with
  | .tc _ fl _ => fl
  | _ => 0

/-- A slice stops for good with a status and the result word bits it gives; the flags of its tasks join its op's (R70). -/
def stopSlice (s : State) (o : OpRef) (k status low high : Nat) : State :=
  let fl := ((s.slice? o k).map taskFlags).getD 0
  (s.modOp o fun x => { x with flags := x.flags ||| fl * 8 }).modSlice o k fun y =>
    { y with phase := .ended, status := status, low := low, high := high }

/-- Some slice of a VECTOR_RUN has a stopped task, so no further task of the op starts (R85). -/
def opStopped (s : State) (o : OpRef) : Bool :=
  match s.op? o with
  | some x => x.slices.any fun y => match y.work with
    | .tc _ _ stop => stop.isSome
    | _ => false
  | none => false

/-- Cores that run tasks of a slice. -/
def tasksOf (s : State) (o : OpRef) (k : Nat) : List Nat :=
  (s.cores.filter fun x => x.2.task.any fun t => t.o == o && t.k == k).map (·.1)

/-- A VECTOR_RUN slice at the head of its class whose tasks have all ended, none being left to start (R85). -/
def tasksOver (s : State) (o : OpRef) (k : Nat) (y : Slice) : Bool :=
  match y.work with
  | .tc next _ _ => (s.tasksOf o k).isEmpty && (decide (y.hi ≤ next) || s.opStopped o)
  | _ => false

/-- A VECTOR_RUN slice ended on a cluster: one step for the canary count (R331, R339). -/
def countStep (s : State) (c : Nat) : State :=
  let n := s.obj 0x5039 c + 1
  if n < 64 then s.setObj 0x5039 c n
  else
    let x := s.cluster c
    (s.setObj 0x5039 c 0).setCluster c { x with canaryDue := (List.range 4).filter fun k => !flag (s.obj 0x5038 c) k }

/-- The slice leaves its Stitcher (R267), and its end stamp is taken (R293). -/
def leaveStitcher (s : State) (o : OpRef) (k c : Nat) : State :=
  let x := s.cluster c
  let s := s.setCluster c { x with
    queue := x.queue.filter fun q => q != ⟨o, k⟩
    devArea := x.devArea.filter fun p => p != o }
  let (t, s) := s.draw
  s.modQuire o.ctx o.entry fun q => { q with stamps := q.stamps.map fun e => if e.1 = c then (e.1, (e.2.1, t)) else e }

/-- A STREAM leaves central stream engine `e`; its queue is listed beside the leads' (R223). -/
def leaveCentral (s : State) (o : OpRef) (k e : Nat) : State :=
  let q := AMap.set s.weevils.queues (32 + e) ((AMap.getD s.weevils.queues (32 + e) []).filter fun q => q != ⟨o, k⟩)
  { s with weevils := { s.weevils with queues := q } }

/-- SLICE_END (R269): a slice whose work is over is reported to the Spine; the last one fixes the op's status. -/
def sliceEnd (s : State) (o : OpRef) (k : Nat) : State :=
  match s.slice? o k with
  | none => s
  | some y =>
    let c := y.place.getD 0
    let s :=
      if y.unit = 1 ∧ s.heads o k c ∧ (y.phase = .running ∨ y.phase = .queued) ∧ s.tasksOver o k y then
        match y.work with
        | .tc _ _ stop =>
          match stop with
          | some (_, st, cause) => s.stopSlice o k st cause 0
          | none => s.stopSlice o k Status.ok 0 0
        | _ => s
      else s
    match s.slice? o k with
    | some z =>
      if !s.running || z.phase != .ended || z.unit = 3 then s
      else
        let s := if z.unit ≤ 2 ∧ z.place.isSome then s.leaveStitcher o k c else s
        let s := if z.unit = 4 then s.leaveCentral o k c else s
        let s := if z.unit = 1 then s.countStep c else s
        (s.modSlice o k fun w => { w with phase := .reported }).settleSlices o
    | none => s

/-- Slices of a Stitcher that have not started go back to the Spine, to be placed anew (R55, R328, R473). -/
def returnSlices (s : State) (c : Nat) (p : SliceRef → Bool) : State :=
  let x := s.cluster c
  let back := x.queue.filter fun r => p r && (match s.slice? r.o r.k with
    | some y => y.phase == .queued
    | none => false)
  let s := back.foldl (fun t r => t.modSlice r.o r.k fun y => { y with phase := .waiting, place := none }) s
  s.setCluster c { x with queue := x.queue.filter fun r => !back.contains r }

/-- A task leaves its core: its flags join its slice's, its log words are freed, the core keeps its images. -/
def dropTask (s : State) (n : Nat) : State :=
  let c := s.core n
  match c.task with
  | none => s
  | some t =>
    let s := s.modSlice t.o t.k fun y => match y.work with
      | .tc next fl stop => { y with work := .tc next (fl ||| c.flags) stop }
      | _ => y
    s.setCore n { c with task := none }

/-- The stalled accesses that meet a condition are given up; what was to be told them is too (R322, R328). -/
def dropStalls (s : State) (p : Req → Bool) : State :=
  let gone := (s.trans.stalls.filter fun x => p x.req).map (·.req.who)
  { s with trans := { s.trans with
      stalls := s.trans.stalls.filter fun x => !p x.req
      walks := s.trans.walks.filter fun x => !p x.req
      failing := s.trans.failing.filter fun x => !gone.contains x.1 } }

/-- A requester is a core or an engine of cluster `c`, or works on a slice itself. -/
def unitOf (c : Nat) (w : Who) : Bool :=
  match w with
  | .core n => n / 4 == c
  | .engine cc _ => cc == c
  | _ => false

/-- The block index that a STREAM which is stopped gives in result word bits [31:16] (R229); 0 for other ops. -/
def blockReached (s : State) (o : OpRef) : Nat :=
  match s.op? o with
  | some x => match x.body with
    | .stream w => min w.blocks 0xFFFF
    | _ => 0
  | none => 0

/-- Running slices of a cluster that meet a condition stop, and their ops fail with a status and result word bits [7:0]; a
STREAM names the block it had reached (R229, R328, R352, R473). Their stalled accesses end with them. -/
def killSlices (s : State) (c : Nat) (p : SliceRef → Bool) (status low : Nat) : State :=
  let mine := (s.cluster c).queue.filter p
  let s := (s.cores.filter fun y => y.1 / 4 == c && y.2.task.any fun t => mine.contains ⟨t.o, t.k⟩).foldl
    (fun t y => t.dropTask y.1) s
  let s : State := { s with
    engines := s.engines.map fun (y : Nat × Engine) =>
      if y.1 / 2 = c then (y.1, { y.2 with bufs := y.2.bufs.filter (fun b => !mine.contains ⟨b.o, b.k⟩),
                                           foreign := y.2.foreign.filter (fun b => !mine.contains ⟨b.o, b.k⟩) })
      else y }
  let s := s.dropStalls fun r => (mine.any fun m => m.o.ctx == r.ctx) && (unitOf c r.who || mine.any fun m => r.who == .op m.o m.k)
  mine.foldl (fun t r => t.stopSlice r.o r.k status low (t.blockReached r.o)) s

/-- A replay, resume or restart is in progress on cluster `c` (R333): a tile waits for its run on the other engine, or a moved task
for its instruction to pass. -/
def replaying (s : State) (c : Nat) : Bool :=
  (!(s.engine c 0).foreign.isEmpty || !(s.engine c 1).foreign.isEmpty) ||
    (List.range 4).any fun k => (s.core (4 * c + k)).task.any (·.moved)

/-! ### Triggers and records of sparing (R348, R349) -/

/-- A trigger of a cluster's sparing: the cluster reads degraded; with `spare_auto` 1 its sparing is due, otherwise attention
is raised and `spare_request` is awaited. -/
def triggerSparing (s : State) (c : Nat) : State :=
  if s.obj 0x5003 c = 3 then s
  else
    let s := if s.obj 0x5003 c = 0 then s.setObj 0x5003 c 1 else s
    if s.obj 0x5004 1 = 1 then { s with sparing := { s.sparing with triggers := insertNat c s.sparing.triggers } }
    else s.raise 2 1 0xFF 0x5003 c 0

/-- The maps as they stand, entered in the repair fuses (R348): the state at power-on is loaded from here (R470). -/
def fuseMaps (s : State) : State :=
  let keep := fun (k : Nat) => k / 256 == 0x5002 || k / 256 == 0x4010 || k == objKey 0x5060 1
  { s with fuses := { s.fuses with
      maps := s.objs.filter fun e => keep e.1
      lanes := s.lanes, badClusters := s.sparing.badClusters, badChannels := s.sparing.badChannels } }

/-- One repair record written (R348); with none free, attention and no record. -/
def writeRepair (s : State) : State :=
  if s.obj 0x5060 1 = 0 then s.raise 8 1 0xFF 0x5060 1 0 else (s.setObj 0x5060 1 (s.obj 0x5060 1 - 1)).fuseMaps

end State

/-- SLICE_PLACEMENT (R267). -/
def execSlicePlacement (o : OpRef) (k : Nat) (s : State) : Outcome State Fault Refusal :=
  .next (if s.running then s.placeSlice o k else s)

/-- SLICE_END (R269). -/
def execSliceEnd (o : OpRef) (k : Nat) (s : State) : Outcome State Fault Refusal :=
  .next (if s.running then s.sliceEnd o k else s)

end Sys2Proof.Machine
end

