-- ==== Sys2Proof/Machine/TidyCore.lean ====
section
/-! DEFINITION. Tidy cores (04_tidy_cores.md): registers, elements and masks, memory seen from a core, the undo log of
15_silent_errors_and_replay.md, how a task stops, and how one instruction runs. -/

namespace Sys2Proof.Machine

open Host (Outcome)

/-! ### Instruction words (R64, R65) -/

namespace Tidy

/-- The word of an instruction with the common fields. -/
def word (cls op : Nat) (f : Fields) : Nat :=
  cls * 2 ^ 27 + f.dst % 32 * 2 ^ 22 + f.a % 32 * 2 ^ 17 + f.b % 32 * 2 ^ 12 + f.mask % 8 * 2 ^ 9 + f.zero % 2 * 2 ^ 8 +
    f.ew % 4 * 2 ^ 6 + op

/-- LDK and SHK. -/
def wordK (cls dst imm : Nat) : Nat := cls * 2 ^ 27 + dst % 32 * 2 ^ 22 + imm % 2 ^ 22

/-- BR. -/
def wordBr (cond a b off : Nat) : Nat :=
  0x05 * 2 ^ 27 + cond * 2 ^ 22 + a % 32 * 2 ^ 17 + b % 32 * 2 ^ 12 + off % 4096

/-- Bits [16:8] as a signed number: the 9-bit immediate or offset (R65). -/
def imm9 (f : Fields) : Int := toSigned 9 (f.b % 32 * 16 + f.mask % 8 * 2 + f.zero % 2)

/-- Element width in bits. -/
def width (ew : Nat) : Nat := 8 * 2 ^ (ew % 4)

/-- A word whose class and op R65 lists, the scalar forms of three classes included. -/
def listed (w : Nat) : Bool :=
  let op := bits w 5 0
  match bits w 31 27 with
  | 0x00 => decide (op ≤ 5) || (decide (8 ≤ op) && decide (op ≤ 0x0B))
  | 0x01 => decide (op ≤ 0x12)
  | 0x02 => decide (op ≤ 0x12)
  | 0x03 => true
  | 0x04 => true
  | 0x05 => bits w 26 25 == 0 && decide (bits w 24 22 ≤ 5)
  | 0x06 => true
  | 0x08 => decide (op ≤ 4)
  | 0x09 => decide (op ≤ 0x0C)
  | 0x10 => decide (op % 32 ≤ 0x0A) || (decide (0x0D ≤ op % 32) && decide (op % 32 ≤ 0x11))
  | 0x11 => decide (op % 32 ≤ 6)
  | 0x12 => decide (op ≤ 5) || (decide (8 ≤ op) && decide (op ≤ 0x0B))
  | 0x13 => decide (op % 32 ≤ 8)
  | 0x14 => decide (op ≤ 0x0B)
  | 0x15 => decide (op ≤ 7) || (decide (0x10 ≤ op) && decide (op ≤ 0x14)) || (decide (0x18 ≤ op) && decide (op ≤ 0x1A))
  | 0x16 => decide (op ≤ 1)
  | 0x17 => decide (op ≤ 1)
  | 0x18 => decide (op ≤ 5)
  | 0x1A => decide (op ≤ 7)
  | _ => false

/-- Scalar-pipe words carry zero in `mask` and `zero` where those fields are not reused (R65). -/
def plain (f : Fields) : Bool := f.mask % 8 == 0 && f.zero % 2 == 0

/-! ### Elements (R62) -/

/-- Elements of a register at a width. -/
def count (w : Nat) : Nat := 2048 / w

/-- Element `e` of a vector. -/
def elem (w : Nat) (v : BitVec 2048) (e : Nat) : Nat := (v.toNat >>> (w * e)) % 2 ^ w

/-- Every element of a vector. -/
def elems (w : Nat) (v : BitVec 2048) : List Nat := (List.range (count w)).map (elem w v)

/-- The number whose `w`-bit digits are given, lowest first. -/
def join (w : Nat) : List Nat → Nat
  | [] => 0
  | x :: xs => x % 2 ^ w + 2 ^ w * join w xs

/-- The vector of a list of elements. -/
def ofElems (w : Nat) (xs : List Nat) : BitVec 2048 := BitVec.ofNat 2048 (join w xs)

/-- Sign extension of a `w`-bit value to 64 bits. -/
def sext (w x : Nat) : Nat := ofSigned 64 (toSigned w x)

/-- Float format of an element width in float operations (R69). -/
def fmt (ew : Nat) : Fmt := if ew = 1 then bf16 else fp32

/-- Sticky flags of float conditions: `nv` bit 0, `of` 1, `uf` 2, `nx` 3 (R70). -/
def flagBits (x : FF) : Nat := b2n x.nv + b2n x.ovf * 2 + b2n x.uf * 4 + b2n x.nx * 8

/-- The `sat` flag (R70). -/
def satBit : Nat := 16

end Tidy

/-! ### Registers (R61) -/

namespace Core

/-- Scalar register `n`; s0 reads as zero. -/
def sreg (c : Core) (n : Nat) : Nat := if n % 32 = 0 then 0 else (AMap.getD c.s (n % 32) 0).toNat

/-- The core with a scalar register written; writes to s0 are discarded. -/
def setS (c : Core) (n v : Nat) : Core :=
  if n % 32 = 0 then c else { c with s := AMap.put 0 c.s (n % 32) (BitVec.ofNat 64 v) }

/-- Vector register `n`. -/
def vreg (c : Core) (n : Nat) : BitVec 2048 := AMap.getD c.v (n % 32) 0

def setV (c : Core) (n : Nat) (v : BitVec 2048) : Core := { c with v := AMap.put 0 c.v (n % 32) v }

/-- Mask register `n`; m0 reads as all ones. -/
def mreg (c : Core) (n : Nat) : BitVec 256 := if n % 8 = 0 then BitVec.allOnes 256 else AMap.getD c.m (n % 8) 0

/-- The core with a mask register written. -/
def setM (c : Core) (n : Nat) (v : BitVec 256) : Core :=
  if n % 8 = 0 then c else { c with m := AMap.put 0 c.m (n % 8) v }

/-- Element `e` is active under a mask (R66). -/
def active (c : Core) (m e : Nat) : Bool := (c.mreg m).getLsbD e

/-- Sticky flags raised. -/
def raiseFlags (c : Core) (x : Nat) : Core := { c with flags := c.flags ||| x }

/-- A vector result written under mask and `zero` (R66): `xs` gives each element's result and the flags it raises. -/
def writeV (c : Core) (f : Fields) (w : Nat) (xs : List (Nat × Nat)) : Core :=
  let old := c.vreg f.dst
  let ys := xs.mapIdx fun e x =>
    if c.active f.mask e then x.1 else if f.zero % 2 = 1 then 0 else Tidy.elem w old e
  let fl := (xs.mapIdx fun e x => if c.active f.mask e then x.2 else 0).foldl (· ||| ·) 0
  (c.setV f.dst (Tidy.ofElems w ys)).raiseFlags fl

end Core

/-! ### How a task stops (R85) -/

/-- The cause that a status gives when the access itself names none (R85); where the table lists no cause for it, the cause
is a free value (log entry 12). -/
def causeOf (status : Nat) (writes : Bool) (free : Nat) : Nat :=
  if status = Status.faultTranslation then 0x05
  else if status = Status.faultPermission ∧ writes then 0x06
  else if status = Status.poisonConsumed then 0x07
  else free % 256

namespace State

/-- A task stops with a status and a cause (R85): the slice keeps the lowest-indexed stopped task. -/
def stopTask (s : State) (n status cause : Nat) : State :=
  match (s.core n).task with
  | none => s
  | some t =>
    let s := (if cause = 0x07 then s.consumePoison else s).dropTask n
    s.modSlice t.o t.k fun y => match y.work with
      | .tc next fl stop =>
        let worse := match stop with
          | some (i, _, _) => decide (i < t.index)
          | none => false
        { y with work := .tc next fl (if worse then stop else some (t.index, status, cause)) }
      | _ => y

/-- An op met a replay that passed: it will complete OK_REPLAYED (R345), with attention of severity info. -/
def notePassed (s : State) (o : OpRef) (code sub : Nat) : State :=
  (s.modOp o fun x => { x with replayed := true }).raise 2 0 (2 ^ (s.ctx o.ctx).partition) code sub 0

/-- The requester that core `n` is for its task (R217). -/
def coreReq (s : State) (n : Nat) (t : Task) : Req :=
  let x := s.ctx t.o.ctx
  { who := .core n, ctx := t.o.ctx, cls := x.cls, part := x.partition, root := x.root, kind := 0, id := n / 4,
    cluster := some (n / 4), targets := 31, mayStall := true, fabric := false }

/-- Log words in use in a cluster (R336). -/
def logUsed (s : State) (cc : Nat) : Nat :=
  (List.range 4).foldl (fun k i => k + (((s.core (4 * cc + i)).task).map (·.log.length)).getD 0) 0

/-- A checked task that stops being restartable is counted once (R336, R345). -/
def unrestartable (s : State) (n : Nat) : State :=
  let c := s.core n
  match c.task with
  | some t =>
    if t.checked && t.restartable then
      (s.setCore n { c with task := some { t with restartable := false } }).addObj 0x5033 (n / 4) 1
    else s
  | none => s

/-- The first store of a checked task to a 128-byte word of the cluster store is logged before it is performed, while a log word
is free (R336). -/
def logWord (s : State) (n off : Nat) : State :=
  let c := s.core n
  match c.task with
  | some t =>
    let base := off / 128 * 128
    if !t.checked || t.log.any (fun u => u.off == base) then s
    else if s.logUsed (n / 4) < 3968 then
      let a := storeAddr (n / 4) base
      let u : Undo := ⟨base, s.readBytes a 128, (atomsOf a 128).filter s.poisonedAt⟩
      s.setCore n { c with task := some { t with log := u :: t.log } }
    else s.unrestartable n
  | none => s

/-- The logged words written back, newest first (R335). -/
def undoLog (s : State) (n : Nat) (t : Task) : State :=
  t.log.foldl (fun u x =>
    let a := storeAddr (n / 4) x.off
    let u := u.putBytes a x.old
    x.poisoned.foldl markPoison ((atomsOf a 128).foldl (fun v y =>
      { v with poison := v.poison.filter (· != y / 64) }) u)) s

end State

/-! ### Memory seen from a core (R74 to R80) -/

/-- Where an address of a core leads. -/
inductive CoreAddr where
  | data (off : Nat)
  | store (off : Nat)
  | virtual (va : Nat)
  | none
deriving DecidableEq, Repr

/-- The target of `n` bytes at a 64-bit address (R74, R90). -/
def coreAddr (a n : Nat) : CoreAddr :=
  if a < 2 ^ 63 then (if a + n ≤ 2 ^ 52 then .virtual a else .none)
  else
    let x := a - 2 ^ 63
    if x + n ≤ 0x10000 then .data x
    else if 0x400000 ≤ x ∧ x + n ≤ 0x400000 + 0x300000 then .store (x - 0x400000)
    else .none

/-- Bytes of a core's data memory. -/
def dataBytes (c : Core) (off : Nat) : Nat → List (BitVec 8)
  | 0 => []
  | n + 1 => AMap.getD c.dmem off 0 :: dataBytes c (off + 1) n

/-- A core's data memory with bytes written. -/
def putData (m : AMap (BitVec 8)) (off : Nat) : List (BitVec 8) → AMap (BitVec 8)
  | [] => m
  | b :: bs => putData (AMap.put 0 m off b) (off + 1) bs

namespace State

/-- Accesses of core `n` outside its data memory and its own store that are outstanding (R75): its stores in the path, its frames
that peers have not acknowledged, and its reads of peers. -/
def coreBusy (s : State) (n : Nat) : Nat :=
  (s.path.foldl (fun k e => if e.core = n then k + e.stores else k) 0) +
    (s.fabric.send.foldl (fun k e => k + (e.2.unacked.filter fun f => f.2.any fun p => p.who == .core n).length) 0) +
    (s.fabric.reads.filter fun x => x.who == .core n && !x.finished).length

/-- The 16 outstanding accesses of core `n` are in use: the next one waits (R75). -/
def coreFull (s : State) (n : Nat) : Bool := decide (16 ≤ s.coreBusy n)

/-- A store of core `n` to a byte of `[va, va + k)` has not left the path: a load returns it only after that (R77). -/
def storeAhead (s : State) (n va k : Nat) : Bool :=
  s.path.any fun e => decide (e.core = n) && decide (e.va < va + k) && decide (va < e.va + e.bytes.length)

/-- Core `n`'s stores to CXL and to peers have been acknowledged; those to near device memory are performed at once (R77). -/
def peersDone (s : State) (n : Nat) : Bool :=
  !(s.path.any fun e => e.core == n && decide (2 ≤ e.target.lane)) &&
    !s.fabric.send.any fun e => e.2.unacked.any fun f => f.2.any fun p => p.who == .core n

/-- Core `n`'s stores to host ports have left the path. -/
def hostDone (s : State) (n : Nat) : Bool := !s.path.any fun e => e.core == n && decide (e.target.lane < 2)

end State

/-- A load of `k` bytes by core `n` (R74 to R77). A poisoned atom fails it. -/
def coreLoad (n a k : Nat) : M Nat := do
  let s ← get
  match (s.core n).task, coreAddr a k with
  | some _, .data off => return leNat (dataBytes (s.core n) off k)
  | some _, .store off =>
    let p := storeAddr (n / 4) off
    if s.anyPoison p k then failWith Status.poisonConsumed
    return s.readNat p k
  | some t, .virtual va =>
    if s.coreFull n || s.storeAhead n va k then throw .hold
    readNum (s.coreReq n t) va k
  | _, _ => throw (.fail Status.faultPermission 0x03)

/-- Ports with stores outstanding, the first address of each. -/
def addPort (l : List (Nat × Nat)) (p a : Nat) : List (Nat × Nat) := if l.any fun x => x.1 == p then l else l ++ [(p, a)]

/-- A store of bytes of one aligned 256-byte block at a virtual address: to near device memory at once, otherwise into the posted
word path (R74, R75, R232). -/
def storeWord (n : Nat) (t : Task) (va : Nat) (bytes : List (BitVec 8)) (ro : Bool) : M Unit := do
  if (← get).coreFull n then throw .pause
  let r := (← get).coreReq n t
  let x : PathEntry := { core := n, cls := r.cls, o := t.o, index := t.index, target := .cxl, va := va, addr := 0,
                         bytes := bytes, ro := ro }
  match ← translate r va .write with
  | .poison => throw (.fail Status.poisonConsumed 0)
  | .device a =>
    modify fun s => s.noteUse r va bytes.length true
    if placeOf a = .far then enterPath { x with addr := a } else writeDevice r a bytes []
  | .peer p off => enterPath { x with target := .peer p, addr := off }
  | .host p a =>
    let f := (← get).reqFn r.ctx p
    if !(← get).hostUp p f then throw (.fail Status.hostWriteFailed 0)
    enterPath { x with target := .host p f, addr := a }
    modify fun s =>
      let c := s.core n
      (notePort (some t.o) p a s).setCore n { c with outstanding := addPort c.outstanding p a }
  modify fun s => s.unrestartable n

/-- The pieces of a store of consecutive bytes: cut at aligned 256-byte blocks where the address is virtual (R232). -/
def storePieces : Nat → Nat → List (BitVec 8) → List (Nat × List (BitVec 8))
  | 0, _, _ => []
  | fuel + 1, a, bytes =>
    if bytes.isEmpty then []
    else if 2 ^ 63 ≤ a then [(a, bytes)]
    else
      let k := 256 - a % 256
      (a, bytes.take k) :: storePieces fuel (a + k) (bytes.drop k)

/-- A store of one piece by core `n` (R74, R78, R90, R235, R336). `ro` says whether it may carry Relaxed Ordering. -/
def storePiece (n a : Nat) (bytes : List (BitVec 8)) (ro : Bool) : M Unit := do
  let s ← get
  match (s.core n).task, coreAddr a bytes.length with
  | some _, .data off =>
    let c := s.core n
    set (s.setCore n { c with dmem := putData c.dmem off bytes })
  | some _, .store off =>
    let s := (List.range (ceilDiv (off % 128 + bytes.length) 128)).foldl (fun t i => t.logWord n (off / 128 * 128 + 128 * i)) s
    set (s.write (storeAddr (n / 4) off) bytes)
  | some t, .virtual va => storeWord n t va bytes ro
  | _, _ => throw (.fail Status.faultPermission 0x03)

/-- The pieces stored in order, those that core `n` has made already left out (R75): `i` is the number of the first. -/
def storeAll (n : Nat) (ro : Bool) : Nat → List (Nat × List (BitVec 8)) → M Unit
  | _, [] => return ()
  | i, (a, bytes) :: rest => do
    if ((← get).core n).done ≤ i then
      storePiece n a bytes ro
      modify fun s => s.setCore n { s.core n with done := i + 1 }
    storeAll n ro (i + 1) rest

/-- A store of consecutive bytes by core `n`. -/
def coreStore (n a : Nat) (bytes : List (BitVec 8)) (ro : Bool) : M Unit :=
  storeAll n ro 0 (storePieces bytes.length a bytes)

/-! ### One instruction -/

namespace State

/-- Core `n` may execute: its task's context is resident on a serving cluster. -/
def coreRuns (s : State) (n : Nat) : Bool :=
  match (s.core n).task with
  | none => false
  | some t =>
    s.running && (s.cluster (n / 4)).mode == .serving && (s.cluster (n / 4)).resident == some t.o.ctx

/-- A retry in place is counted, whether the instruction then passes or stops its task by a fault of its own (R334, R345). -/
def noteRetry (s : State) (x : At) (t : Task) : State :=
  if x.retried then (s.addObj 0x5030 (x.core / 4) 1).notePassed t.o 0x5030 (x.core / 4) else s

/-- An instruction passed: a retry in place is counted, and a task that had moved goes on (R334). -/
def notePass (s : State) (x : At) (t : Task) : State :=
  let s := s.noteRetry x t
  let s := if t.moved then s.notePassed t.o 0x5031 (x.core / 4) else s
  if t.moved || t.refetched then
    let c := s.core x.core
    s.setCore x.core { c with task := c.task.map fun u => { u with moved := false, refetched := false } }
  else s

/-- Runs the instruction whose word is `w` on its core, when the core executes and that word stands at its program counter
(R61, R64). An illegal word stops the task with cause 0x01 (R65, R85). `body` computes on the core with its program counter
already past the instruction; `writes` says whether the instruction stores. -/
def tidy (s : State) (x : At) (w : Nat) (legal writes : Bool) (body : Core → M Core) : State :=
  let c := s.core x.core
  match c.task with
  | none => s
  | some t =>
    if !s.coreRuns x.core then s
    else
      let here := AMap.getD c.imem c.pc 0
      if !Tidy.listed here then s.stopTask x.core Status.descriptorInvalid 0x01
      else if here ≠ w then s
      else if !legal then s.stopTask x.core Status.descriptorInvalid 0x01
      else
        let act : M Unit := do
          let c' ← body { c with pc := (c.pc + 1) % 16384, done := 0 }
          let u ← get
          let now := u.core x.core
          set (u.setCore x.core { c' with task := now.task, outstanding := now.outstanding, dmem := now.dmem, done := 0 })
        s.runM act
          (fun _ u => u.notePass x t)
          (fun st code u =>
            let (v, u) := (u.noteRetry x t).draw
            u.stopTask x.core st (if code ≠ 0 then code else causeOf st writes v))

end State

/-- An outcome that is always a next state. -/
def tidyNext (s : State) (x : At) (w : Nat) (legal writes : Bool) (body : Core → M Core) : Outcome State Fault Refusal :=
  .next (s.tidy x w legal writes body)

end Sys2Proof.Machine
end

