-- ==== Sys2Proof/Machine/TidyScalar.lean ====
section
/-! DEFINITION. The scalar pipe of a tidy core (04_tidy_cores.md, R65): system instructions, ALU, constants, branches and
jumps. -/

namespace Sys2Proof.Machine

open Host (Outcome)

namespace Tidy

/-! ### Integer results on `w`-bit operands (R65, R68) -/

/-- A signed value clamped to `w` bits, and whether it was clamped (R68). -/
def clampS (w : Nat) (x : Int) : Nat × Bool :=
  let lo : Int := -((2 ^ (w - 1) : Nat) : Int)
  let hi : Int := ((2 ^ (w - 1) : Nat) : Int) - 1
  if x < lo then (ofSigned w lo, true) else if hi < x then (ofSigned w hi, true) else (ofSigned w x, false)

/-- A value clamped to the unsigned range of `w` bits. -/
def clampU (w : Nat) (x : Int) : Nat × Bool :=
  if x < 0 then (0, true) else if ((2 ^ w : Nat) : Int) ≤ x then (2 ^ w - 1, true) else (x.toNat, false)

/-- A clamped result with the flags it raises. -/
def satFlag (r : Nat × Bool) : Nat × Nat := (r.1, if r.2 then satBit else 0)

/-- Operation `op` of the ALU and of the wrapping vector class on two `w`-bit operands: the low `w` bits of the result
and the flags raised. -/
def alu (w op a b : Nat) : Nat × Nat :=
  match op with
  | 0x00 => ((a + b) % 2 ^ w, 0)
  | 0x01 => ((a + 2 ^ w - b) % 2 ^ w, 0)
  | 0x02 => ((a * b) % 2 ^ w, 0)
  | 0x03 => ((ofSigned w ((toSigned w a * toSigned w b) / ((2 ^ w : Nat) : Int))) % 2 ^ w, 0)
  | 0x04 => ((a * b / 2 ^ w) % 2 ^ w, 0)
  | 0x05 => ((a &&& b) % 2 ^ w, 0)
  | 0x06 => ((a ||| b) % 2 ^ w, 0)
  | 0x07 => ((a ^^^ b) % 2 ^ w, 0)
  | 0x08 => ((a <<< (b % w)) % 2 ^ w, 0)
  | 0x09 => ((a >>> (b % w)) % 2 ^ w, 0)
  | 0x0A => ((ofSigned w (toSigned w a / ((2 ^ (b % w) : Nat) : Int))) % 2 ^ w, 0)
  | 0x0B => ((b2n (decide (toSigned w a < toSigned w b))) % 2 ^ w, 0)
  | 0x0C => ((b2n (decide (a < b))) % 2 ^ w, 0)
  | 0x0D => ((if toSigned w b < toSigned w a then b else a) % 2 ^ w, 0)
  | 0x0E => ((if toSigned w a < toSigned w b then b else a) % 2 ^ w, 0)
  | 0x0F => ((Nat.min a b) % 2 ^ w, 0)
  | 0x10 => ((Nat.max a b) % 2 ^ w, 0)
  | 0x11 => satFlag (clampS w (toSigned w a + toSigned w b))
  | 0x12 => satFlag (clampS w (toSigned w a - toSigned w b))
  | _ => (0, 0)

/-- The 64-bit result of a scalar ALU operation: sign-extended, but zero-extended for SLTU, MINU and MAXU (R65). -/
def aluOut (w op r : Nat) : Nat := if op = 0x0C ∨ op = 0x0F ∨ op = 0x10 then r else sext w r

end Tidy

/-- A scalar ALU operation on two operands of which the low `w` bits count (R65). -/
def aluStep (f : Fields) (op b : Nat) (c : Core) : Core :=
  let w := Tidy.width f.ew
  let (r, fl) := Tidy.alu w op (c.sreg f.a % 2 ^ w) (b % 2 ^ w)
  (c.setS f.dst (Tidy.aluOut w op r)).raiseFlags fl

/-- An instruction of class 0x01. -/
def State.aluReg (s : State) (x : At) (op : Nat) (f : Fields) : State :=
  s.tidy x (Tidy.word 0x01 op f) (Tidy.plain f) false fun c => return aluStep f op (c.sreg f.b) c

/-- An instruction of class 0x02. -/
def State.aluImm (s : State) (x : At) (op : Nat) (f : Fields) : State :=
  s.tidy x (Tidy.word 0x02 op f) true false fun c =>
    return aluStep f op (ofSigned 64 (Tidy.imm9 f)) c

/-- ADD (R65). -/
def execAdd (x : At) (f : Fields) (s : State) : Outcome State Fault Refusal := .next (s.aluReg x 0x00 f)

/-- SUB (R65). -/
def execSub (x : At) (f : Fields) (s : State) : Outcome State Fault Refusal := .next (s.aluReg x 0x01 f)

/-- MUL (R65). -/
def execMul (x : At) (f : Fields) (s : State) : Outcome State Fault Refusal := .next (s.aluReg x 0x02 f)

/-- MULH (R65). -/
def execMulh (x : At) (f : Fields) (s : State) : Outcome State Fault Refusal := .next (s.aluReg x 0x03 f)

/-- MULHU (R65). -/
def execMulhu (x : At) (f : Fields) (s : State) : Outcome State Fault Refusal := .next (s.aluReg x 0x04 f)

/-- AND (R65). -/
def execAnd (x : At) (f : Fields) (s : State) : Outcome State Fault Refusal := .next (s.aluReg x 0x05 f)

/-- OR (R65). -/
def execOr (x : At) (f : Fields) (s : State) : Outcome State Fault Refusal := .next (s.aluReg x 0x06 f)

/-- XOR (R65). -/
def execXor (x : At) (f : Fields) (s : State) : Outcome State Fault Refusal := .next (s.aluReg x 0x07 f)

/-- SLL (R65, R68). -/
def execSll (x : At) (f : Fields) (s : State) : Outcome State Fault Refusal := .next (s.aluReg x 0x08 f)

/-- SRL (R65, R68). -/
def execSrl (x : At) (f : Fields) (s : State) : Outcome State Fault Refusal := .next (s.aluReg x 0x09 f)

/-- SRA (R65, R68). -/
def execSra (x : At) (f : Fields) (s : State) : Outcome State Fault Refusal := .next (s.aluReg x 0x0A f)

/-- SLT (R65). -/
def execSlt (x : At) (f : Fields) (s : State) : Outcome State Fault Refusal := .next (s.aluReg x 0x0B f)

/-- SLTU (R65). -/
def execSltu (x : At) (f : Fields) (s : State) : Outcome State Fault Refusal := .next (s.aluReg x 0x0C f)

/-- MIN (R65). -/
def execMin (x : At) (f : Fields) (s : State) : Outcome State Fault Refusal := .next (s.aluReg x 0x0D f)

/-- MAX (R65). -/
def execMax (x : At) (f : Fields) (s : State) : Outcome State Fault Refusal := .next (s.aluReg x 0x0E f)

/-- MINU (R65). -/
def execMinu (x : At) (f : Fields) (s : State) : Outcome State Fault Refusal := .next (s.aluReg x 0x0F f)

/-- MAXU (R65). -/
def execMaxu (x : At) (f : Fields) (s : State) : Outcome State Fault Refusal := .next (s.aluReg x 0x10 f)

/-- ADDS (R65, R68). -/
def execAdds (x : At) (f : Fields) (s : State) : Outcome State Fault Refusal := .next (s.aluReg x 0x11 f)

/-- SUBS (R65, R68). -/
def execSubs (x : At) (f : Fields) (s : State) : Outcome State Fault Refusal := .next (s.aluReg x 0x12 f)

/-- ADD with an immediate (R65). -/
def execAddImm (x : At) (f : Fields) (s : State) : Outcome State Fault Refusal := .next (s.aluImm x 0x00 f)

/-- SUB with an immediate (R65). -/
def execSubImm (x : At) (f : Fields) (s : State) : Outcome State Fault Refusal := .next (s.aluImm x 0x01 f)

/-- MUL with an immediate (R65). -/
def execMulImm (x : At) (f : Fields) (s : State) : Outcome State Fault Refusal := .next (s.aluImm x 0x02 f)

/-- MULH with an immediate (R65). -/
def execMulhImm (x : At) (f : Fields) (s : State) : Outcome State Fault Refusal := .next (s.aluImm x 0x03 f)

/-- MULHU with an immediate (R65). -/
def execMulhuImm (x : At) (f : Fields) (s : State) : Outcome State Fault Refusal := .next (s.aluImm x 0x04 f)

/-- AND with an immediate (R65). -/
def execAndImm (x : At) (f : Fields) (s : State) : Outcome State Fault Refusal := .next (s.aluImm x 0x05 f)

/-- OR with an immediate (R65). -/
def execOrImm (x : At) (f : Fields) (s : State) : Outcome State Fault Refusal := .next (s.aluImm x 0x06 f)

/-- XOR with an immediate (R65). -/
def execXorImm (x : At) (f : Fields) (s : State) : Outcome State Fault Refusal := .next (s.aluImm x 0x07 f)

/-- SLL with an immediate (R65). -/
def execSllImm (x : At) (f : Fields) (s : State) : Outcome State Fault Refusal := .next (s.aluImm x 0x08 f)

/-- SRL with an immediate (R65). -/
def execSrlImm (x : At) (f : Fields) (s : State) : Outcome State Fault Refusal := .next (s.aluImm x 0x09 f)

/-- SRA with an immediate (R65). -/
def execSraImm (x : At) (f : Fields) (s : State) : Outcome State Fault Refusal := .next (s.aluImm x 0x0A f)

/-- SLT with an immediate (R65). -/
def execSltImm (x : At) (f : Fields) (s : State) : Outcome State Fault Refusal := .next (s.aluImm x 0x0B f)

/-- SLTU with an immediate (R65). -/
def execSltuImm (x : At) (f : Fields) (s : State) : Outcome State Fault Refusal := .next (s.aluImm x 0x0C f)

/-- MIN with an immediate (R65). -/
def execMinImm (x : At) (f : Fields) (s : State) : Outcome State Fault Refusal := .next (s.aluImm x 0x0D f)

/-- MAX with an immediate (R65). -/
def execMaxImm (x : At) (f : Fields) (s : State) : Outcome State Fault Refusal := .next (s.aluImm x 0x0E f)

/-- MINU with an immediate (R65). -/
def execMinuImm (x : At) (f : Fields) (s : State) : Outcome State Fault Refusal := .next (s.aluImm x 0x0F f)

/-- MAXU with an immediate (R65). -/
def execMaxuImm (x : At) (f : Fields) (s : State) : Outcome State Fault Refusal := .next (s.aluImm x 0x10 f)

/-- ADDS with an immediate (R65). -/
def execAddsImm (x : At) (f : Fields) (s : State) : Outcome State Fault Refusal := .next (s.aluImm x 0x11 f)

/-- SUBS with an immediate (R65). -/
def execSubsImm (x : At) (f : Fields) (s : State) : Outcome State Fault Refusal := .next (s.aluImm x 0x12 f)

/-! ### Constants, branches and jumps -/

/-- LDK (R65). -/
def execLdk (x : At) (dst imm : Nat) (s : State) : Outcome State Fault Refusal :=
  tidyNext s x (Tidy.wordK 0x03 dst imm) true false fun c => return c.setS dst (imm % 2 ^ 22)

/-- SHK (R65). -/
def execShk (x : At) (dst imm : Nat) (s : State) : Outcome State Fault Refusal :=
  tidyNext s x (Tidy.wordK 0x04 dst imm) true false fun c =>
    return c.setS dst ((c.sreg dst * 2 ^ 22 + imm % 2 ^ 22) % 2 ^ 64)

/-- The program counter `off` instructions away from the instruction before `pc` (R65). -/
def branchTo (pc : Nat) (off : Int) : Nat := ((((pc : Int) - 1 + off) % 16384 + 16384) % 16384).toNat

/-- A branch whose condition on the two 64-bit registers is `p`. -/
def State.branch (s : State) (x : At) (cond a b off : Nat) (p : Nat → Nat → Bool) : State :=
  s.tidy x (Tidy.wordBr cond a b off) true false fun c =>
    return if p (c.sreg a) (c.sreg b) then { c with pc := branchTo c.pc (toSigned 12 off) } else c

/-- BR EQ (R65). -/
def execBrEq (x : At) (a b off : Nat) (s : State) : Outcome State Fault Refusal :=
  .next (s.branch x 0 a b off fun a b => a == b)

/-- BR NE (R65). -/
def execBrNe (x : At) (a b off : Nat) (s : State) : Outcome State Fault Refusal :=
  .next (s.branch x 1 a b off fun a b => a != b)

/-- BR LT (R65). -/
def execBrLt (x : At) (a b off : Nat) (s : State) : Outcome State Fault Refusal :=
  .next (s.branch x 2 a b off fun a b => decide (toSigned 64 a < toSigned 64 b))

/-- BR GE (R65). -/
def execBrGe (x : At) (a b off : Nat) (s : State) : Outcome State Fault Refusal :=
  .next (s.branch x 3 a b off fun a b => decide (toSigned 64 b ≤ toSigned 64 a))

/-- BR LTU (R65). -/
def execBrLtu (x : At) (a b off : Nat) (s : State) : Outcome State Fault Refusal :=
  .next (s.branch x 4 a b off fun a b => decide (a < b))

/-- BR GEU (R65). -/
def execBrGeu (x : At) (a b off : Nat) (s : State) : Outcome State Fault Refusal :=
  .next (s.branch x 5 a b off fun a b => decide (b ≤ a))

/-- JAL (R65). -/
def execJal (x : At) (dst off : Nat) (s : State) : Outcome State Fault Refusal :=
  tidyNext s x (Tidy.wordK 0x06 dst off) true false fun c =>
    return { c.setS dst c.pc with pc := branchTo c.pc (toSigned 22 off) }

/-! ### System instructions (class 0x00, `ew` 0) -/

/-- `mask`, `zero` and `ew` of a system instruction are zero (R65). -/
def Tidy.sysOk (f : Fields) : Bool := Tidy.plain f && f.ew % 4 == 0

/-- NOP (R65). -/
def execNop (x : At) (f : Fields) (s : State) : Outcome State Fault Refusal :=
  tidyNext s x (Tidy.word 0x00 0x00 f) (Tidy.sysOk f) false fun c => return c

/-- JR (R65): the target is the low 14 bits of the register. -/
def execJr (x : At) (f : Fields) (s : State) : Outcome State Fault Refusal :=
  tidyNext s x (Tidy.word 0x00 0x05 f) (Tidy.sysOk f) false fun c =>
    return { c.setS f.dst c.pc with pc := c.sreg f.a % 16384 }

/-- FLAGS.R (R70). -/
def execFlagsR (x : At) (f : Fields) (s : State) : Outcome State Fault Refusal :=
  tidyNext s x (Tidy.word 0x00 0x08 f) (Tidy.sysOk f) false fun c => return c.setS f.dst c.flags

/-- FLAGS.C (R70): flags cleared before the task's end do not reach the op. -/
def execFlagsC (x : At) (f : Fields) (s : State) : Outcome State Fault Refusal :=
  tidyNext s x (Tidy.word 0x00 0x09 f) (Tidy.sysOk f) false fun c => return { c with flags := 0 }

/-- CYCLE (R65): the cycle count is a free value. -/
def execCycle (x : At) (f : Fields) (s : State) : Outcome State Fault Refusal :=
  tidyNext s x (Tidy.word 0x00 0x0A f) (Tidy.sysOk f) false fun c => do
    let (v, t) := (← get).draw
    set t
    return c.setS f.dst v

/-- TLOAD (R65): 256 fp32 entries, then `x0` and `inv_step`, from the core's data memory. DESIGN CHOICE (log entry 85): s[`src_a`]
is an address of the local window, of any alignment; one that is not in data memory faults with cause 0x03. -/
def execTload (x : At) (f : Fields) (s : State) : Outcome State Fault Refusal :=
  tidyNext s x (Tidy.word 0x00 0x0B f) (Tidy.sysOk f) false fun c => do
    match coreAddr (c.sreg f.a) 1032 with
    | .data off =>
      let t := (List.range 258).map fun i => leNat (dataBytes c (off + 4 * i) 4)
      return { c with tables := AMap.put [] c.tables (f.b % 4) t }
    | _ => throw (.fail Status.faultPermission 0x03)

/-- The read-backs of FENCE.HOST (R77): one zero-length read on each host port with stores outstanding. The command stands
for the moment their replies have come. -/
def fenceHostStep (n : Nat) : M Unit := do
  let s ← get
  if !s.hostDone n then throw .pause
  let c := s.core n
  match c.task with
  | some t =>
    let u := c.outstanding.foldl (fun u p => u.send (.readBack p.1 (u.reqFn t.o.ctx p.1) p.2)) s
    set ((u.setCore n { c with outstanding := [] }).closePath n)
  | none => return ()

/-- FENCE.DEV waits for the core's stores to peers and CXL; those to near device memory are performed in order (R77). A store
after it joins none before it (R233). -/
def fenceDevStep (n : Nat) : M Unit := do
  let s ← get
  if !s.peersDone n then throw .pause
  set (s.closePath n)

/-- FENCE.DEV (R77). -/
def execFenceDev (x : At) (f : Fields) (s : State) : Outcome State Fault Refusal :=
  tidyNext s x (Tidy.word 0x00 0x02 f) (Tidy.sysOk f) false fun c => do
    fenceDevStep x.core
    return c

/-- FENCE.HOST (R77). -/
def execFenceHost (x : At) (f : Fields) (s : State) : Outcome State Fault Refusal :=
  tidyNext s x (Tidy.word 0x00 0x03 f) (Tidy.sysOk f) false fun c => do
    fenceHostStep x.core
    return c

/-- FENCE.ALL (R77). -/
def execFenceAll (x : At) (f : Fields) (s : State) : Outcome State Fault Refusal :=
  tidyNext s x (Tidy.word 0x00 0x04 f) (Tidy.sysOk f) false fun c => do
    fenceDevStep x.core
    fenceHostStep x.core
    return c

/-- HALT (R77, R85): waits as FENCE.ALL does, then the task ends. -/
def execHalt (x : At) (f : Fields) (s : State) : Outcome State Fault Refusal :=
  tidyNext s x (Tidy.word 0x00 0x01 f) (Tidy.sysOk f) false fun c => do
    fenceDevStep x.core
    fenceHostStep x.core
    modify fun u => match (u.core x.core).task with
      | some t => (if t.restarted then u.notePassed t.o 0x5032 (x.core / 4) else u).dropTask x.core
      | none => u
    return c

end Sys2Proof.Machine
end

