-- ==== Sys2Proof/Machine/TidyVector.lean ====
section
/-! DEFINITION. The vector pipe of a tidy core without its memory class (04_tidy_cores.md, R65 to R72): integer, float,
compare, convert, permute, reduce, table lookup, range and mask logic. -/

namespace Sys2Proof.Machine

open Host (Outcome)

namespace Tidy

/-! ### Elementwise operations -/

/-- Class 0x10 on one pair of elements (R68). -/
def vint (w op a b : Nat) : Nat × Nat :=
  if op = 0x11 then (ofSigned w ((toSigned w a).natAbs : Int), 0) else alu w op a b

/-- Class 0x11 on one pair of elements (R68). -/
def vsat (w op a b : Nat) : Nat × Nat :=
  let x := toSigned w a
  let y := toSigned w b
  satFlag (match op with
    | 0x00 => clampS w (x + y)
    | 0x01 => clampS w (x - y)
    | 0x02 => clampU w ((a : Int) + b)
    | 0x03 => clampU w ((a : Int) - b)
    | 0x04 => clampS w (x * y)
    | 0x05 => clampS w (x * (2 ^ (b % w) : Nat))
    | _ => clampS w (x.natAbs : Int))

/-- A float result with the flags it raises. -/
def withFlags (r : Nat × FF) : Nat × Nat := (r.1, flagBits r.2)

/-- A float result of an operation that raises only `nv`, on a signalling operand (R70). -/
def quietOp (f : Fmt) (r : Nat) (xs : List Nat) : Nat × Nat := (r, b2n (anySignalling f xs))

/-- Class 0x13 on elements A, B and the old destination (R65, R69). -/
def vfloat (f : Fmt) (op a b d : Nat) : Nat × Nat :=
  match op with
  | 0x00 => withFlags (fadd f a b)
  | 0x01 => withFlags (fsub f a b)
  | 0x02 => withFlags (fmul f a b)
  | 0x03 => withFlags (ffma f a b d)
  | 0x04 => withFlags (ffnma f a b d)
  | 0x05 => quietOp f (fmin f a b) [a, b]
  | 0x06 => quietOp f (fmax f a b) [a, b]
  | 0x07 => (fabs f a, 0)
  | _ => (fneg f a, 0)

/-- Class 0x12 on one pair of elements: the mask bit and the flags. -/
def vcmp (w ew op a b : Nat) : Bool × Nat :=
  let f := fmt ew
  match op with
  | 0x00 => (a == b, 0)
  | 0x01 => (a != b, 0)
  | 0x02 => (decide (toSigned w a < toSigned w b), 0)
  | 0x03 => (decide (toSigned w a ≤ toSigned w b), 0)
  | 0x04 => (decide (a < b), 0)
  | 0x05 => (decide (a ≤ b), 0)
  | 0x08 => (feq f a b, b2n (anySignalling f [a, b]))
  | 0x09 => (flt f a b, b2n (anySignalling f [a, b]))
  | 0x0A => (fle f a b, b2n (anySignalling f [a, b]))
  | _ => (isNan f a || isNan f b, b2n (anySignalling f [a, b]))

/-- `ew` of a float operation is 1 or 2 (R65, R69). -/
def floatEw (f : Fields) : Bool := f.ew % 4 == 1 || f.ew % 4 == 2

end Tidy

/-- The elements of source B: a vector, or in the scalar form a register's low bits in every element (R64). -/
def sourceB (c : Core) (f : Fields) (sc : Bool) : List Nat :=
  let w := Tidy.width f.ew
  if sc then List.replicate (Tidy.count w) (c.sreg f.b % 2 ^ w) else Tidy.elems w (c.vreg f.b)

/-- An elementwise result of A, B and the old destination, written under mask and `zero` (R66). -/
def vecStep (c : Core) (f : Fields) (sc : Bool) (g : Nat → Nat → Nat → Nat × Nat) : Core :=
  let w := Tidy.width f.ew
  let as := Tidy.elems w (c.vreg f.a)
  let bs := sourceB c f sc
  let ds := Tidy.elems w (c.vreg f.dst)
  c.writeV f w (as.mapIdx fun e a => g a (bs.getD e 0) (ds.getD e 0))

/-- Classes 0x10, 0x11 and 0x13. -/
def State.vec (s : State) (x : At) (cls op : Nat) (f : Fields) (sc legal : Bool) (g : Nat → Nat → Nat → Nat × Nat) : State :=
  s.tidy x (Tidy.word cls (op + b2n sc * 32) f) legal false fun c => return vecStep c f sc g

/-- The mask register whose low bits are given. -/
def maskOf (bs : List Bool) : BitVec 256 :=
  BitVec.ofNat 256 (bs.foldr (fun b n => b2n b + 2 * n) 0)

/-- A compare (R66): bits below the element count under mask and `zero`, the rest clear. -/
def State.compare (s : State) (x : At) (op : Nat) (f : Fields) : State :=
  let w := Tidy.width f.ew
  s.tidy x (Tidy.word 0x12 op f) (f.dst % 8 != 0 && (decide (op ≤ 5) || Tidy.floatEw f)) false fun c =>
    let bs := Tidy.elems w (c.vreg f.b)
    let rs := (Tidy.elems w (c.vreg f.a)).mapIdx fun e a => Tidy.vcmp w (f.ew % 4) op a (bs.getD e 0)
    let old := c.mreg f.dst
    let out := rs.mapIdx fun e r => if c.active f.mask e then r.1 else f.zero % 2 == 0 && old.getLsbD e
    let fl := (rs.mapIdx fun e r => if c.active f.mask e then r.2 else 0).foldl (· ||| ·) 0
    return (c.setM f.dst (maskOf out)).raiseFlags fl

/-- VADD (R65, R68). -/
def execVadd (x : At) (f : Fields) (sc : Bool) (s : State) : Outcome State Fault Refusal :=
  .next (s.vec x 0x10 0x00 f sc true fun a b _ => Tidy.vint (Tidy.width f.ew) 0x00 a b)

/-- VSUB (R65, R68). -/
def execVsub (x : At) (f : Fields) (sc : Bool) (s : State) : Outcome State Fault Refusal :=
  .next (s.vec x 0x10 0x01 f sc true fun a b _ => Tidy.vint (Tidy.width f.ew) 0x01 a b)

/-- VMUL (R65, R68). -/
def execVmul (x : At) (f : Fields) (sc : Bool) (s : State) : Outcome State Fault Refusal :=
  .next (s.vec x 0x10 0x02 f sc true fun a b _ => Tidy.vint (Tidy.width f.ew) 0x02 a b)

/-- VMULH (R65, R68). -/
def execVmulh (x : At) (f : Fields) (sc : Bool) (s : State) : Outcome State Fault Refusal :=
  .next (s.vec x 0x10 0x03 f sc true fun a b _ => Tidy.vint (Tidy.width f.ew) 0x03 a b)

/-- VMULHU (R65, R68). -/
def execVmulhu (x : At) (f : Fields) (sc : Bool) (s : State) : Outcome State Fault Refusal :=
  .next (s.vec x 0x10 0x04 f sc true fun a b _ => Tidy.vint (Tidy.width f.ew) 0x04 a b)

/-- VAND (R65, R68). -/
def execVand (x : At) (f : Fields) (sc : Bool) (s : State) : Outcome State Fault Refusal :=
  .next (s.vec x 0x10 0x05 f sc true fun a b _ => Tidy.vint (Tidy.width f.ew) 0x05 a b)

/-- VOR (R65, R68). -/
def execVor (x : At) (f : Fields) (sc : Bool) (s : State) : Outcome State Fault Refusal :=
  .next (s.vec x 0x10 0x06 f sc true fun a b _ => Tidy.vint (Tidy.width f.ew) 0x06 a b)

/-- VXOR (R65, R68). -/
def execVxor (x : At) (f : Fields) (sc : Bool) (s : State) : Outcome State Fault Refusal :=
  .next (s.vec x 0x10 0x07 f sc true fun a b _ => Tidy.vint (Tidy.width f.ew) 0x07 a b)

/-- VSLL (R65, R68). -/
def execVsll (x : At) (f : Fields) (sc : Bool) (s : State) : Outcome State Fault Refusal :=
  .next (s.vec x 0x10 0x08 f sc true fun a b _ => Tidy.vint (Tidy.width f.ew) 0x08 a b)

/-- VSRL (R65, R68). -/
def execVsrl (x : At) (f : Fields) (sc : Bool) (s : State) : Outcome State Fault Refusal :=
  .next (s.vec x 0x10 0x09 f sc true fun a b _ => Tidy.vint (Tidy.width f.ew) 0x09 a b)

/-- VSRA (R65, R68). -/
def execVsra (x : At) (f : Fields) (sc : Bool) (s : State) : Outcome State Fault Refusal :=
  .next (s.vec x 0x10 0x0A f sc true fun a b _ => Tidy.vint (Tidy.width f.ew) 0x0A a b)

/-- VMIN (R65, R68). -/
def execVmin (x : At) (f : Fields) (sc : Bool) (s : State) : Outcome State Fault Refusal :=
  .next (s.vec x 0x10 0x0D f sc true fun a b _ => Tidy.vint (Tidy.width f.ew) 0x0D a b)

/-- VMAX (R65, R68). -/
def execVmax (x : At) (f : Fields) (sc : Bool) (s : State) : Outcome State Fault Refusal :=
  .next (s.vec x 0x10 0x0E f sc true fun a b _ => Tidy.vint (Tidy.width f.ew) 0x0E a b)

/-- VMINU (R65, R68). -/
def execVminu (x : At) (f : Fields) (sc : Bool) (s : State) : Outcome State Fault Refusal :=
  .next (s.vec x 0x10 0x0F f sc true fun a b _ => Tidy.vint (Tidy.width f.ew) 0x0F a b)

/-- VMAXU (R65, R68). -/
def execVmaxu (x : At) (f : Fields) (sc : Bool) (s : State) : Outcome State Fault Refusal :=
  .next (s.vec x 0x10 0x10 f sc true fun a b _ => Tidy.vint (Tidy.width f.ew) 0x10 a b)

/-- VABS (R65, R68). -/
def execVabs (x : At) (f : Fields) (sc : Bool) (s : State) : Outcome State Fault Refusal :=
  .next (s.vec x 0x10 0x11 f sc true fun a b _ => Tidy.vint (Tidy.width f.ew) 0x11 a b)

/-- VADDS (R65, R68). -/
def execVadds (x : At) (f : Fields) (sc : Bool) (s : State) : Outcome State Fault Refusal :=
  .next (s.vec x 0x11 0x00 f sc true fun a b _ => Tidy.vsat (Tidy.width f.ew) 0x00 a b)

/-- VSUBS (R65, R68). -/
def execVsubs (x : At) (f : Fields) (sc : Bool) (s : State) : Outcome State Fault Refusal :=
  .next (s.vec x 0x11 0x01 f sc true fun a b _ => Tidy.vsat (Tidy.width f.ew) 0x01 a b)

/-- VADDSU (R65, R68). -/
def execVaddsu (x : At) (f : Fields) (sc : Bool) (s : State) : Outcome State Fault Refusal :=
  .next (s.vec x 0x11 0x02 f sc true fun a b _ => Tidy.vsat (Tidy.width f.ew) 0x02 a b)

/-- VSUBSU (R65, R68). -/
def execVsubsu (x : At) (f : Fields) (sc : Bool) (s : State) : Outcome State Fault Refusal :=
  .next (s.vec x 0x11 0x03 f sc true fun a b _ => Tidy.vsat (Tidy.width f.ew) 0x03 a b)

/-- VMULS (R65, R68). -/
def execVmuls (x : At) (f : Fields) (sc : Bool) (s : State) : Outcome State Fault Refusal :=
  .next (s.vec x 0x11 0x04 f sc true fun a b _ => Tidy.vsat (Tidy.width f.ew) 0x04 a b)

/-- VSLLS (R65, R68). -/
def execVslls (x : At) (f : Fields) (sc : Bool) (s : State) : Outcome State Fault Refusal :=
  .next (s.vec x 0x11 0x05 f sc true fun a b _ => Tidy.vsat (Tidy.width f.ew) 0x05 a b)

/-- VABSS (R65, R68). -/
def execVabss (x : At) (f : Fields) (sc : Bool) (s : State) : Outcome State Fault Refusal :=
  .next (s.vec x 0x11 0x06 f sc true fun a b _ => Tidy.vsat (Tidy.width f.ew) 0x06 a b)

/-- VEQ (R65, R66). -/
def execVeq (x : At) (f : Fields) (s : State) : Outcome State Fault Refusal := .next (s.compare x 0x00 f)

/-- VNE (R65, R66). -/
def execVne (x : At) (f : Fields) (s : State) : Outcome State Fault Refusal := .next (s.compare x 0x01 f)

/-- VLT (R65, R66). -/
def execVlt (x : At) (f : Fields) (s : State) : Outcome State Fault Refusal := .next (s.compare x 0x02 f)

/-- VLE (R65, R66). -/
def execVle (x : At) (f : Fields) (s : State) : Outcome State Fault Refusal := .next (s.compare x 0x03 f)

/-- VLTU (R65, R66). -/
def execVltu (x : At) (f : Fields) (s : State) : Outcome State Fault Refusal := .next (s.compare x 0x04 f)

/-- VLEU (R65, R66). -/
def execVleu (x : At) (f : Fields) (s : State) : Outcome State Fault Refusal := .next (s.compare x 0x05 f)

/-- VFEQ (R65, R66, R69). -/
def execVfeq (x : At) (f : Fields) (s : State) : Outcome State Fault Refusal := .next (s.compare x 0x08 f)

/-- VFLT (R65, R66, R69). -/
def execVflt (x : At) (f : Fields) (s : State) : Outcome State Fault Refusal := .next (s.compare x 0x09 f)

/-- VFLE (R65, R66, R69). -/
def execVfle (x : At) (f : Fields) (s : State) : Outcome State Fault Refusal := .next (s.compare x 0x0A f)

/-- VFUN (R65, R66, R69). -/
def execVfun (x : At) (f : Fields) (s : State) : Outcome State Fault Refusal := .next (s.compare x 0x0B f)

/-- VFADD (R65, R69). -/
def execVfadd (x : At) (f : Fields) (sc : Bool) (s : State) : Outcome State Fault Refusal :=
  .next (s.vec x 0x13 0x00 f sc (Tidy.floatEw f) fun a b d => Tidy.vfloat (Tidy.fmt (f.ew % 4)) 0x00 a b d)

/-- VFSUB (R65, R69). -/
def execVfsub (x : At) (f : Fields) (sc : Bool) (s : State) : Outcome State Fault Refusal :=
  .next (s.vec x 0x13 0x01 f sc (Tidy.floatEw f) fun a b d => Tidy.vfloat (Tidy.fmt (f.ew % 4)) 0x01 a b d)

/-- VFMUL (R65, R69). -/
def execVfmul (x : At) (f : Fields) (sc : Bool) (s : State) : Outcome State Fault Refusal :=
  .next (s.vec x 0x13 0x02 f sc (Tidy.floatEw f) fun a b d => Tidy.vfloat (Tidy.fmt (f.ew % 4)) 0x02 a b d)

/-- VFMA (R65, R69). -/
def execVfma (x : At) (f : Fields) (sc : Bool) (s : State) : Outcome State Fault Refusal :=
  .next (s.vec x 0x13 0x03 f sc (Tidy.floatEw f) fun a b d => Tidy.vfloat (Tidy.fmt (f.ew % 4)) 0x03 a b d)

/-- VFNMA (R65, R69). -/
def execVfnma (x : At) (f : Fields) (sc : Bool) (s : State) : Outcome State Fault Refusal :=
  .next (s.vec x 0x13 0x04 f sc (Tidy.floatEw f) fun a b d => Tidy.vfloat (Tidy.fmt (f.ew % 4)) 0x04 a b d)

/-- VFMIN (R65, R69). -/
def execVfmin (x : At) (f : Fields) (sc : Bool) (s : State) : Outcome State Fault Refusal :=
  .next (s.vec x 0x13 0x05 f sc (Tidy.floatEw f) fun a b d => Tidy.vfloat (Tidy.fmt (f.ew % 4)) 0x05 a b d)

/-- VFMAX (R65, R69). -/
def execVfmax (x : At) (f : Fields) (sc : Bool) (s : State) : Outcome State Fault Refusal :=
  .next (s.vec x 0x13 0x06 f sc (Tidy.floatEw f) fun a b d => Tidy.vfloat (Tidy.fmt (f.ew % 4)) 0x06 a b d)

/-- VFABS (R65, R69). -/
def execVfabs (x : At) (f : Fields) (sc : Bool) (s : State) : Outcome State Fault Refusal :=
  .next (s.vec x 0x13 0x07 f sc (Tidy.floatEw f) fun a b d => Tidy.vfloat (Tidy.fmt (f.ew % 4)) 0x07 a b d)

/-- VFNEG (R65, R69). -/
def execVfneg (x : At) (f : Fields) (sc : Bool) (s : State) : Outcome State Fault Refusal :=
  .next (s.vec x 0x13 0x08 f sc (Tidy.floatEw f) fun a b d => Tidy.vfloat (Tidy.fmt (f.ew % 4)) 0x08 a b d)

/-! ### Conversions (class 0x14). `ew` is the width of the source elements (log entry 14) -/

/-- A conversion whose result elements of width `wo` come from a list of source elements. -/
def State.convert (s : State) (x : At) (op : Nat) (f : Fields) (legal : Bool) (wo : Nat)
    (src : Core → List Nat) (g : Nat → Nat × Nat) : State :=
  s.tidy x (Tidy.word 0x14 op f) legal false fun c => return c.writeV f wo ((src c).map g)

/-- Elements of A in the low half and of B in the high half (R65). -/
def bothHalves (f : Fields) (c : Core) : List Nat :=
  let w := Tidy.width f.ew
  Tidy.elems w (c.vreg f.a) ++ Tidy.elems w (c.vreg f.b)

/-- The low or the high half of A's elements (R65). -/
def halfOf (hi : Bool) (f : Fields) (c : Core) : List Nat :=
  let w := Tidy.width f.ew
  let xs := Tidy.elems w (c.vreg f.a)
  if hi then xs.drop (Tidy.count w / 2) else xs.take (Tidy.count w / 2)

/-- A's elements. -/
def sourceA (f : Fields) (c : Core) : List Nat := Tidy.elems (Tidy.width f.ew) (c.vreg f.a)

/-- F32.BF16 (R65, R69). -/
def execF32Bf16 (x : At) (f : Fields) (s : State) : Outcome State Fault Refusal :=
  .next (s.convert x 0x00 f (f.ew % 4 == 2) 16 (bothHalves f) fun a => Tidy.withFlags (fconv fp32 bf16 a))

/-- BF16.F32.LO (R65, R69). -/
def execBf16F32Lo (x : At) (f : Fields) (s : State) : Outcome State Fault Refusal :=
  .next (s.convert x 0x01 f (f.ew % 4 == 1) 32 (halfOf false f) fun a => Tidy.withFlags (fconv bf16 fp32 a))

/-- BF16.F32.HI (R65, R69). -/
def execBf16F32Hi (x : At) (f : Fields) (s : State) : Outcome State Fault Refusal :=
  .next (s.convert x 0x02 f (f.ew % 4 == 1) 32 (halfOf true f) fun a => Tidy.withFlags (fconv bf16 fp32 a))

/-- I32.F32 (R65, R69). -/
def execI32F32 (x : At) (f : Fields) (s : State) : Outcome State Fault Refusal :=
  .next (s.convert x 0x03 f (f.ew % 4 == 2) 32 (sourceA f) fun a => Tidy.withFlags (fofInt fp32 (toSigned 32 a)))

/-- F32.I32 (R65, R69). -/
def execF32I32 (x : At) (f : Fields) (s : State) : Outcome State Fault Refusal :=
  .next (s.convert x 0x04 f (f.ew % 4 == 2) 32 (sourceA f) fun a =>
    let (z, fl) := ftoInt fp32 32 a
    (ofSigned 32 z, Tidy.flagBits fl))

/-- WIDEN: elements of half a register at twice their width (R65). -/
def State.widen (s : State) (x : At) (op : Nat) (f : Fields) (hi signed : Bool) : State :=
  let w := Tidy.width f.ew
  s.convert x op f (f.ew % 4 != 3) (2 * w) (halfOf hi f) fun a => (if signed then ofSigned (2 * w) (toSigned w a) else a, 0)

/-- NARROW: elements at half their width (R65, R68). -/
def State.narrowOp (s : State) (x : At) (op : Nat) (f : Fields) (g : Nat → Nat → Nat × Nat) : State :=
  let w := Tidy.width f.ew
  s.convert x op f (f.ew % 4 != 0) (w / 2) (bothHalves f) (g w)

/-- WIDEN.LO (R65). -/
def execWidenLo (x : At) (f : Fields) (s : State) : Outcome State Fault Refusal := .next (s.widen x 0x05 f false true)

/-- WIDEN.HI (R65). -/
def execWidenHi (x : At) (f : Fields) (s : State) : Outcome State Fault Refusal := .next (s.widen x 0x06 f true true)

/-- WIDENU.LO (R65). -/
def execWidenuLo (x : At) (f : Fields) (s : State) : Outcome State Fault Refusal := .next (s.widen x 0x07 f false false)

/-- WIDENU.HI (R65). -/
def execWidenuHi (x : At) (f : Fields) (s : State) : Outcome State Fault Refusal := .next (s.widen x 0x08 f true false)

/-- NARROW (R68). -/
def execNarrow (x : At) (f : Fields) (s : State) : Outcome State Fault Refusal :=
  .next (s.narrowOp x 0x09 f fun w a => (a % 2 ^ (w / 2), 0))

/-- NARROW.S (R68). -/
def execNarrowS (x : At) (f : Fields) (s : State) : Outcome State Fault Refusal :=
  .next (s.narrowOp x 0x0A f fun w a => Tidy.satFlag (Tidy.clampS (w / 2) (toSigned w a)))

/-- NARROW.SU (R68). -/
def execNarrowSu (x : At) (f : Fields) (s : State) : Outcome State Fault Refusal :=
  .next (s.narrowOp x 0x0B f fun w a => Tidy.satFlag (Tidy.clampU (w / 2) (toSigned w a)))

/-! ### Permutes and moves (class 0x15). Element indices that name no element give free values (log entry 15) -/

/-- An instruction of class 0x15 that writes a vector from a list of results. `g` gives each element from the core and a free
number. -/
def State.permute (s : State) (x : At) (op : Nat) (f : Fields) (g : Core → Nat → Nat → Nat) : State :=
  let w := Tidy.width f.ew
  s.tidy x (Tidy.word 0x15 op f) true false fun c => do
    let (v, t) := (← get).draw
    set t
    return c.writeV f w ((List.range (Tidy.count w)).map fun e => (g c v e % 2 ^ w, 0))

/-- Element `i` of a register, or part of a free number where there is no such element. -/
def elemOr (w : Nat) (v : BitVec 2048) (i free e : Nat) : Nat :=
  if i < Tidy.count w then Tidy.elem w v i else free >>> (w * e)

/-- VPERM: element e takes the element of A that element e of B numbers. -/
def execVperm (x : At) (f : Fields) (s : State) : Outcome State Fault Refusal :=
  let w := Tidy.width f.ew
  .next (s.permute x 0x00 f fun c v e => elemOr w (c.vreg f.a) (Tidy.elem w (c.vreg f.b) e) v e)

/-- VBCAST: every element takes the low bits of s[`src_a`]. -/
def execVbcast (x : At) (f : Fields) (s : State) : Outcome State Fault Refusal :=
  .next (s.permute x 0x01 f fun c _ _ => c.sreg f.a)

/-- VSLIDEUP: element e takes element e - s[`src_b`] of A. -/
def execVslideup (x : At) (f : Fields) (s : State) : Outcome State Fault Refusal :=
  let w := Tidy.width f.ew
  .next (s.permute x 0x02 f fun c v e =>
    if c.sreg f.b ≤ e then Tidy.elem w (c.vreg f.a) (e - c.sreg f.b) else v >>> (w * e))

/-- VSLIDEDN: element e takes element e + s[`src_b`] of A. -/
def execVslidedn (x : At) (f : Fields) (s : State) : Outcome State Fault Refusal :=
  .next (s.permute x 0x03 f fun c v e => elemOr (Tidy.width f.ew) (c.vreg f.a) (e + c.sreg f.b) v e)

/-- VEXT (R65): element s[`src_b`] of A into scalar `dst`; the bits above the element are a free value. -/
def execVext (x : At) (f : Fields) (s : State) : Outcome State Fault Refusal :=
  let w := Tidy.width f.ew
  tidyNext s x (Tidy.word 0x15 0x04 f) true false fun c => do
    let (v, t) := (← get).draw
    set t
    return c.setS f.dst (elemOr w (c.vreg f.a) (c.sreg f.b) v 0 % 2 ^ w + v % 2 ^ 64 / 2 ^ w * 2 ^ w)

/-- The elements of `dst` after an instruction that writes element `i` alone: under the mask and `zero` as R66 says, the active
elements other than `i` unchanged. -/
def oneElem (c : Core) (f : Fields) (w i v : Nat) : Core :=
  c.setV f.dst (Tidy.ofElems w ((Tidy.elems w (c.vreg f.dst)).mapIdx fun e y =>
    if c.active f.mask e then (if e = i then v else y) else if f.zero % 2 = 1 then 0 else y))

/-- VINS (R65, R66): s[`src_a`] into element s[`src_b`] of `dst`; the other active ones are unchanged. -/
def execVins (x : At) (f : Fields) (s : State) : Outcome State Fault Refusal :=
  let w := Tidy.width f.ew
  tidyNext s x (Tidy.word 0x15 0x05 f) true false fun c => do
    let (v, t) := (← get).draw
    set t
    let n := Tidy.count w
    let i := if c.sreg f.b < n then c.sreg f.b else v % (n + 1)
    return oneElem c f w i (c.sreg f.a)

/-- VIOTA: each element takes its own index. -/
def execViota (x : At) (f : Fields) (s : State) : Outcome State Fault Refusal :=
  .next (s.permute x 0x06 f fun _ _ e => e)

/-- VMV: A's elements. -/
def execVmv (x : At) (f : Fields) (s : State) : Outcome State Fault Refusal :=
  .next (s.permute x 0x07 f fun c _ e => Tidy.elem (Tidy.width f.ew) (c.vreg f.a) e)

/-! ### Reductions (R67) -/

/-- The active elements of A. -/
def activeElems (c : Core) (f : Fields) : List Nat :=
  ((sourceA f c).mapIdx fun e a => if c.active f.mask e then [a] else []).flatten

/-- A reduction: element 0 of `dst` takes the result, the others zero. -/
def State.reduce (s : State) (x : At) (op : Nat) (f : Fields) (legal : Bool) (g : Core → Nat × Nat) : State :=
  s.tidy x (Tidy.word 0x15 op f) legal false fun c =>
    let (r, fl) := g c
    return (c.setV f.dst (Tidy.ofElems (Tidy.width f.ew) [r])).raiseFlags fl

/-- VREDADD (R67). -/
def execVredadd (x : At) (f : Fields) (s : State) : Outcome State Fault Refusal :=
  .next (s.reduce x 0x10 f true fun c => ((activeElems c f).foldl (· + ·) 0, 0))

/-- Integer minimum or maximum over the active elements from the identity (R67). -/
def redInt (f : Fields) (op start : Nat) (c : Core) : Nat × Nat :=
  ((activeElems c f).foldl (fun m a => (Tidy.alu (Tidy.width f.ew) op m a).1) start, 0)

/-- VREDMIN (R67). -/
def execVredmin (x : At) (f : Fields) (s : State) : Outcome State Fault Refusal :=
  .next (s.reduce x 0x11 f true (redInt f 0x0D (2 ^ (Tidy.width f.ew - 1) - 1)))

/-- VREDMAX (R67). -/
def execVredmax (x : At) (f : Fields) (s : State) : Outcome State Fault Refusal :=
  .next (s.reduce x 0x12 f true (redInt f 0x0E (2 ^ (Tidy.width f.ew - 1))))

/-- VREDMINU (R67). -/
def execVredminu (x : At) (f : Fields) (s : State) : Outcome State Fault Refusal :=
  .next (s.reduce x 0x13 f true (redInt f 0x0F (2 ^ Tidy.width f.ew - 1)))

/-- VREDMAXU (R67). -/
def execVredmaxu (x : At) (f : Fields) (s : State) : Outcome State Fault Refusal :=
  .next (s.reduce x 0x14 f true (redInt f 0x10 0))

/-- Adjacent pairs added (R67). -/
def addPairs (f : Fmt) : List Nat → List Nat × FF
  | a :: b :: xs =>
    let (r, fl) := fadd f a b
    let (rs, gl) := addPairs f xs
    (r :: rs, fl.or gl)
  | xs => (xs, {})

/-- The fixed tree of VREDADD's float form, at most `fuel` levels (R67). -/
def addTree (f : Fmt) : Nat → List Nat → FF → Nat × FF
  | 0, xs, fl => (xs.headD 0, fl)
  | fuel + 1, xs, fl =>
    if xs.length ≤ 1 then (xs.headD 0, fl)
    else
      let (ys, gl) := addPairs f xs
      addTree f fuel ys (fl.or gl)

/-- VFREDADD (R67): inactive elements enter as +0.0; with none active the result is 0. -/
def execVfredadd (x : At) (f : Fields) (s : State) : Outcome State Fault Refusal :=
  .next (s.reduce x 0x18 f (Tidy.floatEw f) fun c =>
    if (activeElems c f).isEmpty then (0, 0)
    else
      let xs := (sourceA f c).mapIdx fun e a => if c.active f.mask e then a else 0
      Tidy.withFlags (addTree (Tidy.fmt (f.ew % 4)) 8 xs {}))

/-- Float minimum or maximum over the active elements (R67, R69). -/
def redFloat (f : Fields) (g : Fmt → Nat → Nat → Nat) (empty : Fmt → Nat) (c : Core) : Nat × Nat :=
  let k := Tidy.fmt (f.ew % 4)
  match activeElems c f with
  | [] => (empty k, 0)
  | a :: xs => Tidy.quietOp k (xs.foldl (g k) (g k a a)) (a :: xs)

/-- VFREDMIN (R67). -/
def execVfredmin (x : At) (f : Fields) (s : State) : Outcome State Fault Refusal :=
  .next (s.reduce x 0x19 f (Tidy.floatEw f) (redFloat f fmin fun k => k.infBits false))

/-- VFREDMAX (R67). -/
def execVfredmax (x : At) (f : Fields) (s : State) : Outcome State Fault Refusal :=
  .next (s.reduce x 0x1A f (Tidy.floatEw f) (redFloat f fmax fun k => k.infBits true))

/-! ### Table lookup and RANGE (R71, R72) -/

/-- Entry `i` of a lookup slot; 256 is `x0` and 257 `inv_step`. -/
def slotEntry (c : Core) (slot i : Nat) : Nat := (AMap.getD c.tables (slot % 4) []).getD i 0

/-- TLU.I (R71). -/
def execTluI (x : At) (f : Fields) (s : State) : Outcome State Fault Refusal :=
  tidyNext s x (Tidy.word 0x16 0x00 f) (f.ew % 4 == 2) false fun c =>
    return c.writeV f 32 ((sourceA f c).map fun a => (slotEntry c f.b (a % 256), 0))

/-- TLU.F of one element (R71). An index that is no number gives a free value. -/
def tluF (c : Core) (slot free a : Nat) : Nat × Nat :=
  let (d, f1) := fsub fp32 a (slotEntry c slot 256)
  let (i, f2) := fmul fp32 d (slotEntry c slot 257)
  let fl := f1.or f2
  if isNan fp32 a then (fp32.nanBits, 1)
  else if flt fp32 i 0 then (slotEntry c slot 0, Tidy.flagBits fl)
  else if fle fp32 (fofInt fp32 255).1 i then (slotEntry c slot 255, Tidy.flagBits fl)
  else
    match fdecode fp32 i with
    | .fin neg m e =>
      let n := (floorInt neg m e).toNat
      let (f, _) := fsub fp32 i (fofInt fp32 n).1
      let (step, f3) := fsub fp32 (slotEntry c slot (n + 1)) (slotEntry c slot n)
      let (r, f4) := ffma fp32 f step (slotEntry c slot n)
      (r, Tidy.flagBits (fl.or (f3.or f4)))
    | _ => (free % 2 ^ 32, Tidy.flagBits fl)

/-- TLU.F (R71). -/
def execTluF (x : At) (f : Fields) (s : State) : Outcome State Fault Refusal :=
  tidyNext s x (Tidy.word 0x16 0x01 f) (f.ew % 4 == 2) false fun c => do
    let (v, t) := (← get).draw
    set t
    return c.writeV f 32 ((sourceA f c).mapIdx fun e a => tluF c f.b (v >>> (32 * e)) a)

/-- The empty side-band entry (R21, R72). -/
def emptySideBand : Nat := 0xFF8000007F800000

/-- RANGE.INIT (R66, R72): element 0, of 64 bits. -/
def execRangeInit (x : At) (f : Fields) (s : State) : Outcome State Fault Refusal :=
  tidyNext s x (Tidy.word 0x17 0x00 f) true false fun c =>
    return oneElem c f 64 0 emptySideBand

/-- A finite fp32 value merged into a side-band entry (R21, R72). -/
def mergeSideBand (entry v : Nat) : Nat :=
  fmin fp32 (entry % 2 ^ 32) v + fmax fp32 (entry / 2 ^ 32 % 2 ^ 32) v * 2 ^ 32

/-- RANGE (R67, R72). -/
def execRange (x : At) (f : Fields) (s : State) : Outcome State Fault Refusal :=
  tidyNext s x (Tidy.word 0x17 0x01 f) (Tidy.floatEw f && f.zero % 2 == 0) false fun c =>
    let k := Tidy.fmt (f.ew % 4)
    let vals := ((activeElems c f).filter (isFinite k)).map fun a => if f.ew % 4 = 1 then bfToF32 a else a
    let old := Tidy.elem 64 (c.vreg f.dst) 0
    return c.setV f.dst (Tidy.ofElems 64 ((Tidy.elems 64 (c.vreg f.dst)).set 0 (vals.foldl mergeSideBand old)))

/-! ### Mask logic (class 0x1A; R65) -/

/-- An instruction that writes a mask register other than m0 (R61). -/
def State.maskOp (s : State) (x : At) (op : Nat) (f : Fields) (g : Core → BitVec 256) : State :=
  s.tidy x (Tidy.word 0x1A op f) (Tidy.plain f && f.dst % 8 != 0) false fun c => return c.setM f.dst (g c)

/-- MAND. -/
def execMand (x : At) (f : Fields) (s : State) : Outcome State Fault Refusal :=
  .next (s.maskOp x 0x00 f fun c => c.mreg f.a &&& c.mreg f.b)

/-- MOR. -/
def execMor (x : At) (f : Fields) (s : State) : Outcome State Fault Refusal :=
  .next (s.maskOp x 0x01 f fun c => c.mreg f.a ||| c.mreg f.b)

/-- MXOR. -/
def execMxor (x : At) (f : Fields) (s : State) : Outcome State Fault Refusal :=
  .next (s.maskOp x 0x02 f fun c => c.mreg f.a ^^^ c.mreg f.b)

/-- MANDN: A and not B. -/
def execMandn (x : At) (f : Fields) (s : State) : Outcome State Fault Refusal :=
  .next (s.maskOp x 0x03 f fun c => c.mreg f.a &&& ~~~(c.mreg f.b))

/-- MNOT. -/
def execMnot (x : At) (f : Fields) (s : State) : Outcome State Fault Refusal :=
  .next (s.maskOp x 0x04 f fun c => ~~~(c.mreg f.a))

/-- Indices of the set bits of a mask. -/
def setBitsOf (m : BitVec 256) : List Nat := (List.range 256).filter m.getLsbD

/-- MPOP: the number of set bits, into a scalar. -/
def execMpop (x : At) (f : Fields) (s : State) : Outcome State Fault Refusal :=
  tidyNext s x (Tidy.word 0x1A 0x05 f) (Tidy.plain f) false fun c => return c.setS f.dst (setBitsOf (c.mreg f.a)).length

/-- MFIRST: the index of the lowest set bit, or 256 (R65). -/
def execMfirst (x : At) (f : Fields) (s : State) : Outcome State Fault Refusal :=
  tidyNext s x (Tidy.word 0x1A 0x06 f) (Tidy.plain f) false fun c =>
    return c.setS f.dst ((setBitsOf (c.mreg f.a)).headD 256)

/-- MSET.N (R65). -/
def execMsetN (x : At) (f : Fields) (s : State) : Outcome State Fault Refusal :=
  .next (s.maskOp x 0x07 f fun c =>
    let k := toSigned 64 (c.sreg f.a)
    let n := if k < 0 then 0 else Nat.min k.toNat 256
    BitVec.ofNat 256 (2 ^ n - 1))

end Sys2Proof.Machine
end

