-- ==== Sys2Proof/Machine/TidyMemory.lean ====
section
/-! DEFINITION. The memory instructions of a tidy core (04_tidy_cores.md): scalar loads and stores, atomics, and the vector
memory class (R65, R66, R74 to R80). -/

namespace Sys2Proof.Machine

open Host (Outcome)

/-! ### Scalar memory (class 0x08) -/

/-- The address of a scalar access: base plus offset9 times the width in bytes (R65). -/
def memAddr (c : Core) (f : Fields) : Nat :=
  ofSigned 64 ((c.sreg f.a : Int) + Tidy.imm9 f * (2 ^ (f.ew % 4) : Nat))

/-- A scalar access that is not naturally aligned faults (R75). -/
def alignCheck (a n : Nat) : M Unit := do
  if a % n ≠ 0 then throw (.fail Status.descriptorInvalid 0x02)

/-- A scalar load into `dst`, sign-extended or not (R65, R77). That LD and LD.ACQ extend the sign of a narrow value and LDU does
not is a DESIGN CHOICE (log entry 85): R65 names them only. -/
def State.loadOp (s : State) (x : At) (op : Nat) (f : Fields) (signed : Bool) : State :=
  s.tidy x (Tidy.word 0x08 op f) true false fun c => do
    let n := 2 ^ (f.ew % 4)
    let a := memAddr c f
    alignCheck a n
    let v ← coreLoad x.core a n
    return c.setS f.dst (if signed then Tidy.sext (8 * n) v else v)

/-- A scalar store of the low bytes of `dst` (R65, R77); `first` is what its address must wait for. -/
def State.storeOp (s : State) (x : At) (op : Nat) (f : Fields) (ro : Bool) (first : Nat → M Unit) : State :=
  s.tidy x (Tidy.word 0x08 op f) true true fun c => do
    let n := 2 ^ (f.ew % 4)
    let a := memAddr c f
    alignCheck a n
    first a
    coreStore x.core a (leBytes n (c.sreg f.dst)) ro
    return c

/-- LD (R65, R77). -/
def execLd (x : At) (f : Fields) (s : State) : Outcome State Fault Refusal := .next (s.loadOp x 0x00 f true)

/-- LDU (R65, R77). -/
def execLdu (x : At) (f : Fields) (s : State) : Outcome State Fault Refusal := .next (s.loadOp x 0x01 f false)

/-- ST (R65, R77, R235). -/
def execSt (x : At) (f : Fields) (s : State) : Outcome State Fault Refusal :=
  .next (s.storeOp x 0x02 f true fun _ => return ())

/-- What STORE.REL waits for (R78, R237): the acknowledgement of every earlier store to device memory, CXL and peers, and in
read-back mode, where it stores to a host port, what FENCE.HOST waits for. -/
def releaseStep (n a : Nat) : M Unit := do
  fenceDevStep n
  let s ← get
  match (s.core n).task, coreAddr a 1 with
  | some t, .virtual va =>
    if (s.ctx t.o.ctx).readback then
      match ← translate (s.coreReq n t) va .write with
      | .host _ _ => fenceHostStep n
      | _ => return ()
  | _, _ => return ()

/-- STORE.REL (R78, R237): without Relaxed Ordering. -/
def execStoreRel (x : At) (f : Fields) (s : State) : Outcome State Fault Refusal :=
  .next (s.storeOp x 0x03 f false (releaseStep x.core))

/-- LD.ACQ (R77): accesses of a core are performed in program order here, so it is performed before any later one. -/
def execLdAcq (x : At) (f : Fields) (s : State) : Outcome State Fault Refusal := .next (s.loadOp x 0x04 f true)

/-! ### Atomics (class 0x09; R80) -/

/-- An atomic on the executing cluster's store. An address in the store that is not aligned faults as such; any other one faults
with cause 0x04, aligned or not (DESIGN CHOICE, log entry 85). `g` gives the value written, if any, and the flags raised, from the old
value, the operand and the compared register. The bits of `dst` above the old value are a free value. -/
def State.atomic (s : State) (x : At) (op : Nat) (f : Fields) (legal : Bool)
    (g : Nat → Nat → Nat → Nat → Option Nat × Nat) : State :=
  s.tidy x (Tidy.word 0x09 op f) (legal && Tidy.plain f && decide (2 ≤ f.ew % 4)) true fun c => do
    let n := 2 ^ (f.ew % 4)
    let w := 8 * n
    let a := c.sreg f.a
    if 2 ^ 63 + 0x400000 ≤ a ∧ a < 2 ^ 63 + 0x700000 then alignCheck a n
    match coreAddr a n with
    | .store off =>
      let old ← coreLoad x.core a n
      let (new, fl) := g w old (c.sreg f.b % 2 ^ w) (c.sreg f.dst % 2 ^ w)
      modify fun t => t.logWord x.core off
      if let some v := new then
        modify fun t => t.write (storeAddr (x.core / 4) off) (leBytes n v)
      let (v, t) := (← get).draw
      set t
      return (c.setS f.dst (old + v % 2 ^ 64 / 2 ^ w * 2 ^ w)).raiseFlags fl
    | .none =>
      if 2 ^ 63 + 0x700000 ≤ a ∧ a < 2 ^ 63 + 0x800000 then throw (.fail Status.faultPermission 0x03)
      else throw (.fail Status.faultPermission 0x04)
    | _ => throw (.fail Status.faultPermission 0x04)

/-- An atomic whose new value is an ALU operation of old value and operand. -/
def State.atomicAlu (s : State) (x : At) (op aluOp : Nat) (f : Fields) : State :=
  s.atomic x op f true fun w old b _ => (some (Tidy.alu w aluOp old b).1, 0)

/-- AADD (R80). -/
def execAadd (x : At) (f : Fields) (s : State) : Outcome State Fault Refusal := .next (s.atomicAlu x 0x00 0x00 f)

/-- AAND (R80). -/
def execAand (x : At) (f : Fields) (s : State) : Outcome State Fault Refusal := .next (s.atomicAlu x 0x01 0x05 f)

/-- AOR (R80). -/
def execAor (x : At) (f : Fields) (s : State) : Outcome State Fault Refusal := .next (s.atomicAlu x 0x02 0x06 f)

/-- AXOR (R80). -/
def execAxor (x : At) (f : Fields) (s : State) : Outcome State Fault Refusal := .next (s.atomicAlu x 0x03 0x07 f)

/-- ASWAP (R80). -/
def execAswap (x : At) (f : Fields) (s : State) : Outcome State Fault Refusal :=
  .next (s.atomic x 0x04 f true fun _ _ b _ => (some b, 0))

/-- ACAS (R80): compares with s[`dst`]. -/
def execAcas (x : At) (f : Fields) (s : State) : Outcome State Fault Refusal :=
  .next (s.atomic x 0x05 f true fun _ old b d => (if old = d then some b else none, 0))

/-- AMIN (R80). -/
def execAmin (x : At) (f : Fields) (s : State) : Outcome State Fault Refusal := .next (s.atomicAlu x 0x06 0x0D f)

/-- AMAX (R80). -/
def execAmax (x : At) (f : Fields) (s : State) : Outcome State Fault Refusal := .next (s.atomicAlu x 0x07 0x0E f)

/-- AMINU (R80). -/
def execAminu (x : At) (f : Fields) (s : State) : Outcome State Fault Refusal := .next (s.atomicAlu x 0x08 0x0F f)

/-- AMAXU (R80). -/
def execAmaxu (x : At) (f : Fields) (s : State) : Outcome State Fault Refusal := .next (s.atomicAlu x 0x09 0x10 f)

/-- AFADD (R80): fp32, RNE. -/
def execAfadd (x : At) (f : Fields) (s : State) : Outcome State Fault Refusal :=
  .next (s.atomic x 0x0A f (f.ew % 4 == 2) fun _ old b _ =>
    let (r, fl) := Tidy.withFlags (fadd fp32 old b)
    (some r, fl))

/-- AFMIN (R69, R80). -/
def execAfmin (x : At) (f : Fields) (s : State) : Outcome State Fault Refusal :=
  .next (s.atomic x 0x0B f (f.ew % 4 == 2) fun _ old b _ =>
    let (r, fl) := Tidy.quietOp fp32 (fmin fp32 old b) [old, b]
    (some r, fl))

/-- AFMAX (R69, R80). -/
def execAfmax (x : At) (f : Fields) (s : State) : Outcome State Fault Refusal :=
  .next (s.atomic x 0x0C f (f.ew % 4 == 2) fun _ old b _ =>
    let (r, fl) := Tidy.quietOp fp32 (fmax fp32 old b) [old, b]
    (some r, fl))

/-! ### Vector memory (class 0x18) -/

/-- The address of element `e` by the instruction's form: unit stride, stride s[`src_b`], or the byte offset in element `e`
of vector `src_b` (log entry 16). -/
def elemAddr (c : Core) (f : Fields) (op e : Nat) : Nat :=
  let n := 2 ^ (f.ew % 4)
  let base := c.sreg f.a
  let off := match op / 2 with
    | 0 => n * e
    | 1 => e * c.sreg f.b
    | _ => Tidy.elem (8 * n) (c.vreg f.b) e
  (base + off) % 2 ^ 64

/-- The active elements with their addresses, in element order. -/
def vectorPlaces (c : Core) (f : Fields) (op : Nat) : List (Nat × Nat) :=
  ((List.range (Tidy.count (Tidy.width f.ew))).filter (c.active f.mask)).map fun e => (e, elemAddr c f op e)

/-- Alignment of every active element (R75), and the local window for VLDX and VSTX. -/
def vectorCheck (f : Fields) (op : Nat) (ps : List (Nat × Nat)) : M Unit := do
  let n := 2 ^ (f.ew % 4)
  if ps.any fun p => p.2 % n != 0 then throw (.fail Status.descriptorInvalid 0x02)
  if 4 ≤ op && ps.any fun p => decide (p.2 < 2 ^ 63) then throw (.fail Status.faultPermission 0x03)

/-- Runs of elements that lie side by side in memory: first address and the elements. -/
def runsOf {α : Type} (n : Nat) : List (α × Nat) → List (Nat × List α)
  | [] => []
  | (e, a) :: ps =>
    match runsOf n ps with
    | (b, es) :: rest => if a + n = b then (a, e :: es) :: rest else (a, [e]) :: (b, es) :: rest
    | [] => [(a, [e])]

/-- Loads the runs; gives (element, value) pairs. -/
def loadRuns (n core : Nat) : List (Nat × List Nat) → M (List (Nat × Nat))
  | [] => return []
  | (a, es) :: rest => do
    let v ← coreLoad core a (n * es.length)
    let vs := es.mapIdx fun i e => (e, v / 2 ^ (8 * n * i) % 2 ^ (8 * n))
    let more ← loadRuns n core rest
    return vs ++ more

/-- Stores the runs of elements of a register, piece by piece. -/
def storeRuns (n core : Nat) (d : BitVec 2048) (l : List (Nat × List Nat)) : M Unit :=
  storeAll core true 0 (l.flatMap fun r =>
    let bytes := r.2.flatMap fun e => leBytes n (Tidy.elem (8 * n) d e)
    storePieces bytes.length r.1 bytes)

/-- VLD, VLDS and VLDX (R62, R65, R66). -/
def State.vload (s : State) (x : At) (op : Nat) (f : Fields) : State :=
  s.tidy x (Tidy.word 0x18 op f) true false fun c => do
    let n := 2 ^ (f.ew % 4)
    let ps := vectorPlaces c f op
    vectorCheck f op ps
    let vs ← loadRuns n x.core (runsOf n ps)
    return c.writeV f (8 * n) ((List.range (Tidy.count (8 * n))).map fun e =>
      (((vs.find? fun p => p.1 == e).map (·.2)).getD 0, 0))

/-- VST, VSTS and VSTX (R62, R65, R66). -/
def State.vstore (s : State) (x : At) (op : Nat) (f : Fields) : State :=
  s.tidy x (Tidy.word 0x18 op f) true true fun c => do
    let n := 2 ^ (f.ew % 4)
    let ps := vectorPlaces c f op
    vectorCheck f op ps
    storeRuns n x.core (c.vreg f.dst) (runsOf n ps)
    return c

/-- VLD. -/
def execVld (x : At) (f : Fields) (s : State) : Outcome State Fault Refusal := .next (s.vload x 0x00 f)

/-- VST. -/
def execVst (x : At) (f : Fields) (s : State) : Outcome State Fault Refusal := .next (s.vstore x 0x01 f)

/-- VLDS. -/
def execVlds (x : At) (f : Fields) (s : State) : Outcome State Fault Refusal := .next (s.vload x 0x02 f)

/-- VSTS. -/
def execVsts (x : At) (f : Fields) (s : State) : Outcome State Fault Refusal := .next (s.vstore x 0x03 f)

/-- VLDX. -/
def execVldx (x : At) (f : Fields) (s : State) : Outcome State Fault Refusal := .next (s.vload x 0x04 f)

/-- VSTX. -/
def execVstx (x : At) (f : Fields) (s : State) : Outcome State Fault Refusal := .next (s.vstore x 0x05 f)

end Sys2Proof.Machine
end

