-- ==== Sys2Proof/Machine/TidyTasks.lean ====
section
/-! DEFINITION. VECTOR_RUN, its tasks, and the replay of tidy-core work (04_tidy_cores.md, R82 to R86;
15_silent_errors_and_replay.md, R334 to R342). -/

namespace Sys2Proof.Machine

open Host (Outcome)

namespace State

/-! ### VECTOR_RUN (R82, R83, R268, R337) -/

/-- The slices of a VECTOR_RUN over `c` clusters, each with its share of the tasks. -/
def taskSlices (w c : Nat) (places : List Nat) : List Slice :=
  (List.range c).map fun j =>
    let lo := j * VecOp.tasks w / c
    { unit := 1, place := places[j]?, lo := lo, hi := (j + 1) * VecOp.tasks w / c,
      work := .tc lo 0 none }

/-- VECTOR_RUN: checked, cut into shares and placed; a partition with fewer clusters than `cluster_count` gives as many shares as it
has clusters, those out for a time included (R83). The op's copy holds whether it runs checked. -/
def vectorRun (s : State) (o : OpRef) : State :=
  let s := s.dispatch o 0x02 fun x r => do
    if !VecOp.ok x.word then failWith Status.descriptorInvalid
    let s ← get
    let es := s.eligibles r.ctx 1
    let order := es.filter (s.freeFor 1) ++ es.filter fun c => !s.freeFor 1 c
    let c := min (VecOp.clusters x.word) ((List.range 64).filter (s.member r.ctx)).length
    if es.isEmpty then failWith Status.descriptorInvalid
    return { x with
      copies := [b2n (VecOp.checked x.word || s.obj 0x5035 r.part == 1)]
      slices := taskSlices x.word c (order.take c) }
  match s.op? o with
  | some x =>
    if x.phase = .dispatched ∧ OpHdr.opcode x.word = 0x02 ∧ x.slices.any (fun y => y.phase == .waiting) then s.placeAll o
    else s
  | none => s

/-- The VECTOR_RUN op runs checked (R81, R337). -/
def runsChecked (x : Op) : Bool := x.copies.headD 0 == 1

/-- Core `k` of a cluster may take a task: none runs there, it is in service, and no canary is due (R84, R334, R339, R341). -/
def coreFree (s : State) (cc k : Nat) : Bool :=
  let c := s.core (4 * cc + k)
  c.task.isNone && !c.mustPass && !flag (s.obj 0x5038 cc) k && !(s.cluster cc).canaryDue.contains k

/-- The lowest-numbered free core. -/
def freeCore (s : State) (cc : Nat) : Option Nat := (List.range 4).find? (s.coreFree cc)

/-- The 32-bit instructions of a code image. Instruction memory above it holds zeros, which are NOPs: DESIGN CHOICE (log entry 85),
since R84 gives its contents there no value. -/
def codeWords : List (BitVec 8) → Nat → AMap Nat
  | a :: b :: c :: d :: rest, i =>
    let w := leNat [a, b, c, d]
    if w = 0 then codeWords rest (i + 1) else (i, w) :: codeWords rest (i + 1)
  | _, _ => []

/-- The image resident on a core serves this op without being fetched (R84): the op's own, or one kept across ops. -/
def imageKept (c : Core) (o : OpRef) (w : Nat) : Bool :=
  match c.image with
  | none => false
  | some i => i.o == o || (i.keep && VecOp.codeKeep w && i.o.ctx == o.ctx && i.code == VecOp.code w && i.len == VecOp.codeLen w)

/-- The code image of a task as instruction memory (R84); an access that is not permitted stops the task with cause 0x06 (R85). -/
def fetchImage (r : Req) (w : Nat) : M (AMap Nat) := do
  let bs ← tryCatch (fetchVA r (VecOp.code w) (256 * VecOp.codeLen w)) fun e =>
    match e with
    | .fail st code => throw (.fail st (if st = Status.faultPermission then 0x06 else code))
    | e => throw e
  return codeWords bs 0

/-- The state of a core at a task's start (R84). The images are read through the core's own translations, so an access that
fails stops the task. -/
def loadTask (n : Nat) (x : Op) (t : Task) : M Unit := do
  let s ← get
  let c := s.core n
  let r := s.coreReq n t
  let w := x.word
  let keep := imageKept c t.o w
  let imem ← if keep then pure c.imem else fetchImage r w
  let data ← readVA r (VecOp.data w) (256 * VecOp.dataLen w)
  let u ← get
  let d : Core := {
    imem := imem, dmem := putData [] 0 data, pc := VecOp.entry w, task := some t
    image := if keep then c.image else some ⟨t.o, VecOp.code w, VecOp.codeLen w, VecOp.codeKeep w⟩ }
  let d := ((d.setS 1 (VecOp.arg0 w)).setS 2 (VecOp.arg1 w)).setS 28 (n / 4)
  let d := ((d.setS 29 (n % 4)).setS 30 t.index).setS 31 (VecOp.tasks w)
  set (u.setCore n d)

/-- A task begins on core `n`, its images read in state `u`. While they cannot be read it has not begun, and the state is `s`; a
failure stops it. -/
def beginTask (s u : State) (n : Nat) (x : Op) (t : Task) (began : State → State) : State :=
  s.settle ((loadTask n x t).run u) (fun _ u => began u)
    (fun st code u =>
      let (v, u) := u.draw
      (began (u.setCore n { task := some t })).stopTask n st (if code ≠ 0 then code else causeOf st false v))

/-- The next task of a slice has been taken. -/
def takeTask (s : State) (o : OpRef) (k : Nat) : State :=
  s.modSlice o k fun y => match y.work with
    | .tc next fl stop => { y with work := .tc (next + 1) fl stop }
    | _ => y

/-- A checked VECTOR_RUN holds the device area for its whole run (R90, R336). -/
def mayUseArea (s : State) (cc : Nat) (o : OpRef) : Bool :=
  match (s.cluster cc).devArea with
  | none => true
  | some p => p == o

def useArea (s : State) (cc : Nat) (o : OpRef) : State := s.setCluster cc { s.cluster cc with devArea := some o }

/-- The canary's list gains an unchecked VECTOR_RUN's task (R342): one entry for each op and core. -/
def noteSuspect (s : State) (n : Nat) (o : OpRef) (index : Nat) : State :=
  let x := s.cluster (n / 4)
  let seq := ((s.entry? o.ctx o.entry).map (·.seq)).getD 0
  let part := (s.ctx o.ctx).partition
  let same := fun (e : Suspect) =>
    e.entry == o.entry && e.seq == seq && e.op == o.op && e.ctx == o.ctx && e.core == n % 4 && e.part == part
  let h := if x.history.any same then
      x.history.map fun e => if same e then { e with first := min e.first index, last := max e.last index } else e
    else x.history ++ [⟨o.entry, part, seq, o.op, o.ctx, n % 4, index, index⟩]
  s.setCluster (n / 4) { x with history := h }

/-- TASK_START (R84, R269): the next task of the slice at the head of its class, on the lowest-numbered free core. -/
def taskStart (s : State) (cc : Nat) : State :=
  match s.atHead cc 1 with
  | none => s
  | some r =>
    match s.op? r.o, s.slice? r.o r.k, s.freeCore cc with
    | some x, some y, some k =>
      match y.work with
      | .tc next _ _ =>
        let checked := runsChecked x
        if !s.running || decide (y.hi ≤ next) || s.opStopped r.o || (checked && !s.mayUseArea cc r.o) then s
        else
          let n := 4 * cc + k
          let t : Task := { o := r.o, k := r.k, index := next, checked := checked, restartable := checked }
          let s := s.startSlice r.o r.k
          s.beginTask s n x t fun u =>
            let u := u.takeTask r.o r.k
            if checked then u.useArea cc r.o else u.noteSuspect n r.o next
      | _ => s
    | _, _, _ => s

/-- CYCLE_LIMIT_EXCEEDED (R85): only where the op sets a limit. -/
def cycleLimit (s : State) (n : Nat) : State :=
  match (s.core n).task with
  | some t =>
    if s.coreRuns n && (s.op? t.o).any fun x => VecOp.cycleLimit x.word != 0 then s.stopTask n Status.internal 0x09 else s
  | none => s

/-! ### Canaries (R339 to R342) -/

/-- The suspect report of a failing core (R342): the cluster's previous report is replaced. -/
def postSuspects (s : State) (n : Nat) : State :=
  let cc := n / 4
  let x := s.cluster cc
  let mine := x.history.filter fun e => e.core == n % 4
  let parts := mine.foldl (fun m e => m ||| 2 ^ e.part) 0
  let s := s.setCluster cc { x with report := mine, history := x.history.filter fun e => e.core != n % 4 }
  (s.setObj 0x5051 cc (min mine.length 64)).raise 2 2 parts 0x5050 cc 0

/-- Core `n` runs its canary: `first` and `second` say which of its runs fail (R340, R341). -/
def runCanary (s : State) (n : Nat) (first second : Bool) : State :=
  let cc := n / 4
  let s := s.addObj 0x5034 cc 1
  let x := s.cluster cc
  let s := s.setCluster cc { x with canaryDue := x.canaryDue.filter (· != n % 4) }
  if !first then
    let x := s.cluster cc
    (s.setCluster cc { x with history := x.history.filter fun e => e.core != n % 4 }).setCore n
      { s.core n with mustPass := false }
  else
    let s := (s.addObj 0x5036 cc 1).addObj 0x5034 cc 1
    let s := s.postSuspects n
    if !second then s.setCore n { s.core n with mustPass := false }
    else
      let s := (s.addObj 0x5036 cc 1).setObj 0x5038 cc (s.obj 0x5038 cc ||| 2 ^ (n % 4))
      let s := s.setCore n { s.core n with mustPass := true }
      (s.raise 2 1 0xFF 0x5038 cc 0).triggerSparing cc

/-- CANARY_RUN (R339): the cores due run it before their next task; `first` and `second` are masks of the cores whose first
and second run fails. -/
def canaryRun (s : State) (cc first second : Nat) : State :=
  if !s.running || (s.cluster cc).canaryDue.any (fun k => (s.core (4 * cc + k)).task.isSome) then s
  else (s.cluster cc).canaryDue.foldl (fun t k => t.runCanary (4 * cc + k) (flag first k) (flag second k)) s

/-! ### Resume and restart (R334, R335) -/

/-- TASK_MOVE (R334, steps 2 to 4): the retry has failed, and once the core has no access outstanding the task's state moves to the lowest-numbered free core and the
first core runs the canary. A task that has already moved for the instruction at its program counter stops with cause 0x08. -/
def taskMove (s : State) (n : Nat) (first second : Bool) : State :=
  let c := s.core n
  match c.task with
  | none => s
  | some t =>
    if !s.coreRuns n || s.coreBusy n != 0 then s
    else if t.moved then s.stopTask n Status.silentError 0x08
    else
      match s.freeCore (n / 4) with
      | none => s
      | some k =>
        let m := 4 * (n / 4) + k
        let s := s.setCore m { c with task := some { t with moved := true }, mustPass := false }
        let s := s.setCore n { mustPass := true }
        let s := (s.addObj 0x5030 (n / 4) 1).addObj 0x5031 (n / 4) 1
        let s := if t.checked then s else s.noteSuspect m t.o t.index
        s.runCanary n first second

/-- The code image fetched again after a parity failure in instruction memory: the task goes on at the failing instruction
(R335). -/
def refetch (s : State) (n : Nat) (t : Task) : State :=
  match s.op? t.o with
  | none => s
  | some x =>
    s.runM (fetchImage (s.coreReq n t) x.word)
      (fun im u => u.setCore n { u.core n with imem := im, task := some { t with refetched := true } })
      (fun st code u =>
        let (v, u) := u.draw
        u.stopTask n st (if code ≠ 0 then code else causeOf st false v))

/-- TASK_RESTART (R335): with `parity`, an instruction's word fails its parity and the image is fetched again, the first time at
that instruction. Otherwise, once the core has no access outstanding, the log is written back and the task starts again on
another free core; a task that is not restartable, or was restarted before, stops with cause 0x08. An image that cannot be
read yet is asked for again by the next such command, and the log is written back then. -/
def taskRestart (s : State) (n : Nat) (first second parity : Bool) : State :=
  let c := s.core n
  match c.task with
  | none => s
  | some t =>
    if !s.coreRuns n then s
    else if parity && !t.refetched then s.refetch n t
    else if s.coreBusy n != 0 then s
    else if t.restarted || !t.restartable then s.stopTask n Status.silentError 0x08
    else
      match s.freeCore (n / 4), s.op? t.o with
      | some k, some x =>
        let m := 4 * (n / 4) + k
        let u := (s.undoLog n t).setCore n { mustPass := true }
        let t' : Task := { o := t.o, k := t.k, index := t.index, checked := t.checked, restartable := t.checked, restarted := true }
        s.beginTask u m x t' fun v => (v.addObj 0x5032 (n / 4) 1).runCanary n first second
      | _, _ => s

end State

/-- VECTOR_RUN (R82, R83). -/
def execVectorRun (o : OpRef) (s : State) : Outcome State Fault Refusal :=
  .next (if s.running then s.vectorRun o else s)

/-- TASK_START (R84). -/
def execTaskStart (cc : Nat) (s : State) : Outcome State Fault Refusal := .next (s.taskStart cc)

/-- CYCLE_LIMIT_EXCEEDED (R85). -/
def execCycleLimitExceeded (core : Nat) (s : State) : Outcome State Fault Refusal := .next (s.cycleLimit core)

/-- TASK_MOVE (R334). -/
def execTaskMove (core : Nat) (first second : Bool) (s : State) : Outcome State Fault Refusal :=
  .next (s.taskMove core first second)

/-- TASK_RESTART (R335). -/
def execTaskRestart (core : CoreFail) (first second : Bool) (s : State) : Outcome State Fault Refusal :=
  .next (s.taskRestart core.core first second core.parity)

/-- CANARY_RUN (R339, R340). -/
def execCanaryRun (cc first second : Nat) (s : State) : Outcome State Fault Refusal := .next (s.canaryRun cc first second)

end Sys2Proof.Machine
end

