-- ==== Sys2Proof/Machine/Matmul.lean ====
section
/-! DEFINITION. Matrix engines (03_matrix_engines.md) with the arithmetic of 02_formats_and_quantisation.md: the MATMUL op,
its tiles, the feeder, the checksum compare, replay, the epilogue, and the ramp of the lanes. -/

namespace Sys2Proof.Machine

open Host (Outcome)

/-! ### Reading and writing through descriptors (R91, R95, R96, R98) -/

/-- A descriptor with its extension, which follows as bits [767:512] where `dist` is set (R98, R103); a descriptor that
breaks R97 or R104 fails. -/
def readDesc (r : Req) (va : Nat) : M Nat := do
  let d ← readNum r va 64
  let x ← if Desc.dist d then readNum r (va + 64) 32 else pure 0
  let d := d + x * 2 ^ 512
  if !Desc.ok d then failWith Status.descriptorInvalid
  return d

/-- The values of `n`-byte cells at a list of addresses, those that lie side by side read together; the Bool of each says
whether it came from a poisoned atom. -/
def readCellRuns (r : Req) (n : Nat) : List (Nat × List Nat) → M (List (Nat × Bool))
  | [] => return []
  | (a, es) :: rest => do
    let (bs, marks) ← readMarked r a (n * es.length)
    let vs := (List.range es.length).map fun i =>
      (leNat ((bs.drop (n * i)).take n), ((marks.drop (n * i)).take n).any id)
    let more ← readCellRuns r n rest
    return vs ++ more

def readCells (r : Req) (n : Nat) (as : List Nat) : M (List (Nat × Bool)) :=
  readCellRuns r n (runsOf n (as.map fun a => (0, a)))

/-- Bytes at which an element is read: whole elements, or the byte that holds an int4. -/
def cellBytes (d : Nat) : Nat := Desc.elemBytes d

/-- The code of an element in its cell: a nibble of an int4's byte, otherwise the cell. -/
def cellElem (d : Nat) (ix : List Nat) (v : Nat) : Nat :=
  if Desc.elemType d = 0 then (if ix.getD 0 0 % 2 = 0 then v % 16 else v / 16 % 16) else v

/-- The elements at indices inside a tensor, as input: poison fails the reader (R361). -/
def readElems (r : Req) (d : Nat) (ixs : List (List Nat)) : M (List Nat) := do
  let vs ← readCells r (cellBytes d) (ixs.map (Desc.addr d))
  if vs.any (·.2) then failWith Status.poisonConsumed
  return (ixs.zip vs).map fun p => cellElem d p.1 p.2.1

/-- Writes of `n`-byte cells, those side by side together. -/
def writeCellRuns (r : Req) (n : Nat) : List (Nat × List Nat) → M Unit
  | [] => return ()
  | (a, vs) :: rest => do
    writeMarked r a (vs.flatMap (leBytes n)) [] true
    writeCellRuns r n rest

def writeCells (r : Req) (n : Nat) (cells : List (Nat × Nat)) : M Unit :=
  writeCellRuns r n (runsOf n (cells.map fun c => (c.2, c.1)))

/-! ### The numeric sticky flags of a slice (R47) -/

/-- Flags met by MATMUL slice `k` of an op, kept in its work until it ends, however it ends (R47). -/
def State.meetFlags (s : State) (o : OpRef) (k fl : Nat) : State :=
  if fl = 0 then s
  else s.modSlice o k fun y => match y.work with
    | .me todo f begun => { y with work := .me todo (f ||| fl) begun }
    | _ => y

/-! ### The feeder (R22 to R24, R28) -/

/-- `rne_int` of an fp32 value; where it is no number, which a row's zero point gives only for an entry that is not finite, a
free value (log entry 17). -/
def rneOr (free x : Nat) : Int := if isFinite fp32 x then frneInt fp32 x else toSigned 32 free

/-- Scale, its reciprocal and zero point of a row from its side-band entry (R22). DESIGN CHOICE (log entry 17): a NaN that
software wrote as `row_min` or `row_max` counts as 0.0, for R22 gives no minimum or maximum with a NaN. -/
def rowScale (free entry : Nat) : Nat × Nat × Int :=
  let lo := flush fp32 (fmin fp32 (flush fp32 (entry % 2 ^ 32)) 0)
  let hi := flush fp32 (fmax fp32 (flush fp32 (entry / 2 ^ 32 % 2 ^ 32)) 0)
  let q := eDiv (eSub hi lo) (fofInt fp32 255).1
  let s := if feq fp32 hi lo || feq fp32 q 0 then f32One else q
  let r := eDiv f32One s
  (s, r, -128 - rneOr free (eMul lo r))

/-- The code fed for a bf16 element (R18, R22, R23): an element so far outside the entry's range that its product overflows
takes the nearer end, as every other one outside the range does. -/
def feedCode (r : Nat) (z : Int) (x : Nat) : Int :=
  match fdecode bf16 x with
  | .nan => z
  | .inf neg => if neg then -128 else 127
  | .fin neg _ _ =>
    let y := eMul (bfToF32 x) r
    if isFinite fp32 y then max (-128) (min 127 (frneInt fp32 y + z)) else if neg then -128 else 127

/-- A row of A as the lanes see it: codes or bf16 patterns, scale, zero point, row sum (R24). -/
structure FedRow where
  codes : List Int
  scale : Nat
  zero : Int
  sum : Int

/-- What a tile reads: the fed rows and the weight columns. -/
structure TileIn where
  rows : List FedRow
  cols : List (List Int)

/-- The tile's first row and column (R59). -/
def tileRow (w t n : Nat) : Nat := 64 * (t / ceilDiv n (MatOp.tileCols w))
def tileCol (w t n : Nat) : Nat := MatOp.tileCols w * (t % ceilDiv n (MatOp.tileCols w))

/-- The side-band entry of row `i`, read once per op and kept in it with the free value drawn beside it: a later change of the
entry has no effect on the op (R22, R24). -/
def rowEntry (r : Req) (o : OpRef) (w i : Nat) : M (Nat × Nat) := do
  match ((← get).op? o).bind fun x => AMap.get? x.fed i with
  | some e => return e
  | none =>
    let entry ← readNum r (MatOp.sbIn w + 8 * i) 8
    let (v, t) := (← get).draw
    set (t.modOp o fun x => { x with fed := AMap.set x.fed i (entry, v) })
    return (entry, v)

/-- Row `i` of A fed to the lanes of slice `k`; a NaN or an infinity raises `invalid_input` as it is met (R23, R47). -/
def feedRow (r : Req) (o : OpRef) (k w a i : Nat) : M FedRow := do
  let xs ← readElems r a ((List.range (Desc.extent a 0)).map fun j => [j, i])
  modify fun s => s.meetFlags o k (b2n (xs.any fun x => !isFinite bf16 x))
  if MatOp.mode w = 2 then return ⟨xs.map Int.ofNat, f32One, 0, 0⟩
  else
    let (entry, v) ← rowEntry r o w i
    let (s, q, z) := rowScale v entry
    let cs := xs.map (feedCode q z)
    return ⟨cs, s, z, cs.foldl (· + ·) 0⟩

def feedRows (r : Req) (o : OpRef) (k w a : Nat) : List Nat → M (List FedRow)
  | [] => return []
  | i :: is => do
    let x ← feedRow r o k w a i
    let xs ← feedRows r o k w a is
    return x :: xs

/-- Column `j` of B: signed codes, or bf16 patterns. -/
def readCols (r : Req) (w b : Nat) : List Nat → M (List (List Int))
  | [] => return []
  | j :: js => do
    let vs ← readElems r b ((List.range (Desc.extent b 0)).map fun k => [k, j])
    let col := vs.map fun v => if MatOp.mode w = 2 then Int.ofNat v else toSigned (Desc.elemBits b) v
    let rest ← readCols r w b js
    return col :: rest

/-- The inputs of tile `t` of slice `k`. -/
def readTile (r : Req) (o : OpRef) (k w a b t : Nat) : M TileIn := do
  let m := Desc.extent a 1
  let n := Desc.extent b 1
  let i0 := tileRow w t n
  let j0 := tileCol w t n
  let rows ← feedRows r o k w a ((List.range (min 64 (m - i0))).map (i0 + ·))
  let cols ← readCols r w b ((List.range (min (MatOp.tileCols w) (n - j0))).map (j0 + ·))
  return ⟨rows, cols⟩

/-- bf16 accumulation, one fused multiply-add per K-step (R28). -/
def dotBf16 : List Int → List Int → Nat → Nat
  | a :: as, b :: bs, acc => dotBf16 as bs (eFma (bfToF32 a.toNat) (bfToF32 b.toNat) acc)
  | _, _, acc => acc

/-- Integer accumulation, modulo 2^32 (R28). -/
def dotInt : List Int → List Int → Int
  | a :: as, b :: bs => a * b + dotInt as bs
  | _, _ => 0

/-- The accumulators of a tile, row by row. -/
def accumulate (w : Nat) (x : TileIn) : List Nat :=
  x.rows.flatMap fun r => x.cols.map fun c =>
    if MatOp.mode w = 2 then dotBf16 r.codes c 0 else ofSigned 32 (dotInt r.codes c)

/-- The buffer a tile fills. -/
def fillBuf (o : OpRef) (k t w : Nat) (x : TileIn) : TileBuf :=
  { o := o, k := k, tile := t, acc := accumulate w x, sums := x.rows.map (·.sum),
    scales := x.rows.map fun r => (r.scale, r.zero) }

/-! ### The checksum compare (R40, R43, R50, R51, R53) -/

/-- The logical lane that physical lane `p` serves when lane `out` is left out; 32 leaves out the spare (R52). -/
def logicalLane (out p : Nat) : Option Nat :=
  if p = out ∨ 32 < p then none else some (if p < out then p else p - 1)

/-- Columns per lane (R40). -/
def perLane (w : Nat) : Nat := if MatOp.mode w = 2 then 4 else 8

/-- Errors of a run by logical lane: (lane, cell, difference), cell `i * perLane + p`. -/
def laneErrors (out : Nat) (run : TileRun) : List (Nat × Nat × Nat) :=
  run.lanes.filterMap fun e => (logicalLane out e.1).map fun l => (l, e.2)

/-- The accumulators with a run's errors in them; `cols` columns are kept, the others are padding. -/
def withErrors (w cols : Nat) (acc : List Nat) (es : List (Nat × Nat × Nat)) : List Nat :=
  es.foldl (fun l e =>
    let i := e.2.1 / perLane w
    let j := e.1 * perLane w + e.2.1 % perLane w
    if j < cols then
      let at_ := i * cols + j
      let v := l.getD at_ 0
      l.set at_ (if MatOp.mode w = 2 then eAdd v e.2.2 else (v + e.2.2) % 2 ^ 32)
    else l) acc

/-- The value of a finite fp32 pattern in units of 2^-149. -/
def f32Units (x : Nat) : Int :=
  match fdecode fp32 x with
  | .fin neg m e => (if neg then -1 else 1) * ((m * 2 ^ (e + 149).toNat : Nat) : Int)
  | _ => 0

/-- The tolerance exponent e (R51). -/
def tolOf (s : State) (w : Nat) : Nat :=
  match MatOp.tolExp w with
  | 0 => s.obj 0x5010 2
  | 1 => 16
  | e => e

/-- K lies beyond the limit of e (R51). -/
def overTol (s : State) (w k : Nat) : Bool := MatOp.mode w == 2 && decide (2 ^ (23 - tolOf s w) < k + 34)

/-- A column of a padded or real lane position: its bf16 weights, none for padding. -/
def laneCol (x : TileIn) (l p : Nat) : List Int := x.cols.getD (4 * l + p) []

/-- Sum over the lanes in lane order of a weight function at one k. -/
def laneSum (x : TileIn) (p k : Nat) (g : Nat → Nat → Nat) : Nat :=
  (List.range 32).foldl (fun a l =>
    match (laneCol x l p)[k]? with
    | some v => eAdd a (g l (bfToF32 v.toNat))
    | none => a) 0

/-- An fp32 number as a weight factor. -/
def f32Nat (n : Nat) : Nat := (fofInt fp32 n).1

/-- The checksum of row codes against per-k sums (R51). -/
def checkAcc (codes : List Int) (g : Nat → Nat) (h : Nat → Nat) : Nat :=
  ((List.range codes.length).foldl (fun a k => eFma (h (bfToF32 (codes.getD k 0).toNat)) (g k) a) 0)

/-- The value that a run leaves in cell `c` of logical lane `l`: the accumulator, or what zeros give in a padded row or column
(R59), with the run's errors in it. -/
def laneCell (k : Nat) (x : TileIn) (acc : List Nat) (es : List (Nat × Nat × Nat)) (l c : Nat) : Nat :=
  let i := c / 4
  let j := 4 * l + c % 4
  let n := x.cols.length
  let clean :=
    if i < x.rows.length ∧ j < n then acc.getD (i * n + j) 0
    else dotBf16 (((x.rows[i]?).map (·.codes)).getD (List.replicate k 0)) (x.cols.getD j (List.replicate k 0)) 0
  (es.filter fun e => e.1 == l && e.2.1 == c).foldl (fun v e => eAdd v e.2.2) clean

/-- One bf16 checksum cell: whether it passes, and the differences d1 and d2 of R53. `acc` is free of errors; `es` are the
run's. DESIGN CHOICE (log entry 83): where L and C are finite and G is not a number, R51's inequality has no stated outcome
and the cell passes. -/
def bf16Cell (e : Nat) (x : TileIn) (acc : List Nat) (es : List (Nat × Nat × Nat)) (i p : Nat) : Bool × Nat × Nat :=
  let k := ((x.cols.head?).map (·.length)).getD 0
  let codes := ((x.rows[i]?).map (·.codes)).getD (List.replicate k 0)
  let cells := (List.range 32).map fun l => laneCell k x acc es l (4 * i + p)
  let c := checkAcc codes (fun k => laneSum x p k fun _ v => v) id
  let g := checkAcc codes (fun k => laneSum x p k fun _ v => fabs fp32 v) (fabs fp32)
  let sum := cells.foldl eAdd 0
  let c2 := checkAcc codes (fun k => laneSum x p k fun l v => eMul (f32Nat (l + 1)) v) id
  let sum2 := (cells.zipIdx).foldl (fun a v => eAdd a (eMul (f32Nat (v.2 + 1)) v.1)) 0
  let pass :=
    if isFinite fp32 sum && isFinite fp32 c then
      !isFinite fp32 g || decide (((f32Units sum - f32Units c).natAbs : Int) * (2 ^ e : Nat) ≤ f32Units g + (2 ^ (49 + e) : Nat))
    else !isFinite fp32 sum && !isFinite fp32 c
  (pass, eSub sum c, eSub sum2 c2)

/-- The failing cells of a run with their differences: (cell, d1, d2); padded outputs are checked too (R59). -/
def failingCells (s : State) (w : Nat) (x : TileIn) (acc : List Nat) (es : List (Nat × Nat × Nat)) :
    List (Nat × Nat × Nat) :=
  if MatOp.mode w = 2 then
    (List.range 256).filterMap fun c =>
      let (ok, d1, d2) := bf16Cell (tolOf s w) x acc es (c / 4) (c % 4)
      if ok then none else some (c, d1, d2)
  else
    (List.range 512).filterMap fun c =>
      let mine := es.filter fun e => e.2.1 == c
      let d1 := mine.foldl (fun a e => (a + e.2.2) % 2 ^ 32) 0
      let d2 := mine.foldl (fun a e => (a + (e.1 + 1) * e.2.2) % 2 ^ 32) 0
      if d1 = 0 then none else some (c, d1, d2)

/-- The logical lanes a failing cell may name (R53). -/
def namedBy (w : Nat) (c : Nat × Nat × Nat) : List Nat :=
  if MatOp.mode w = 2 then
    let q := eDiv c.2.2 c.2.1
    (List.range 32).filter fun l => isFinite fp32 q && frneInt fp32 q - 1 == (l : Int)
  else (List.range 32).filter fun l => (l + 1) * c.2.1 % 2 ^ 32 == c.2.2

/-- The one logical lane that every failing cell names (R53). -/
def namedLane (w : Nat) (cells : List (Nat × Nat × Nat)) : Option Nat :=
  match cells.map (namedBy w) with
  | [] => none
  | l :: ls => if l.length = 1 ∧ ls.all (· == l) then l.head? else none

/-! ### The epilogue (R29 to R31, R46, R47) -/

/-- The activation (R46). -/
def activation (w t : Nat) : Nat :=
  if isNan fp32 t then t
  else
    match MatOp.act w with
    | 0 => t
    | 1 => if flt fp32 0 t then t else 0
    | 2 => fmin fp32 (fmax fp32 t (flush fp32 (bfToF32 (MatOp.clampLo w)))) (flush fp32 (bfToF32 (MatOp.clampHi w)))
    | _ =>
      let eight := f32Nat 8
      if flt fp32 t (fneg fp32 eight) then Sigmoid.entry 0
      else if fle fp32 eight t then Sigmoid.entry 256
      else
        let y := eMul (eAdd t eight) (f32Nat 16)
        match fdecode fp32 y with
        | .fin neg m e =>
          let n := (floorInt neg m e).toNat
          if 256 ≤ n then Sigmoid.entry 256
          else eFma (eSub y (f32Nat n)) (eSub (Sigmoid.entry (n + 1)) (Sigmoid.entry n)) (Sigmoid.entry n)
        | _ => Sigmoid.entry 256

/-- Fields of a rescale entry (R26). -/
def rsBias (e : Nat) : Nat := bits e 127 96
def rsZero (e : Nat) : Int := toSigned 8 (bits e 71 64)
def rsSum (e : Nat) : Int := toSigned 32 (bits e 63 32)
def rsScale (e : Nat) : Nat := bits e 31 0

/-- One integer as fp32 (one rounding). -/
def f32Int (z : Int) : Nat := (fofInt fp32 z).1

/-- One output cell up to step 5 (R29, R30). -/
def outCell (w k entry acc : Nat) (sum : Int) (scale : Nat × Int) : Nat :=
  let t :=
    if MatOp.mode w = 2 then acc
    else
      let t := f32Int (toSigned 32 acc)
      let t := eFma (f32Int (-rsZero entry)) (f32Int sum) t
      let t := eFma (f32Int (-scale.2)) (f32Int (rsSum entry)) t
      eAdd t (f32Int ((k : Int) * scale.2 * rsZero entry))
  let t := eMul t (eMul scale.1 (rsScale entry))
  activation w (eAdd t (rsBias entry))

/-- Step 6: the output pattern, its fp32 value, and the `overflow` and `nan_out` flags (R29, R47). -/
def toOutput (w t : Nat) : Nat × Nat × Nat :=
  if MatOp.outFp32 w then (t, t, b2n (isNan fp32 t) * 4)
  else
    let r := flush bf16 (fconv fp32 bf16 t).1
    (r, bfToF32 r, b2n (isFinite fp32 t && !isFinite bf16 r && !isNan bf16 r) * 2 + b2n (isNan bf16 r) * 4)

/-- The epilogue of a tile: outputs by cell, with flags. -/
def outputs (w k n : Nat) (b : TileBuf) (entries : List Nat) : List (List (Nat × Nat × Nat)) :=
  (List.range b.scales.length).map fun i =>
    (List.range n).map fun j =>
      toOutput w (outCell w k (entries.getD j 0) (b.acc.getD (i * n + j) 0) (b.sums.getD i 0) (b.scales.getD i (f32One, 0)))

/-- Side-band entries of rows merged with the finite values written (R31). -/
def mergeRows (r : Req) (sb : Nat) : List (Nat × List Nat) → M Unit
  | [] => return ()
  | (i, vs) :: rest => do
    let old ← readNum r (sb + 8 * i) 8
    writeVA r (sb + 8 * i) (leBytes 8 (vs.foldl mergeSideBand old))
    mergeRows r sb rest

/-- Outputs (value, flags) written from address `a` on, `n` bytes each, page by page; each page's flags are met once it is
written (R47). -/
def writeOutRun (r : Req) (o : OpRef) (k n : Nat) : Nat → Nat → List (Nat × Nat) → M Unit
  | 0, _, _ => return ()
  | fuel + 1, a, vs => do
    if vs.isEmpty then return ()
    let m := max 1 ((4096 - a % 4096) / n)
    writeMarked r a ((vs.take m).flatMap fun v => leBytes n v.1) [] true
    modify fun s => s.meetFlags o k ((vs.take m).foldl (fun f v => f ||| v.2) 0)
    writeOutRun r o k n fuel (a + n * m) (vs.drop m)

/-- Outputs written, those side by side together. -/
def writeOutRuns (r : Req) (o : OpRef) (k n : Nat) : List (Nat × List (Nat × Nat)) → M Unit
  | [] => return ()
  | (a, vs) :: rest => do
    writeOutRun r o k n (vs.length + 1) a vs
    writeOutRuns r o k n rest

/-- The epilogue's writes of a passed tile. -/
def drainTile (r : Req) (w a b out : Nat) (t : TileBuf) : M Unit := do
  let n := Desc.extent b 1
  let i0 := tileRow w t.tile n
  let j0 := tileCol w t.tile n
  let cols := min (MatOp.tileCols w) (n - j0)
  let es ← readCells r 16 ((List.range cols).map fun j => MatOp.rescale w + 16 * (j0 + j))
  if es.any (·.2) then failWith Status.poisonConsumed
  let outs := outputs w (Desc.extent a 0) cols t (es.map (·.1))
  let cells := (outs.mapIdx fun i row => row.mapIdx fun j v => ((v.1, v.2.2), Desc.addr out [j0 + j, i0 + i])).flatten
  writeOutRuns r t.o t.k (Desc.elemBytes out) (runsOf (Desc.elemBytes out) cells)
  if MatOp.sbMode w ≠ 0 then
    mergeRows r (MatOp.sbOut w) (outs.mapIdx fun i row => (i0 + i, (row.map (·.2.1)).filter (isFinite fp32)))

/-! ### The op (R57 to R60, R268) -/

/-- Byte spans overlap. -/
def spansMeet (x y : Nat × Nat) : Bool := decide (x.1 ≤ y.2) && decide (y.1 ≤ x.2)

/-- Spans of inputs and outputs (R58): first and last byte. -/
def inputSpans (w a b : Nat) : List (Nat × Nat) :=
  let m := Desc.extent a 1
  let n := Desc.extent b 1
  [(Desc.base a, Desc.lastByte a), (Desc.base b, Desc.lastByte b), (MatOp.rescale w, MatOp.rescale w + 16 * n - 1)] ++
    (if MatOp.mode w = 2 then [] else [(MatOp.sbIn w, MatOp.sbIn w + 8 * m - 1)])

def outputSpans (w a out : Nat) : List (Nat × Nat) :=
  [(Desc.base out, Desc.lastByte out)] ++
    (if MatOp.sbMode w = 0 then [] else [(MatOp.sbOut w, MatOp.sbOut w + 8 * Desc.extent a 1 - 1)])

/-- The checks of R58 on the record and its descriptors. -/
def matmulOk (w a b out : Nat) : Bool :=
  let lo := bfToF32 (MatOp.clampLo w)
  let hi := bfToF32 (MatOp.clampHi w)
  Desc.rank a == 2 && Desc.rank b == 2 && Desc.rank out == 2 &&
  Desc.elemType a == 3 && Desc.elemType b == MatOp.bType w && Desc.elemType out == (if MatOp.outFp32 w then 5 else 3) &&
  Desc.extent a 0 == Desc.extent b 0 && Desc.extent out 0 == Desc.extent b 1 && Desc.extent out 1 == Desc.extent a 1 &&
  (MatOp.act w != 2 || (!isNan fp32 lo && !isNan fp32 hi && fle fp32 lo hi)) &&
  (MatOp.stageLen w == 0 || decide (MatOp.stageOff w * 4096 + MatOp.stageLen w * 4096 ≤ 0x300000)) &&
  (Desc.empty a || Desc.empty b ||
    (outputSpans w a out).all fun x => (inputSpans w a b).all fun y => !spansMeet x y)

/-- Entries of rows 0 to M - 1 emptied (R31). -/
def emptyRows (r : Req) (w m : Nat) : M Unit :=
  if MatOp.sbMode w = 1 then
    writeVA r (MatOp.sbOut w) ((List.replicate m emptySideBand).flatMap (leBytes 8))
  else return ()

/-- The slices of a MATMUL: row blocks by R268, each with its tiles. -/
def matmulSlices (rb nb : Nat) (free : List Nat) : List Slice :=
  let k := max 1 (min rb free.length)
  (List.range k).map fun j =>
    let lo := j * rb / k
    let hi := (j + 1) * rb / k
    { unit := 0, place := free[j]?, lo := lo, hi := hi,
      work := .me ((List.range ((hi - lo) * nb)).map (lo * nb + ·)) 0 false }

namespace State

/-- The requester that an engine is for an op (R217). -/
def engineReq (s : State) (cc e : Nat) (o : OpRef) : Req :=
  let x := s.ctx o.ctx
  { who := .engine cc e, ctx := o.ctx, cls := x.cls, part := x.partition, root := x.root, kind := 0, id := cc,
    cluster := some cc, targets := 31, mayStall := true, fabric := false }

/-- Every page of a span lies in the store of cluster `cc`; a page that does not translate, whose access would fault, or that
lies past the virtual range lies outside (R42, R195). -/
def spanInStore (s : State) (r : Req) (cc : Nat) (acc : AccKind) (x : Nat × Nat) : Bool :=
  decide (x.2 < 2 ^ 52) && (List.range (x.2 / 4096 - x.1 / 4096 + 1)).all fun i =>
    let va := (x.1 / 4096 + i) * 4096
    match s.walk r.root va with
    | .leaf e l _ =>
      let a := leafFrame e l va
      (Pte.target e == 0 || Pte.target e == 3) && !Pte.poison e && placeOf a == .store cc (a - storeAddr cc 0) &&
        s.checkLeaf r e a acc == .pass
    | _ => false

/-- Every operand lies in the store of the cluster (R42). -/
def allInStore (s : State) (r : Req) (cc w a b out : Nat) : Bool :=
  (inputSpans w a b).all (s.spanInStore r cc .read) && (outputSpans w a out).all (s.spanInStore r cc .write)

/-- The staging rule of R42 on cluster `cc`: a region where an operand lies outside its store, none where all lie in it. -/
def stagingOk (s : State) (r : Req) (cc w a b out : Nat) : Bool := s.allInStore r cc w a b out == (MatOp.stageLen w == 0)

/-- A MATMUL just dispatched: its slices are placed; one without slices has ended. -/
def placeMatmul (s : State) (o : OpRef) : State :=
  match s.op? o with
  | some x =>
    if x.phase = .dispatched ∧ OpHdr.opcode x.word = 0x01 then
      if x.slices.isEmpty then s.modOp o fun y => { y with phase := .settled, status := Status.ok }
      else s.placeAll o
    else s
  | none => s

/-- MATMUL: record, descriptors and, on the cluster of every slice, the staging region checked before any tile starts (R42,
R58); then it is cut into slices and placed. An empty one completes. -/
def matmul (s : State) (o : OpRef) : State :=
  placeMatmul (s.dispatch o 0x01 fun x r => do
    let w := x.word
    if !MatOp.ok w then failWith Status.descriptorInvalid
    let a ← readDesc r (MatOp.aDesc w)
    let b ← readDesc r (MatOp.bDesc w)
    let out ← readDesc r (MatOp.outDesc w)
    if !matmulOk w a b out then failWith Status.descriptorInvalid
    let x := { x with copies := [a, b, out] }
    if Desc.empty a || Desc.empty b then
      emptyRows r w (Desc.extent a 1)
      return x
    let s ← get
    let free := (s.eligibles r.ctx 0).filter (s.freeFor 0)
    let slices := matmulSlices (ceilDiv (Desc.extent a 1) 64) (ceilDiv (Desc.extent b 1) (MatOp.tileCols w)) free
    if slices.any fun y => y.place.any fun cc => !s.stagingOk (s.engineReq cc 0 o) cc w a b out then
      failWith Status.descriptorInvalid
    return { x with slices := slices }) o

/-! ### Tiles -/

/-- The tile engine `e` would start next of a slice (R59, R55): of its own parity, or any while the other is out. -/
def nextTile (s : State) (cc e : Nat) (todo : List Nat) : Option Nat :=
  todo.find? fun t => t % 2 == e || (s.engine cc (1 - e)).out

/-- The bytes of a free value of `n` bytes, the first one its low byte. -/
def freeBytes (n v : Nat) : List (BitVec 8) := (List.range n).map fun i => BitVec.ofNat 8 (v >>> (8 * i))

/-- `n` bytes from address `a` become a free value. -/
def spoilBytes (s : State) (r : Req) (a n : Nat) : State :=
  match (writeDevice r a (freeBytes n s.draw.1) []).run s.draw.2 with
  | .ok _ t => t
  | .error _ _ => s.draw.2

/-- The staging region holds what the stream engine left in it: free bytes (R42, log entry 18). -/
def scrambleStage (s : State) (r : Req) (cc w : Nat) : State :=
  s.spoilBytes r (storeAddr cc (MatOp.stageOff w * 4096)) (MatOp.stageLen w * 4096)

/-- The first tile of a slice: the staging rule of R42 for its cluster, which the slice may have come to since the op's check;
and before the op's first tile the side-band entries are emptied (R31). -/
def firstTile (cc : Nat) (x : Op) (r : Req) : M Unit := do
  let w := x.word
  let s ← get
  let a := x.copies.getD 0 0
  if !s.stagingOk r cc w a (x.copies.getD 1 0) (x.copies.getD 2 0) then failWith Status.descriptorInvalid
  if !(x.slices.any fun y => match y.work with
    | .me _ _ begun => begun
    | _ => false) then emptyRows r w (Desc.extent a 1)
  if MatOp.stageLen w != 0 then modify fun s => s.scrambleStage r cc w

/-- A MATMUL slice whose tiles are all done ends. -/
def endIfDone (s : State) (o : OpRef) (k cc : Nat) : State :=
  let held := (List.range 2).any fun e =>
    ((s.engine cc e).bufs ++ (s.engine cc e).foreign).any fun b => b.o == o && b.k == k
  match (s.slice? o k).map (fun (y : Slice) => y.work) with
  | some (.me [] flags _) =>
    if held then s
    else (s.modOp o fun x => { x with flags := x.flags ||| flags }).stopSlice o k Status.ok 0 0
  | _ => s

/-- A MATMUL slice fails: its tiles are dropped. -/
def failSlice (s : State) (o : OpRef) (k cc status code : Nat) : State :=
  let keep := fun (b : TileBuf) => !(b.o == o && b.k == k)
  let s := (List.range 2).foldl (fun t e =>
    let x := t.engine cc e
    t.setEngine cc e { x with bufs := x.bufs.filter keep, foreign := x.foreign.filter keep }) s
  let flags := match (s.slice? o k).map (fun (y : Slice) => y.work) with
    | some (.me _ f _) => f
    | _ => 0
  (s.modOp o fun x => { x with flags := x.flags ||| flags }).stopSlice o k status (code % 256) (code / 65536)

/-- The work of a MATMUL slice changed. -/
def modTiles (s : State) (o : OpRef) (k : Nat) (f : List Nat → Nat → List Nat × Nat) : State :=
  s.modSlice o k fun y => match y.work with
    | .me todo fl _ =>
      let (todo, fl) := f todo fl
      { y with work := .me todo fl true }
    | _ => y

/-- An engine asks for a ramp token (R485). -/
def askToken (s : State) (cc e : Nat) (r : Ramp) : State :=
  let s := s.setEngine cc e { s.engine cc e with ramp := r }
  let n := 2 * cc + e
  if s.power.waiting.contains n then s else { s with power := { s.power with waiting := s.power.waiting ++ [n] } }

/-- An engine with work left stays on; otherwise it enters the idle hold (R49). -/
def rampAfter (s : State) (cc e : Nat) (todo : List Nat) : Ramp :=
  if (s.nextTile cc e todo).isSome then .on else .hold

/-- Tiles of slice `k` of an op not yet started. -/
def tilesLeft (s : State) (o : OpRef) (k : Nat) : List Nat :=
  match (s.slice? o k).map (fun (y : Slice) => y.work) with
  | some (.me todo _ _) => todo
  | _ => []

/-- The lanes of an engine after a replay's K-steps of slice `k`: on while work is left, else in the idle hold (R49). -/
def afterReplay (s : State) (cc e : Nat) (o : OpRef) (k : Nat) : State :=
  s.setEngine cc e { s.engine cc e with ramp := s.rampAfter cc e (s.tilesLeft o k) }

/-- Real work on lit lanes: a ramp-down asked for is no longer waited for (R49). -/
def noRamp (s : State) (cc e : Nat) : State :=
  { s with power := { s.power with waiting := s.power.waiting.filter (· != 2 * cc + e) } }

/-- MATMUL_TILE (R45, R48, R49, R59): an engine with a free buffer starts its next tile; dark lanes first ask for a token. The
slice runs from its first access on, be that one stalled (R329). -/
def matmulTile (s : State) (cc e : Nat) : State :=
  match s.atHead cc 0 with
  | none => s
  | some q =>
    match s.op? q.o, s.slice? q.o q.k with
    | some x, some y =>
      match y.work with
      | .me todo _ begun =>
        match s.nextTile cc e todo with
        | none => s
        | some t =>
          let g := s.engine cc e
          if !s.running || decide (2 ≤ e) || g.out || y.phase == .ended || decide (2 ≤ g.bufs.length) || !g.foreign.isEmpty then s
          else if g.ramp = .dark then s.askToken cc e .waitUp
          else if g.ramp = .waitUp then s
          else
            let s := (s.noRamp cc e).startSlice q.o q.k
            let r := s.engineReq cc e q.o
            let m : M TileBuf := do
              if !begun then firstTile cc x r
              let inp ← readTile r q.o q.k x.word (x.copies.getD 0 0) (x.copies.getD 1 0) t
              return fillBuf q.o q.k t x.word inp
            s.runM m
              (fun b u =>
                let left := todo.filter (· != t)
                let u := u.modTiles q.o q.k fun _ fl => (left, fl)
                let h := u.engine cc e
                u.setEngine cc e { h with bufs := h.bufs ++ [b], ramp := u.rampAfter cc e left })
              (fun st code u => u.failSlice q.o q.k cc st code)
      | _ => s
    | _, _ => s

/-! ### Drain and replay (R45, R52 to R56) -/

/-- The physical lane of an engine that is mapped out, if one is (R54). -/
def laneMapped (s : State) (cc e : Nat) : Option Nat := AMap.get? s.lanes (2 * s.physOf cc + e)

/-- The lane left out of an engine's map: the mapped-out one, or the spare (R52, R54). -/
def laneOut (s : State) (cc e : Nat) : Nat := (s.laneMapped cc e).getD 32

/-- A run of a tile: its accumulators with the errors met, and whether its checks pass. -/
def checkRun (s : State) (w : Nat) (x : TileIn) (b : TileBuf) (out : Nat) (run : TileRun) : TileBuf × List (Nat × Nat × Nat) × Bool :=
  let es := laneErrors out run
  let bad := failingCells s w x b.acc es
  ({ b with acc := withErrors w x.cols.length b.acc es }, bad, bad.isEmpty && !run.feeder)

/-- A lane mapped out, to be recorded by the firmware (R54). -/
def mapOut (s : State) (cc e p : Nat) : State :=
  let s := { s with lanes := AMap.set s.lanes (2 * s.physOf cc + e) p }
  s.setEngine cc e { s.engine cc e with recordDue := true }

/-- A pass at replay 1: counted, and two within 65,536 tiles map out lane 0. A pass on an engine without its spare, or of an
op whose K exceeds the limit of its e, spends no spare and is none of the two (R51, R52, R54). -/
def passReplay1 (s : State) (cc e : Nat) (o : OpRef) (spends : Bool) : State :=
  let n := 2 * cc + e
  let s := (s.addObj 0x5021 n 1).notePassed o 0x5021 n
  let g := s.engine cc e
  if !spends then s
  else
    let t := s.setEngine cc e { g with since := some 0 }
    match g.since with
    | some k => if k ≤ 65536 then t.mapOut cc e 0 else t
    | none => t

/-- ME slices not yet started leave a cluster without engines (R55). -/
def leaveEngineless (s : State) (cc : Nat) : State :=
  if s.enginesOut cc then s.returnSlices cc fun q => s.refUnit q == 0 else s

/-- An engine is taken out of service (R52 step 4, R55): degraded, and a trigger for the cluster's sparing. -/
def engineOut (s : State) (cc e : Nat) : State :=
  let s := s.setEngine cc e { s.engine cc e with out := true, ramp := .dark }
  ((s.raise 2 1 0xFF 0x5003 cc 0).triggerSparing cc).leaveEngineless cc

/-- The tile that was computing in the other buffer runs again later (R343). -/
def abandonOther (s : State) (cc e : Nat) (b : TileBuf) : State :=
  let g := s.engine cc e
  let lost := g.bufs.filter (· != b)
  let s := s.setEngine cc e { g with bufs := g.bufs.filter (· == b) }
  lost.foldl (fun t x => t.modTiles x.o x.k fun todo fl => (insertNat x.tile todo, fl)) s

/-- How the runs of a failed tile end: passed with its accumulators, or replayed on the other engine. -/
inductive ReplayEnd where
  | passed (b : TileBuf) (s : State)
  | other (s : State)

/-- Replays 1 and 2 of a failed tile on its engine (R52, R53). -/
def replayHere (s : State) (cc e : Nat) (w : Nat) (x : TileIn) (b : TileBuf) (run1 run2 : TileRun) : ReplayEnd :=
  let spare := (s.laneMapped cc e).isNone
  let map1 := (s.laneMapped cc e).getD 0
  let fresh := fillBuf b.o b.k b.tile w x
  let excess := overTol s w (((x.rows.head?).map (·.codes.length)).getD 0)
  let (b1, cells, ok1) := s.checkRun w x fresh map1 run1
  if ok1 then .passed b1 (s.passReplay1 cc e b.o (spare && !excess))
  else if excess then .other s
  else
    let named := if run1.feeder && cells.isEmpty then none else namedLane w cells
    match named with
    | some l =>
      let p := if l < map1 then l else l + 1
      if spare then
        let (b2, _, ok2) := s.checkRun w x fresh p run2
        if ok2 then .passed b2 ((s.mapOut cc e p).notePassed b.o 0x5020 (2 * cc + e)) else .other (s.engineOut cc e)
      else .other (s.engineOut cc e)
    | none => .other (s.engineOut cc e)

/-- A tile passed in `u`, whose replays, if any, come after `s`: the epilogue writes it, its buffer is freed, and the slice may
end. An epilogue that stalls puts off all that follows `s` (log entry 11). -/
def finishTile (s u : State) (cc e : Nat) (b : TileBuf) (x : Op) (foreign : Bool) : State :=
  let r := u.engineReq cc e b.o
  s.settle ((drainTile r x.word (x.copies.getD 0 0) (x.copies.getD 1 0) (x.copies.getD 2 0) b).run u)
    (fun _ u =>
      let g := u.engine cc e
      let n := g.since.map (· + 1)
      let u := u.setEngine cc e
        (if foreign then { g with foreign := g.foreign.drop 1, since := n } else { g with bufs := g.bufs.drop 1, since := n })
      u.endIfDone b.o b.k cc)
    (fun st code u => u.failSlice b.o b.k cc st code)

/-- The tile goes to the other engine (R52 step 4); with that one out too, the op is unrecovered. -/
def sendOther (s : State) (cc e : Nat) (b : TileBuf) : State :=
  let g := s.engine cc e
  let s := s.setEngine cc e { g with bufs := g.bufs.filter (· != b) }
  let h := s.engine cc (1 - e)
  if h.out then s.failSlice b.o b.k cc Status.silentError 0
  else s.setEngine cc (1 - e) { h with foreign := h.foreign ++ [b] }

/-- An engine may work on a tile it holds for op `o`: its cluster serves the op's context, and it is in service. -/
def engineServes (s : State) (cc e : Nat) (o : OpRef) : Bool :=
  s.running && (s.cluster cc).mode == .serving && (s.cluster cc).resident == some o.ctx && !(s.engine cc e).out

/-- The lanes of an engine are lit for real K-steps: dark ones first ask for a token and ramp up (R48, R49). -/
def lanesLit (s : State) (cc e : Nat) : Bool := (s.engine cc e).ramp != .dark && (s.engine cc e).ramp != .waitUp

/-- A replay finds dark lanes: it asks for a token and waits. -/
def litOr (s : State) (cc e : Nat) : State := if (s.engine cc e).ramp = .dark then s.askToken cc e .waitUp else s

/-- TILE_DRAIN (R45, R50 to R56): the compare of the oldest buffer, replays where it fails, and the epilogue. `runs` gives
the errors of the tile's first run and of replays 1 and 2; a second epilogue residue failure counts as a failed run. -/
def tileDrain (s : State) (cc e : Nat) (runs : List TileRun) (epilogueFails : Nat) : State :=
  match (s.engine cc e).bufs.head? with
  | none => s
  | some b =>
    match s.op? b.o with
    | none => s
    | some x =>
      if !s.engineServes cc e b.o then s
      else
        let w := x.word
        let r := s.engineReq cc e b.o
        let run := fun i => runs.getD i ⟨false, []⟩
        let retried := fun (u : State) => if epilogueFails = 1 then u.notePassed b.o 0x5021 (2 * cc + e) else u
        if MatOp.mode w != 2 && (run 0).lanes.isEmpty && !(run 0).feeder && decide (epilogueFails < 2) then
          s.finishTile (retried s) cc e b x false
        else
          s.runM (readTile r b.o b.k w (x.copies.getD 0 0) (x.copies.getD 1 0) b.tile)
            (fun inp u =>
              let (b0, _, ok) := u.checkRun w inp b (u.laneOut cc e) (run 0)
              if ok && decide (epilogueFails < 2) then s.finishTile (retried u) cc e b0 x false
              else if !s.lanesLit cc e then s.litOr cc e
              else
                let u := ((u.noRamp cc e).abandonOther cc e b).afterReplay cc e b.o b.k
                match u.replayHere cc e w inp b (run 1) (run 2) with
                | .passed b' v => s.finishTile v cc e b' x false
                | .other v => v.sendOther cc e b)
            (fun st code u => u.failSlice b.o b.k cc st code)

/-- TILE_REPLAY_OTHER_ENGINE (R52 steps 4 and 5, R51): the failed tile runs once on engine `e`, after its current tile, on lit
lanes (R48, R49). -/
def replayOther (s : State) (cc e : Nat) (run : TileRun) : State :=
  let g := s.engine cc e
  match g.foreign.head? with
  | none => s
  | some b =>
    match s.op? b.o with
    | none => s
    | some x =>
      if !s.engineServes cc e b.o || !g.bufs.isEmpty then s
      else if !s.lanesLit cc e then s.litOr cc e
      else
        let w := x.word
        s.runM (readTile (s.engineReq cc e b.o) b.o b.k w (x.copies.getD 0 0) (x.copies.getD 1 0) b.tile)
          (fun inp u =>
            let u := (u.noRamp cc e).afterReplay cc e b.o b.k
            let (b', _, ok) := u.checkRun w inp (fillBuf b.o b.k b.tile w inp) (u.laneOut cc e) run
            if ok then s.finishTile (u.notePassed b.o 0x5021 (2 * cc + (1 - e))) cc e b' x true
            else u.failSlice b.o b.k cc Status.silentError 0)
          (fun st code u => u.failSlice b.o b.k cc st code)

/-- LANE_MAP_OUT_RECORD (R54): the map-out is in the repair fuses from here on, and costs a fuse record. -/
def laneRecord (s : State) (cc e : Nat) : State :=
  let g := s.engine cc e
  if s.mgmtUp && g.recordDue then (s.setEngine cc e { g with recordDue := false }).writeRepair else s

/-- IDLE_HOLD_END (R49): an engine without work asks to ramp down. -/
def idleHoldEnd (s : State) (cc e : Nat) : State :=
  let g := s.engine cc e
  let work := match s.atHead cc 0 with
    | some q => match (s.slice? q.o q.k).map (fun (y : Slice) => y.work) with
      | some (.me todo _ _) => (s.nextTile cc e todo).isSome
      | _ => false
    | none => false
  if s.running && (g.ramp == .hold || (g.ramp == .on && !work)) then s.askToken cc e .waitDown else s

/-- The class an engine ramps for: that of its cluster's resident context. -/
def engineClass (s : State) (n : Nat) : Nat :=
  match (s.cluster (n / 2)).resident with
  | some c => (s.ctx c).cls
  | none => 3

/-- RAMP_TOKEN_GRANT (R485): class-0 engines first, the others in request order. The ramp holds its token from its first to
its last group switch, all within this step. -/
def rampGrant (s : State) (cc e : Nat) : State :=
  let n := 2 * cc + e
  let first := match s.power.waiting.find? fun m => s.engineClass m == 0 with
    | some m => some m
    | none => s.power.waiting.head?
  if !s.running || first != some n then s
  else
    let s := { s with power := { s.power with waiting := s.power.waiting.filter (· != n) } }
    let g := s.engine cc e
    match g.ramp with
    | .waitUp => s.setEngine cc e { g with ramp := .on }
    | .waitDown => s.setEngine cc e { g with ramp := .dark }
    | _ => s

end State

/-- MATMUL (R57, R58). -/
def execMatmul (o : OpRef) (s : State) : Outcome State Fault Refusal :=
  .next (if s.running then s.matmul o else s)

/-- MATMUL_TILE (R45). -/
def execMatmulTile (cc e : Nat) (s : State) : Outcome State Fault Refusal := .next (s.matmulTile cc e)

/-- TILE_DRAIN (R45). -/
def execTileDrain (cc e : Nat) (runs : List TileRun) (epilogueFails : Nat) (s : State) : Outcome State Fault Refusal :=
  .next (s.tileDrain cc e runs epilogueFails)

/-- TILE_REPLAY_OTHER_ENGINE (R52). -/
def execTileReplayOtherEngine (cc e : Nat) (run : TileRun) (s : State) : Outcome State Fault Refusal :=
  .next (s.replayOther cc e run)

/-- LANE_MAP_OUT_RECORD (R54). -/
def execLaneMapOutRecord (cc e : Nat) (s : State) : Outcome State Fault Refusal := .next (s.laneRecord cc e)

/-- IDLE_HOLD_END (R49). -/
def execIdleHoldEnd (cc e : Nat) (s : State) : Outcome State Fault Refusal := .next (s.idleHoldEnd cc e)

/-- RAMP_TOKEN_GRANT (R485). -/
def execRampTokenGrant (cc e : Nat) (s : State) : Outcome State Fault Refusal := .next (s.rampGrant cc e)

end Sys2Proof.Machine
end

