-- ==== Sys2Proof/Machine/Sparing.lean ====
section
/-! DEFINITION. Sparing and containment (16_sparing_and_containment.md, R346 to R363): clusters, cover channels, withdrawn
channels and groups, and injected poison. -/

namespace Sys2Proof.Machine

open Host (Outcome)

namespace State

/-! ### Spares (R346, R347) -/

/-- The physical clusters neither in use nor marked bad, ascending. -/
def sparePhys (s : State) : List Nat :=
  (List.range 66).filter fun p => !((List.range 64).any fun c => s.physOf c == p) && !s.sparing.badClusters.contains p

/-- `spare_clusters` (R347). -/
def spareClusters (s : State) : Nat := s.sparePhys.length

/-- Physical channel `p` of a layer serves a logical channel, or is being copied to. -/
def chanUsed (s : State) (layer p : Nat) : Bool :=
  ((List.range 64).any fun n => s.obj 0x4010 (64 * layer + n) == p) ||
    s.tiers.chanSparing.any fun e => e.1 / 64 == layer && e.2.1 == p

/-- The free physical channels of a layer (`spare_cover_chan`, R347). -/
def freeChans (s : State) (layer : Nat) : List Nat :=
  (List.range 68).filter fun p => !s.chanUsed layer p && !s.sparing.badChannels.contains (68 * layer + p)

/-- The spare that the firmware takes for a failing channel (R355): physical channel 66, then 67, then the lowest above a
spare physical cluster; with none of these free, the lowest that step 7 of R350 has freed. -/
def pickChan (s : State) (layer : Nat) : Option Nat :=
  let free := s.freeChans layer
  ([66, 67] ++ s.sparePhys ++ free).find? fun p => free.contains p

/-- `near_cover` of logical cluster `c` (0x4020): the logical channels above its physical cluster, 0xFF where another
channel lies there (R122, R355). -/
def nearCover (s : State) (c : Nat) : Nat :=
  let p := s.physOf c
  let one := fun n => if s.obj 0x4010 n = p then n else 0xFF
  one c + 256 * one (64 + c)

/-! ### Repair records (R348) -/

/-- A repair record is written, or waits for the management core. -/
def oweRecord (s : State) : State :=
  if s.mgmtUp then s.writeRepair else { s with sparing := { s.sparing with recordsDue := s.sparing.recordsDue + 1 } }

/-- The restarted firmware writes the records that waited (R353). -/
def payRecords (s : State) : State :=
  let n := s.sparing.recordsDue
  (List.range n).foldl (fun t _ => t.writeRepair) { s with sparing := { s.sparing with recordsDue := 0 } }

/-! ### Retirement and withdrawal (R354, R356) -/

/-- The logical cluster can serve no unit class (R354). -/
def useless (s : State) (c : Nat) : Bool :=
  (s.enginesOut c && bits (s.obj 0x5038 c) 3 0 == 0xF) || (s.cluster c).storeFailed

/-- A cluster without a spare stays degraded, or is retired: slices that have not started go back to the Spine, and what runs there
stops as R268 ends a slice that has no cluster (R354; DEDUCED, log entry 89). -/
def stayDegraded (s : State) (c : Nat) : State :=
  if s.useless c then
    (((s.setObj 0x5003 c 3).raise 2 2 0xFF 0x5003 c 0).returnSlices c fun _ => true).killSlices c (fun _ => true)
      Status.descriptorInvalid 0
  else s.setObj 0x5003 c 1

/-- A cover channel is withdrawn (R356). -/
def withdrawChan (s : State) (nn : Nat) : State := (s.setObj 0x4012 nn 2).raise 1 3 0xFF 0x4012 nn (nn * 2 ^ 28)

/-- A bulk group is withdrawn (R356). -/
def withdrawGroup (s : State) (g : Nat) : State :=
  (s.setObj 0x4062 g 1).raise 1 3 0xFF 0x4062 g (bulkBase + g * 0x300000000)

/-- A trigger of a cover channel's sparing (R355), with the physical channel that step 7 of R350 names. -/
def triggerChan (s : State) (nn : Nat) (target : Option Nat) : State :=
  if s.obj 0x4012 nn ≠ 0 ∨ s.sparing.chanTriggers.any (fun x => x.1 == nn) then s
  else { s with sparing := { s.sparing with chanTriggers := s.sparing.chanTriggers ++ [(nn, target)] } }

/-! ### Sparing a cluster (R350) -/

/-- The self-test of the lowest spare begins, or no spare is left. -/
def trySpare (s : State) (c : Nat) : State :=
  match s.sparePhys.head? with
  | some p => { s.setObj 0x5003 c 2 with sparing := { s.sparing with active := some (c, p, 1) } }
  | none => ({ s with sparing := { s.sparing with active := none } }).stayDegraded c

/-- The state of the cluster's Stitcher or stream engine has failed: a trigger of its sparing (R349). -/
def stateFailed (s : State) (c : Nat) : State :=
  if s.obj 0x5003 c = 3 then s else (s.setCluster c { s.cluster c with storeFailed := true }).triggerSparing c

/-- Step 1: the firmware takes a due trigger while no sparing is in progress (R349). `failed` says that the trigger is an
uncorrectable error in the state of the cluster's Stitcher or stream engine, found now (DESIGN CHOICE, log entry 74). -/
def clusterSparingStart (s : State) (c : Nat) (failed : Bool) : State :=
  let s := if failed && s.running then s.stateFailed c else s
  if !s.mgmtUp || s.sparing.active.isSome || !s.sparing.triggers.contains c then s
  else ({ s with sparing := { s.sparing with triggers := s.sparing.triggers.filter (· != c) } }).trySpare c

/-- The spare's self-test ends: the handover starts once the cluster has no switch, replay or restart in
progress (R333, R350), or the spare is marked bad
and the next one is tried (steps 1 to 3). -/
def spareTested (s : State) (pass : Bool) : State :=
  match s.sparing.active with
  | some (c, p, 1) =>
    if !s.mgmtUp then s
    else if pass then
      if (s.cluster c).mode != .serving || s.replaying c then s
      else
        { s.setCluster c { s.cluster c with mode := .handover } with
          sparing := { s.sparing with active := some (c, p, 3) } }
    else ({ s with sparing := { s.sparing with badClusters := insertNat p s.sparing.badClusters } }).trySpare c
  | _ => s

/-- A running slice of a cluster works in a unit: 0 and 1 are the engines, 2 to 5 the tidy cores, 6 the stream engine. -/
def worksIn (s : State) (c unit : Nat) (r : SliceRef) : Bool :=
  match s.slice? r.o r.k with
  | none => false
  | some y =>
    y.phase == .running &&
      if unit < 2 then y.unit == 0
      else if unit < 6 then (s.core (4 * c + (unit - 2))).task.any fun t => t.o == r.o && t.k == r.k
      else y.unit == 2

/-- A unit not at its switch point in time is abandoned (R352). -/
def handoverTimeout (s : State) (unit : Nat) : State :=
  match s.sparing.active with
  | some (c, _, 3) =>
    (s.killSlices c (s.worksIn c unit) Status.internal 0x32).raise 2 2 (2 ^ s.clusterPart c) 0x5003 c 0
  | _ => s

/-- The units of a logical cluster on its new physical cluster: in service, lanes dark, pinned translations kept (R350,
R351). -/
def freshUnits (s : State) (c : Nat) : State :=
  { s with
    engines := s.engines.map fun (e : Nat × Engine) =>
      if e.1 / 2 = c then (e.1, { e.2 with out := false, ramp := .dark, since := none }) else e
    cores := s.cores.map fun (e : Nat × Core) => if e.1 / 4 = c then (e.1, { e.2 with mustPass := false }) else e
    trans := { s.trans with clusterBuf := s.trans.clusterBuf.map fun (e : Nat × List TEnt) =>
      if e.1 = c then (e.1, e.2.filter (·.pinned)) else e }
    power := { s.power with waiting := s.power.waiting.filter fun n => n / 2 != c } }

/-- Step 7 begins: channels c and 64 + c move above the new physical cluster where their places are free (R350, R355). -/
def beginChannelMoves (s : State) (c p : Nat) : State :=
  [c, 64 + c].foldl (fun t nn => if (t.freeChans (nn / 64)).contains p then t.triggerChan nn (some p) else t) s

/-- A sparing ends when its channels have moved. -/
def endMoves (s : State) : State :=
  match s.sparing.active with
  | some (c, _, 7) =>
    let busy := [c, 64 + c].any fun nn =>
      (s.sparing.chanTriggers.any fun x => x.1 == nn && x.2.isSome) || s.tiers.chanSparing.any fun x => x.1 == nn && x.2.2
    if busy then s else { s with sparing := { s.sparing with active := none } }
  | _ => s

/-- Steps 4 to 7: the store's atoms that could not be read are poisoned (R352), the map changes, the slices go on, the old
physical cluster is bad. -/
def handoverDone (s : State) (unreadable : List Nat) : State :=
  match s.sparing.active with
  | some (c, p, 3) =>
    let old := s.physOf c
    let s := unreadable.foldl (fun t off => t.makePoison (storeAddr c (off / 64 * 64))) s
    let s := (((s.setObj 0x5002 c p).setObj 0x5038 c 0).setObj 0x5003 c 0).freshUnits c
    let s := s.setCluster c { s.cluster c with mode := .serving, storeFailed := false }
    let s := if s.obj 0x2002 c = 3 then s.setReady 0x2002 c 2 else s
    let s : State := { s with sparing := { s.sparing with
      active := some (c, p, 7), badClusters := insertNat old s.sparing.badClusters } }
    (s.oweRecord.beginChannelMoves c p).endMoves
  | _ => s

/-- The management core restarts before step 2: the firmware finds the trigger again (R353). -/
def sparingRestart (s : State) : State :=
  match s.sparing.active with
  | some (c, _, 1) =>
    { s.setObj 0x5003 c 1 with sparing := { s.sparing with active := none, triggers := insertNat c s.sparing.triggers } }
  | _ => s

/-! ### Sparing a cover channel (R355) -/

/-- The firmware starts copying a channel onto its spare, or withdraws it. `failed` says that the channel's controller has failed, which
is found now and triggers the sparing (R355; DESIGN CHOICE, log entry 74). A place that step 7 names and that is no longer
free leaves the channel where it is. -/
def chanStart (s : State) (nn : Nat) (failed : Bool) : State :=
  let s := if failed && s.running then s.triggerChan nn none else s
  match s.sparing.chanTriggers.find? fun x => x.1 == nn with
  | none => s
  | some (_, target) =>
    if !s.mgmtUp then s
    else
      let s : State := { s with sparing := { s.sparing with chanTriggers := s.sparing.chanTriggers.filter (·.1 != nn) } }
      let copy := fun (p : Nat) =>
        { s.setObj 0x4012 nn 1 with tiers := { s.tiers with chanSparing := AMap.set s.tiers.chanSparing nn (p, target.isSome) } }
      match target with
      | some p => if (s.freeChans (nn / 64)).contains p then copy p else s.endMoves
      | none =>
        match s.pickChan (nn / 64) with
        | some p => copy p
        | none => s.withdrawChan nn

/-- The copy ends: the map switches, the spare's remap table and its counts of uncorrectable atoms are empty, the old physical
channel is free or bad. -/
def chanDone (s : State) (nn : Nat) (unreadable : List Nat) : State :=
  match AMap.get? s.tiers.chanSparing nn with
  | none => s
  | some (p, follows) =>
    let old := s.obj 0x4010 nn
    let s := unreadable.foldl (fun t off => t.makePoison (nn * 2 ^ 28 + off / 64 * 64)) s
    let s := ((s.setObj 0x4010 nn p).setObj 0x4012 nn 0).setObj 0x4055 nn 0
    let s : State := { s with
      tiers := { s.tiers with
        chanSparing := AMap.erase s.tiers.chanSparing nn, remaps := AMap.erase s.tiers.remaps nn
        ueCounts := s.tiers.ueCounts.filter fun e => e.1 / 2 ^ 32 != nn }
      sparing := { s.sparing with
        badChannels := if follows then s.sparing.badChannels else insertNat (68 * (nn / 64) + old) s.sparing.badChannels } }
    s.oweRecord.endMoves

/-! ### Actions -/

/-- A write of `spare_request` (R349). -/
def spareRequest (s : State) (c : Nat) : ActResult :=
  if s.obj 0x5003 c = 3 then { state := s, status := 0x0206 }
  else { state := { s with sparing := { s.sparing with triggers := insertNat c s.sparing.triggers } } }

/-- A write of `inject_poison` (R363). -/
def injectPoison (s : State) (v : Nat) : ActResult := { state := s.makePoison (bits v 51 6 * 64) }

end State

/-- CLUSTER_SPARING_START (R350). -/
def execClusterSparingStart (cc : SpareOf) (s : State) : Outcome State Fault Refusal :=
  .next (s.clusterSparingStart cc.n cc.failed)

/-- SPARE_SELF_TEST_DONE (R350). -/
def execSpareSelfTestDone (pass : Bool) (s : State) : Outcome State Fault Refusal := .next (s.spareTested pass)

/-- HANDOVER_STOP_TIMEOUT (R352). -/
def execHandoverStopTimeout (unit : Nat) (s : State) : Outcome State Fault Refusal :=
  .next (if s.running then s.handoverTimeout unit else s)

/-- HANDOVER_COPY_COMPLETE (R350). -/
def execHandoverCopyComplete (unreadable : List Nat) (s : State) : Outcome State Fault Refusal :=
  .next (if s.running then s.handoverDone unreadable else s)

/-- COVER_CHANNEL_SPARING_START (R355). -/
def execCoverChannelSparingStart (nn : SpareOf) (s : State) : Outcome State Fault Refusal :=
  .next (s.chanStart nn.n nn.failed)

/-- COVER_CHANNEL_COPY_COMPLETE (R355). -/
def execCoverChannelCopyComplete (nn : Nat) (unreadable : List Nat) (s : State) : Outcome State Fault Refusal :=
  .next (if s.running then s.chanDone nn unreadable else s)

/-- BULK_GROUP_FAILURE (R356). -/
def execBulkGroupFailure (group : Nat) (s : State) : Outcome State Fault Refusal :=
  .next (if s.running && s.obj 0x4062 group == 0 then s.withdrawGroup group else s)

end Sys2Proof.Machine
end

