-- ==== Sys2Proof/Machine/Migrate.lean ====
section
/-! DEFINITION. MIGRATE (06_memory_tiers.md, R125 to R132): its checks, the states of its folios, holds, drains and
outcomes. -/

namespace Sys2Proof.Machine

open Host (Outcome)

namespace State

/-! ### Places (R117, R127) -/

/-- Both ends of `n` bytes lie in one bulk tier or far window: a home. -/
def homeRange (a n : Nat) : Bool :=
  match placeOf a, placeOf (a + n - 1) with
  | .bulk _, .bulk _ => true
  | .far, .far => true
  | _, _ => false

/-- `n` bytes may hold a read-only copy (R127): cover outside private regions and Hive ranges, or one store's software
area. -/
def copyRangeOk (s : State) (a n : Nat) : Bool :=
  match placeOf a, placeOf (a + n - 1) with
  | .cover _, .cover _ =>
    (List.range (n / 65536)).all fun k => (s.privateOf (a + k * 65536)).isNone && !s.inHive (a + k * 65536)
  | .store c _, .store d _ => c == d
  | _, _ => false

/-- Destination frames of `k` folios from index `i` on: consecutive, and aligned to what migrates. -/
def destOf (w : MigrateWork) (i k : Nat) : Option Nat :=
  match w.frames[i]? with
  | none => none
  | some d =>
    if d % (k * 65536) = 0 ∧ (List.range k).all fun j => w.frames.getD (i + j) 0 == d + j * 65536 then some d else none

/-- What becomes of the next folio: skipped with an outcome, a large page with all its folios, or started. -/
inductive FolioPlan where
  | skip (outcome folios : Nat)
  | start (f : Folio)

/-- The mapping breaks R125 for this op: a large page that is writable or not covered exactly. -/
def mapRefused (op level e va i : Nat) : Bool :=
  level != 0 &&
    (Pte.writable e || i != 0 || va % unitBytes level != 0 || MigrateOp.folios op * 65536 != unitBytes level)

/-- The plan for folio `i` (R127, R128). -/
def planFolio (s : State) (root op : Nat) (w : MigrateWork) (i tries : Nat) : FolioPlan :=
  let va := MigrateOp.va op + i * 65536
  match s.folioMap root va with
  | none =>
    match s.walk root va with
    | .leaf e _ _ => .skip (if Pte.target e = 0 ∨ Pte.target e = 3 then 2 else 5) 1
    | _ => .skip 2 1
  | some (level, a, e) =>
    if Pte.target e ≠ 0 ∧ Pte.target e ≠ 3 then .skip 5 1
    else if mapRefused op level e va i || Pte.poison e then .skip 2 1
    else
      let size := unitBytes level
      let k := size / 65536
      let src := Pte.frame e
      let f := fun (src dst : Nat) (ph : FolioPhase) =>
        FolioPlan.start { i := i, va := va, level := level, pteAddr := a, pte := e, src := src, dst := dst, size := size,
                          phase := ph, tries := tries }
      match MigrateOp.kind op with
      | 0 =>
        if Pte.replica e then .skip 4 k
        else
          match destOf w i (size / 65536) with
          | some d => if homeRange src size && homeRange d size then f src d .copying else .skip 3 k
          | none => .skip 3 k
      | 1 =>
        if Pte.replica e || !homeRange src size then .skip 4 k
        else
          match destOf w i (size / 65536) with
          | some d => if s.copyRangeOk d size then f src d .filling else .skip 3 k
          | none => .skip 3 k
      | _ =>
        match s.homeOf src with
        | some h => if Pte.replica e then f src h .forwarding else .skip 4 k
        | none => .skip 4 k

/-! ### Redirections of an op -/

def redirsOf (s : State) (o : OpRef) : List Folio := (s.tiers.redirs.filter fun x => x.owner == o).map (·.folio)

def held (f : Folio) : Bool := f.phase == .copying || f.phase == .filling

def addRedir (s : State) (o : OpRef) (f : Folio) : State :=
  { s with tiers := { s.tiers with redirs := s.tiers.redirs ++ [(⟨o, f⟩ : Redir)] } }

/-- Folio `i` of an op replaced, or removed. -/
def setRedir (s : State) (o : OpRef) (i : Nat) (f : Option Folio) : State :=
  { s with tiers := { s.tiers with redirs := s.tiers.redirs.filterMap fun x =>
      if x.owner = o ∧ x.folio.i = i then f.map fun (g : Folio) => (⟨o, g⟩ : Redir) else some x } }

def modMigrate (s : State) (o : OpRef) (f : MigrateWork → MigrateWork) : State :=
  s.modOp o fun x => match x.body with
    | .migrate w => { x with body := .migrate (f w) }
    | _ => x

/-- The work of a MIGRATE in progress. -/
def migrate? (s : State) (o : OpRef) : Option (Op × MigrateWork) :=
  match s.op? o with
  | some x => match x.phase, x.body with
    | .dispatched, .migrate w => some (x, w)
    | _, _ => none
  | none => none

/-- Every folio has an outcome: the op's status is fixed (R128, R131). -/
def settleMigrate (s : State) (o : OpRef) : State :=
  match s.migrate? o with
  | none => s
  | some (x, w) =>
    if w.next < MigrateOp.folios x.word || !w.again.isEmpty || !(s.redirsOf o).isEmpty then s
    else s.modOp o fun y => { y with
      phase := .settled, status := if w.partMap = 0 then Status.ok else Status.partly, partMap := w.partMap }

/-- The folios in force lose their redirections once the buffers hold no old translation of them (R131). -/
def drainFolios (s : State) (o : OpRef) : State :=
  let fs := (s.redirsOf o).filter fun f => !held f
  let s := fs.foldl (fun t f => t.dropRange (s.ctx o.ctx).root f.va f.size) s
  { s with tiers := { s.tiers with redirs := s.tiers.redirs.filter fun x => x.owner != o || held x.folio } }

/-- An outcome that cannot be written ends the op: copies not in force are dropped, those in force drained. -/
def failMigrate (s : State) (o : OpRef) (st code : Nat) : State :=
  let s := s.drainFolios o
  let s : State := { s with tiers := { s.tiers with redirs := s.tiers.redirs.filter fun x => x.owner != o } }
  s.failOp o st code

/-- Parts of the folios `i` to `i + k - 1`. -/
def folioParts (i k : Nat) : Nat := (List.range (min k 16)).foldl (fun m j => m ||| 2 ^ ((i + j) % 16)) 0

end State

/-- The outcome bytes of `k` folios from index `i` on. -/
def writeOutcome (r : Req) (op i k code : Nat) : M Unit :=
  if MigrateOp.outcome op = 0 then return ()
  else writeVA r (MigrateOp.outcome op + i) (List.replicate k (BitVec.ofNat 8 code))

namespace State

/-- The outcome of folios that ended without a change in force. -/
def endFolios (s : State) (o : OpRef) (x : Op) (i k code : Nat) (after : State → State) : State :=
  s.runM (writeOutcome (s.spineReq o.ctx (.op o 1000)) x.word i k code)
    (fun _ t =>
      let t := if 2 ≤ code then t.modMigrate o fun w => { w with partMap := w.partMap ||| folioParts i k } else t
      (after t).settleMigrate o)
    (fun st c t => t.failMigrate o st c)

/-- The next folio of an op: one to start again, otherwise the next in order. -/
def nextFolio (op : Nat) (w : MigrateWork) : Option (Nat × Nat) :=
  match w.again with
  | x :: _ => some x
  | [] => if w.next < MigrateOp.folios op then some (w.next, 0) else none

/-- Folio `i` has been taken, with `k` folios in all. -/
def tookFolio (o : OpRef) (i k : Nat) (s : State) : State :=
  s.modMigrate o fun w =>
    match w.again with
    | (j, _) :: rest => if j = i then { w with again := rest } else w
    | [] => { w with next := i + k }

/-- Memory a change touches is still starting (R466). -/
def changeHeld (s : State) (f : Folio) : Bool := s.tierStarting f.src || s.tierStarting f.dst || s.tierStarting f.pteAddr

/-- FOLIO_COPY_START (R127, R130, R131): not while the op holds 64 folios, which could all come to be in force. A WITHDRAW writes its leaves at once, a REFRESH copies in place. -/
def folioStart (s : State) (o : OpRef) : State :=
  match s.migrate? o with
  | none => s
  | some (x, w) =>
    let mine := s.redirsOf o
    match nextFolio x.word w with
    | none => s.settleMigrate o
    | some (i, tries) =>
      if 64 ≤ mine.length then s
      else
        match s.planFolio (s.ctx o.ctx).root x.word w i tries with
        | .skip code k => s.endFolios o x i k code (tookFolio o i k)
        | .start f =>
          let k := f.size / 65536
          if s.changeHeld f then s
          else if MigrateOp.kind x.word = 2 then
            let bad := s.anyPoison f.dst f.size
            s.endFolios o x i k (b2n bad) fun t => tookFolio o i k (t.copyAtoms f.dst f.src (f.size / 64))
          else if s.tiers.redirs.length ≥ 256 then s
          else if held f then
            if s.obj 0x4130 7 ≤ (mine.filter held).length then s
            else tookFolio o i k (s.addRedir o f)
          else tookFolio o i k ((s.putLeaves f.level f.pteAddr (homeLeaf f.pte f.dst)).addRedir o f)

/-- The drained invalidation is due: 64 folios are in force, or no folio is left to start or copy (R131). -/
def drainDue (s : State) (o : OpRef) (op : Nat) (w : MigrateWork) : Bool :=
  let mine := s.redirsOf o
  let inForce := (mine.filter fun f => !held f).length
  decide (0 < inForce) && (decide (64 ≤ inForce) || ((nextFolio op w).isNone && !mine.any held))

/-- A drained invalidation that has come due takes its place among those of the device (R214). -/
def noteDrain (s : State) (o : OpRef) : State :=
  match s.migrate? o with
  | some (x, w) =>
    if s.drainDue o x.word w && !s.trans.drains.contains (.op o) then
      { s with trans := { s.trans with drains := s.trans.drains ++ [.op o] } }
    else s
  | none => s

/-- An op's drained invalidation is one of the eight in progress (R214). -/
def drainTurn (s : State) (o : OpRef) : Bool := (s.trans.drains.take 8).contains (.op o)

/-- The drained invalidation of an op has ended. -/
def drainOver (s : State) (o : OpRef) : State :=
  { s with trans := { s.trans with drains := s.trans.drains.filter (· != .op o) } }

/-- The placement record of a change a MIGRATE made (R137, R206): in the ring of the grant that holds the folio, otherwise in
that of the context's port with a free grant number. -/
def migrateRecord (s : State) (o : OpRef) (kind : Nat) (f : Folio) : State :=
  let new := f.dst
  let old := f.src
  let root := (s.ctx o.ctx).root
  match s.grantOf root f.va with
  | some g =>
    s.changeRecord (bit (s.obj 0x4100 g) 108) (placementBits g kind (targetOf new) new old f.va 0xFF (s.lastReads g f.va))
  | none =>
    let (v, s) := s.draw
    s.changeRecord (s.faultPort (s.spineReq o.ctx (.spine o.ctx)))
      (placementBits v kind (targetOf new) new old f.va 0xFF 0)

/-- FOLIO_COPY_DONE (R129, R132): the oldest copy ends, its leaves are written, and held writes go on. -/
def folioDone (s : State) (o : OpRef) : State :=
  match s.migrate? o with
  | none => s
  | some _ =>
    match (s.redirsOf o).find? held with
    | none => s
    | some f =>
      if s.changeHeld f then s
      else
        let bad := s.anyPoison f.src f.size
        let s := s.copyAtoms f.src f.dst (f.size / 64)
        if f.phase = .copying then
          (s.putLeaves f.level f.pteAddr (movedLeaf f.pte f.dst)).setRedir o f.i
            (some { f with phase := .forwarding, poisoned := bad })
        else
          ((s.putLeaves f.level f.pteAddr (copyLeaf f.pte f.dst)).setHomes f.dst f.src f.size).setRedir o f.i
            (some { f with phase := .mirroring, poisoned := bad })

/-- FOLIO_HOLD_EXPIRY (R130): the oldest copy is abandoned; the third time the folio is given up, with a record of kind 3 that names
its frame as old and new (R137; DESIGN CHOICE, log entry 86). -/
def folioExpiry (s : State) (o : OpRef) : State :=
  match s.migrate? o with
  | none => s
  | some (x, _) =>
    match (s.redirsOf o).find? held with
    | none => s
    | some f =>
      if f.tries < 2 then
        (s.setRedir o f.i none).modMigrate o fun w => { w with again := w.again ++ [(f.i, f.tries + 1)] }
      else s.endFolios o x f.i (f.size / 65536) 6 fun t => (t.setRedir o f.i none).migrateRecord o 3 { f with dst := f.src }

end State

/-- The outcome bytes of a list of folios. -/
def writeOutcomes (r : Req) (op : Nat) : List Folio → M Unit
  | [] => return ()
  | f :: fs => do
    writeOutcome r op f.i (f.size / 65536) (b2n f.poisoned)
    writeOutcomes r op fs

namespace State

/-- The kind of the placement records of a MIGRATE (R137). -/
def recordKind (op : Nat) : Nat := if MigrateOp.kind op < 2 then MigrateOp.kind op else 2

/-- DRAINED_INVALIDATION_COMPLETE (R129, R131, R137): old translations are gone, frames are released, outcomes and placement
records are written. -/
def drainComplete (s : State) (o : OpRef) : State :=
  match s.migrate? o with
  | none => s
  | some (x, w) =>
    let s := s.noteDrain o
    if !s.drainDue o x.word w || !s.drainTurn o then s
    else
      let fs := (s.redirsOf o).filter fun f => !held f
      let kind := recordKind x.word
      s.runM (writeOutcomes (s.spineReq o.ctx (.op o 1000)) x.word fs)
        (fun _ t =>
          let t := (t.drainFolios o).drainOver o
          let t := if kind = 2 then fs.foldl (fun u f => u.clearHomes f.src f.size) t else t
          (fs.foldl (fun u f => u.migrateRecord o kind f) t).settleMigrate o)
        (fun st c t => t.failMigrate o st c)

/-- The frame list, one 8-byte destination for each folio (R126). -/
def frameWords : Nat → List (BitVec 8) → List Nat
  | 0, _ => []
  | n + 1, bs => leNat (bs.take 8) :: frameWords n (bs.drop 8)

/-- Dispatch of a MIGRATE of a kind (R126). -/
def migrateOp (s : State) (o : OpRef) (kind : Nat) : State :=
  match s.op? o with
  | none => s
  | some x =>
    if OpHdr.opcode x.word = 0x0C ∧ MigrateOp.ok x.word ∧ MigrateOp.kind x.word ≠ kind then s
    else
      s.dispatch o 0x0C fun x r => do
        if !MigrateOp.ok x.word then failWith Status.descriptorInvalid
        let s ← get
        if !(s.ctx r.ctx).placeRight then failWith Status.faultPermission
        if 2 ^ 52 < MigrateOp.va x.word + MigrateOp.folios x.word * 65536 then failWith Status.faultPermission
        let frames ← if kind < 2 then do
            let bs ← readVA r (MigrateOp.frameList x.word) (8 * MigrateOp.folios x.word)
            pure (frameWords (MigrateOp.folios x.word) bs)
          else pure []
        return { x with body := .migrate { frames := frames } }

end State

/-- MOVE (R127). -/
def execMove (o : OpRef) (s : State) : Outcome State Fault Refusal := .next (s.migrateOp o 0)

/-- REPLICATE (R127). -/
def execReplicate (o : OpRef) (s : State) : Outcome State Fault Refusal := .next (s.migrateOp o 1)

/-- REFRESH (R127). -/
def execRefresh (o : OpRef) (s : State) : Outcome State Fault Refusal := .next (s.migrateOp o 2)

/-- WITHDRAW (R127). -/
def execWithdraw (o : OpRef) (s : State) : Outcome State Fault Refusal := .next (s.migrateOp o 3)

/-- FOLIO_COPY_START (R130). -/
def execFolioCopyStart (o : OpRef) (s : State) : Outcome State Fault Refusal :=
  .next (if s.running then (s.folioStart o).noteDrain o else s)

/-- FOLIO_COPY_DONE (R129). -/
def execFolioCopyDone (o : OpRef) (s : State) : Outcome State Fault Refusal :=
  .next (if s.running then (s.folioDone o).noteDrain o else s)

/-- FOLIO_HOLD_EXPIRY (R130). -/
def execFolioHoldExpiry (o : OpRef) (s : State) : Outcome State Fault Refusal :=
  .next (if s.running then (s.folioExpiry o).noteDrain o else s)

/-- DRAINED_INVALIDATION_COMPLETE (R131). -/
def execDrainedInvalidationComplete (o : OpRef) (s : State) : Outcome State Fault Refusal :=
  .next (if s.running then s.drainComplete o else s)

end Sys2Proof.Machine
end

