-- ==== Sys2Proof/Machine/Tiers.lean ====
section
/-! DEFINITION. The tiers beneath the virtual range (06_memory_tiers.md, R133 to R146; 08_weevils_update.md, R193 and R194):
delegated placement and shard rebalancing at an epoch's end, patrol scrub, row remaps, and bandwidth caps for heat. -/

namespace Sys2Proof.Machine

open Host (Outcome)

namespace State

/-! ### Frame pools (R136) -/

/-- Frames a pool still holds. -/
def poolCount (v : Nat) : Nat := (bits v 127 96 + 2 ^ 32 - bits v 95 64) % 2 ^ 32

/-- A pool of the mask `pools` that names one of the places and is not empty. -/
def findPool (s : State) (pools : Nat) (dests : List Nat) : Option Nat :=
  (List.range 16).find? fun nn =>
    flag pools nn && dests.contains (bits (s.obj 0x4110 nn) 63 56) && decide (0 < poolCount (s.obj 0x4110 nn))

/-- A frame serves as what its pool is for (R136, R117). -/
def poolFrameOk (s : State) (dest a : Nat) : Bool :=
  a % 65536 == 0 &&
    if dest < 0x80 then placeOf a == .cover dest && s.copyRangeOk a 65536
    else if dest = 0xA0 then placeOf a == .far
    else placeOf a == .bulk (dest - 0x80)

/-- Takes the next good frame of a pool; bad ones are taken, skipped and counted. -/
def takeFrameN (s : State) (nn : Nat) : Nat → Option Nat × State
  | 0 => (none, s)
  | fuel + 1 =>
    let v := s.obj 0x4110 nn
    if poolCount v = 0 then (none, s)
    else
      let a := s.readNat (bits v 30 0 * 4096 + 8 * (bits v 95 64 % 2 ^ bits v 55 48)) 8
      let s := s.setObj 0x4110 nn (setBits v 95 64 (bits v 95 64 + 1))
      if s.poolFrameOk (bits v 63 56) a then (some a, s) else takeFrameN (s.addObj 0x4111 nn 1) nn fuel

def takeFrame (s : State) (pools : Nat) (dests : List Nat) : Option Nat × State :=
  match s.findPool pools dests with
  | none => (none, s)
  | some nn => s.takeFrameN nn (poolCount (s.obj 0x4110 nn))

/-! ### Delegated changes (R134, R135) -/

/-- A change that the device makes itself or proposes. -/
inductive Change where
  | move (dests : List Nat) (cluster : Nat)
  | replicate (dests : List Nat) (cluster : Nat)
  | withdraw

/-- Pools of the reader's near cover channels, and of its near stack (R121, R135). -/
def nearCoverDests (c : Nat) : List Nat := [c, 64 + c]

def nearStackDests (s : State) (c : Nat) : List Nat := (List.range 4).map fun g => 0x80 + 4 * nearStackOf (s.physOf c) + g

/-- A proposal for a folio (R137). -/
def propose (s : State) (g va e : Nat) (ch : Change) : State :=
  let port := bit (s.obj 0x4100 g) 108
  let rec_ := fun (kind target cluster : Nat) =>
    s.proposalRecord port (placementBits g kind target 0 (Pte.frame e) va cluster (s.lastReads g va))
  match ch with
  | .move dests c => rec_ 4 (if dests == [0xA0] then 3 else 0) c
  | .replicate _ c => rec_ 5 0 c
  | .withdraw => rec_ 6 (((s.homeOf (Pte.frame e)).map targetOf).getD 0) 0xFF

/-- One delegated change, whole (R134): frame, copy, leaves, drained invalidation, record. Without a frame it is proposed. -/
def performChange (s : State) (g root va a e : Nat) (ch : Change) : State :=
  let v := s.obj 0x4100 g
  let done := fun (t : State) (kind new cluster : Nat) =>
    (t.dropRange root va 65536).changeRecord (bit v 108)
      (placementBits g kind (targetOf new) new (Pte.frame e) va cluster (s.lastReads g va))
  match ch with
  | .withdraw =>
    match s.homeOf (Pte.frame e) with
    | some home => s.withdrawFolio g root va a e home 0xFF
    | none => s
  | .move dests _ =>
    match s.takeFrame (bits v 127 112) dests with
    | (none, t) => t.propose g va e ch
    | (some d, t) => done ((t.copyAtoms (Pte.frame e) d 1024).putLeaves 0 a (movedLeaf e d)) 0 d 0xFF
  | .replicate dests c =>
    match s.takeFrame (bits v 127 112) dests with
    | (none, t) => t.propose g va e ch
    | (some d, t) =>
      done (((t.copyAtoms (Pte.frame e) d 1024).putLeaves 0 a (copyLeaf e d)).setHomes d (Pte.frame e) 65536) 1 d c

/-- A change made in act mode where it may be made, proposed in propose mode. -/
def applyChange (s : State) (g root va level a e : Nat) (ch : Change) : State :=
  if grantMode (s.obj 0x4100 g) = 1 then s.propose g va e ch
  else if s.mayAct g e level va && !s.tierStarting (Pte.frame e) then s.performChange g root va a e ch
  else s

/-- The use record of a folio after an epoch (R135); `copy` says that a copy stands there, whose cool epochs count. A sampled access is
a sampled read (DEDUCED, log entry 87). -/
def usedBy (s : State) (u : FolioUse) (x : FolioCount) (copy : Bool) : FolioUse :=
  { reads := x.reads
    noWrite := if x.wrote then 0 else min 4 (u.noWrite + 1)
    cool := if copy && decide (x.reads < s.obj 0x4130 2) then u.cool + 1 else 0
    cold := if 0 < x.reads then 0 else u.cold + 1 }

/-- The cluster that read a folio most, the lowest of equals (R135; DESIGN CHOICE, log entry 87); none where no cluster read it. -/
def mostReader (x : FolioCount) : Option Nat :=
  (List.range 64).foldl (fun b c =>
    let n := AMap.getD x.readers c 0
    match b with
    | none => if 0 < n then some c else none
    | some d => if AMap.getD x.readers d 0 < n then some c else b) none

/-- The change that R135 calls for. -/
def wanted (s : State) (v e : Nat) (u : FolioUse) (reader : Option Nat) : Option Change :=
  let home := homeRange (Pte.frame e) 65536
  if Pte.replica e then (if s.obj 0x4130 3 ≤ u.cool then some .withdraw else none)
  else if home && flag v 109 && decide (s.obj 0x4130 1 ≤ u.reads) && u.noWrite == 4 && reader.isSome then
    reader.map fun c => .replicate (nearCoverDests c) c
  else if home && placeOf (Pte.frame e) != .far && flag v 111 && decide (s.obj 0x4130 4 ≤ u.cold) then
    some (.move [0xA0] 0xFF)
  else if placeOf (Pte.frame e) == .far && flag v 111 && decide (s.obj 0x4130 5 ≤ u.reads) then
    reader.map fun c => .move (s.nearStackDests c) c
  else none

/-- One folio of a granted range at the end of an epoch. -/
def epochFolio (g v : Nat) (s : State) (f : Nat) : State :=
  let k := g * 2 ^ 36 + f
  let x := AMap.getD s.tiers.counts k {}
  let root := bits v 39 0 * 4096
  let place := s.folioMap root (f * 65536)
  let u := s.usedBy (AMap.getD s.tiers.uses k {}) x (place.any fun p => Pte.replica p.2.2)
  let s : State := { s with tiers := { s.tiers with uses := AMap.put {} s.tiers.uses k u } }
  match place with
  | some (0, a, e) =>
    if Pte.pin e || (Pte.target e != 0 && Pte.target e != 3) then s
    else
      match s.wanted v e u (mostReader x) with
      | some ch => s.applyChange g root (f * 65536) 0 a e ch
      | none => s
  | _ => s

/-- Every folio of one grant. -/
def epochGrant (s : State) (g : Nat) : State :=
  let v := s.obj 0x4100 g
  if grantMode v = 1 ∨ grantMode v = 2 then
    ((List.range (bits v 105 82 * 32)).map (bits v 81 51 * 32 + ·)).foldl (epochFolio g v) s
  else s

/-! ### Shards (R193, R194) -/

/-- The shard of a bulk address: its device address / 2 MiB. -/
def shardOf (a : Nat) : Nat := a / 2 ^ 21

/-- Bulk group of a shard. -/
def shardGroup (k : Nat) : Nat := (k * 2 ^ 21 - bulkBase) / 0x300000000

/-- Row accesses of a group in the last epoch (`group_load`). -/
def groupLoad (s : State) (g : Nat) : Nat :=
  s.weevils.latched.foldl (fun n e => if shardGroup e.1 = g then n + e.2 else n) 0

/-- A row fetch or row write counted in its shard (R193). -/
def countShard (s : State) (a : Nat) : State :=
  match placeOf a with
  | .bulk _ => { s with weevils := { s.weevils with live := AMap.update 0 s.weevils.live (shardOf a) (· + 1) } }
  | _ => s

/-- The least or greatest of a list by a key, the first of equals. -/
def bestBy (f : Nat → Nat) : List Nat → Option Nat
  | [] => none
  | x :: xs =>
    match bestBy f xs with
    | some y => if f x < f y then some y else some x
    | none => some x

def leastBy (f : Nat → Nat) : List Nat → Option Nat
  | [] => none
  | x :: xs =>
    match leastBy f xs with
    | some y => if f y < f x then some y else some x
    | none => some x

/-- Groups that a frame pool which is not empty names. -/
def pooledGroups (s : State) : List Nat :=
  (List.range 24).filter fun g => (List.range 16).any fun nn =>
    bits (s.obj 0x4110 nn) 63 56 == 0x80 + g && decide (0 < poolCount (s.obj 0x4110 nn))

/-- What moving a shard has come to so far: nothing, proposals only, or folios moved. -/
inductive ShardMove where
  | none
  | proposed
  | moved
deriving DecidableEq, Repr

/-- One folio of a shard, moved to a group or proposed; whether it moved is read from its mapping (R194 steps 4 and 5). -/
def moveShardFolio (shard dst g root : Nat) (x : State × ShardMove) (f : Nat) : State × ShardMove :=
  match x.1.folioMap root (f * 65536) with
  | some (0, a, e) =>
    if Pte.pin e || Pte.replica e || Pte.target e != 0 || shardOf (Pte.frame e) != shard then x
    else
      let t := x.1.applyChange g root (f * 65536) 0 a e (.move [0x80 + dst] 0xFF)
      (t, if t.readNat a 8 ≠ e then .moved else if x.2 = .none ∧ grantMode (x.1.obj 0x4100 g) = 1 then .proposed else x.2)
  | _ => x

/-- The folios of a shard in one grant with `t_group`. -/
def moveShardIn (shard dst : Nat) (x : State × ShardMove) (g : Nat) : State × ShardMove :=
  let v := x.1.obj 0x4100 g
  if !flag v 110 || (grantMode v != 1 && grantMode v != 2) then x
  else ((List.range (bits v 105 82 * 32)).map (bits v 81 51 * 32 + ·)).foldl (moveShardFolio shard dst g (bits v 39 0 * 4096)) x

/-- The fractions of R194 step 1: the heaviest group at the high mark or above, the lightest below the low mark. -/
def unbalanced (s : State) (high low : Nat) : Bool :=
  decide (s.obj 0x6210 1 * 12500000 ≤ high * 100) && decide (low * 100 < s.obj 0x6210 2 * 12500000)

/-- All folios of shard `k` move to group `l`; a shard of which one moved rests. -/
def moveShard (s : State) (k l : Nat) : State × ShardMove :=
  let (t, m) := (List.range 64).foldl (moveShardIn k l) (s, .none)
  if m = .moved then ({ t with weevils := { t.weevils with resting := AMap.set t.weevils.resting k (t.obj 0x6210 4) } }, m) else (t, m)

/-- The shard that steps 1 and 2 of R194 choose in group `h`: of those not resting, and not found to have no folio in a grant, the
one with most counted. -/
def heavyShard (s : State) (skip : List Nat) (h : Nat) : Option Nat :=
  bestBy (fun k => AMap.getD s.weevils.latched k 0)
    ((s.weevils.latched.filter fun e => shardGroup e.1 == h && (AMap.get? s.weevils.resting e.1).isNone && !skip.contains e.1).map (·.1))

/-- What R194 moves next under the loads of the groups: a shard, its group and the group that takes it. -/
def nextShard (s : State) (skip : List Nat) (load : AMap Nat) : Option (Nat × Nat × Nat) :=
  match bestBy (fun g => AMap.getD load g 0) (List.range 24), leastBy (fun g => AMap.getD load g 0) s.pooledGroups with
  | some h, some l =>
    if s.unbalanced (AMap.getD load h 0) (AMap.getD load l 0) then (s.heavyShard skip h).map fun k => (k, h, l) else none
  | _, _ => none

/-- Steps 1 to 4 of R194 while `moves` shards may still move, with the fractions updated. A shard without a folio in a grant is
passed over (the rule is applied to granted folios); one that was only proposed ends it, since no fraction has changed (DEDUCED, log
entry 87). -/
def rebalance (skip : List Nat) (load : AMap Nat) (moves : Nat) (s : State) : Nat → State
  | 0 => s
  | fuel + 1 =>
    if moves = 0 then s
    else
      match s.nextShard skip load with
      | some (k, h, l) =>
        let n := AMap.getD s.weevils.latched k 0
        match s.moveShard k l with
        | (t, .none) => rebalance (k :: skip) load moves t fuel
        | (t, .proposed) => t
        | (t, .moved) =>
          rebalance skip (AMap.set (AMap.set load h (AMap.getD load h 0 - n)) l (AMap.getD load l 0 + n)) (moves - 1) t fuel
      | none => s

/-- The counts of the epoch are latched, and resting shards rest one epoch less. -/
def latchShards (s : State) : State :=
  { s with weevils := { s.weevils with
      latched := s.weevils.live, live := []
      resting := (s.weevils.resting.filter fun e => decide (1 < e.2)).map fun e => (e.1, e.2 - 1) } }

/-- A placement ring that is full at the end of an epoch (R138). -/
def countFullRing (s : State) (p : Nat) : State :=
  if s.placementOn p && s.placementFull p then s.countRaise 1 0 0xFF 0x4122 p 0 else s

/-- EPOCH_END (R135, R138, R193, R194). Which burst in 2^n is sampled in the next epoch is the controllers' choice, `sample` (log
entry 87). -/
def epochEnd (s : State) (sample : Nat) : State :=
  let s := [0, 1].foldl countFullRing s
  let s := s.latchShards
  let s := (List.range 64).foldl epochGrant s
  let s : State := { s with tiers := { s.tiers with counts := [], bursts := sample } }
  rebalance [] ((List.range 24).map fun g => (g, s.groupLoad g)) (s.obj 0x6210 3) s (s.weevils.latched.length + 16)

/-! ### Scrub and row remaps (R139 to R142) -/

/-- The channel of a device address: 0 to 127 cover, 128 + 32 s + channel bulk (R114, R115). -/
def channelOf (a : Nat) : Option Nat :=
  match placeOf a with
  | .cover n => some n
  | .coverDevice => some 127
  | .bulk g => some (128 + 8 * g + (a - bulkBase) % 0x300000000 % 65536 / 8192)
  | _ => none

/-- The object that counts a channel's corrected errors, and the one that counts its remap entries. -/
def ceObj (chan : Nat) : Nat × Nat := if chan < 128 then (0x4050, chan) else (0x4051, chan - 128)
def remapObj (chan : Nat) : Nat × Nat := if chan < 128 then (0x4055, chan) else (0x4056, chan - 128)

/-- A channel that serves nothing is not scrubbed. -/
def channelOut (s : State) (chan : Nat) : Bool :=
  if chan < 128 then s.obj 0x4012 chan == 2 else s.obj 0x4062 ((chan - 128) / 8) == 1

/-- A row gets a remap entry, which copies; a full table refuses it and triggers channel sparing (R141, R355). -/
def remapRow (s : State) (chan row : Nat) : State :=
  let l := AMap.getD s.tiers.remaps chan []
  let (i, n) := remapObj chan
  if l.any fun x => x.copying && x.row == row then s
  else if 1024 ≤ l.length then
    let s := s.raise 1 1 0xFF i n 0
    if chan < 128 then s.triggerChan chan none else s
  else
    let s : State := { s with tiers := { s.tiers with remaps := AMap.set s.tiers.remaps chan (l ++ [(⟨row, true⟩ : Remap)]) } }
    s.addObj i n 1

/-- Uncorrectable atoms a cover channel showed in the scrub period. -/
def channelUe (s : State) (chan : Nat) : Nat :=
  s.tiers.ueCounts.foldl (fun n e => if e.1 / 2 ^ 32 = chan then n + e.2 else n) 0

/-- Errors that a part of a cluster's store showed in the scrub period that ends now: corrected ones are counted, uncorrectable atoms
poisoned (R89), and `cs_ue_limit` of these in the period trigger the cluster's sparing (R349). -/
def storeErrors (s : State) (c row corrected : Nat) (bad : List Nat) : State :=
  let chan := 320 + c
  let bad := bad.filter fun a => match placeOf a with
    | .store x _ => x == c
    | .storeDevice x _ => x == c
    | _ => false
  let s := s.addObj 0x5040 c corrected
  let s := bad.foldl (fun t a => t.makePoison (a / 64 * 64)) s
  let s : State := { s with tiers := { s.tiers with
    ueCounts := AMap.put 0 s.tiers.ueCounts (chan * 2 ^ 32 + row % 2 ^ 32) bad.length } }
  if bad ≠ [] ∧ s.obj 0x5004 3 ≤ s.channelUe chan then s.triggerSparing c else s

/-- The errors of the period of a row of a cover or bulk channel (R139 to R141): `corrected` ones, and the addresses of its atoms
that cannot be corrected, which are written back poisoned. -/
def channelErrors (s : State) (chan row corrected : Nat) (bad : List Nat) : State :=
  if s.channelOut chan then s
  else
    let (i, n) := ceObj chan
    let bad := bad.filter fun a => channelOf a == some chan
    let s := s.addObj i n corrected
    let s := bad.foldl (fun t a => t.makePoison (a / 64 * 64)) s
    let s : State := { s with tiers := { s.tiers with
      ueCounts := AMap.put 0 s.tiers.ueCounts (chan * 2 ^ 32 + row % 2 ^ 32) bad.length } }
    let s := if s.obj 0x4054 1 ≤ corrected ∨ bad ≠ [] then s.remapRow chan row else s
    if chan < 128 ∧ s.obj 0x4057 1 ≤ s.channelUe chan then s.triggerChan chan none else s

/-- The entry of a buffer that failed its parity is dropped, so that the next access walks (R203, R330). -/
def parityDrop (s : State) (b : Option Nat) (t page : Nat) : State :=
  s.setBuffer b ((s.buffer b).filter fun e => !covers t page e)

/-- Uncorrectable errors in the Spine's fence store poison their fences (R360). -/
def fenceErrors (s : State) (fs : List Nat) : State :=
  { s with fencePoison := (fs.filter fun f => decide (f < 4096)).foldl (fun l f => insertNat f l) s.fencePoison }

/-- An uncorrectable error in the Spine's state of a context: the device tears the context down by itself (R362). The object reported
is `ctx_info` (log entry 39). -/
def contextError (s : State) (n : Nat) : State :=
  if (s.ctx n).phase != .opened then s
  else (s.beginTeardown n true).raise 4 2 (2 ^ (s.ctx n).partition) (0x3010 + n / 256) (n % 256) 0

/-- PATROL_SCRUB of a row of channel `chan`. The operand also brings the errors of units that the table has no row for (DESIGN CHOICE,
log entry 74): 320 + c is the store of cluster c (R89); 384 the posted word path, whose entries numbered in `bad` are to be delivered
poisoned; 385 the network-on-chip, where the next delivery of each atom in `bad` is (R330); 386 a translation buffer, `row` that of a
cluster or 64 the central one, whose entries for the pages in `bad` under tag `corrected` fail their parity (R203; log entry 88); 387
the Spine's fence store, with the fences in `bad` (R360); 388 the Spine's state of the contexts in `bad` (R362). -/
def patrolScrub (s : State) (chan row corrected : Nat) (bad : List Nat) : State :=
  if chan < 320 then s.channelErrors chan row corrected bad
  else if chan < 384 then s.storeErrors (chan - 320) row corrected bad
  else if chan = 384 then { s with path := s.path.mapIdx fun i e => if bad.contains i then { e with bad := true } else e }
  else if chan = 386 then bad.foldl (fun t page => t.parityDrop (if row < 64 then some row else none) corrected page) s
  else if chan = 387 then s.fenceErrors bad
  else if chan = 388 then bad.foldl contextError s
  else { s with tiers := { s.tiers with transit := bad.foldl (fun l a => insertNat (a / 64) l) s.tiers.transit } }

/-- ROW_REMAP_COMPLETE: the entry takes effect. -/
def remapDone (s : State) (chan row : Nat) : State :=
  let l := AMap.getD s.tiers.remaps chan []
  if l.isEmpty then s
  else { s with tiers := { s.tiers with remaps := AMap.set s.tiers.remaps chan (l.map fun x =>
    if x.row = row then { x with copying := false } else x) } }

/-! ### Heat (R145, R146) -/

/-- A cover channel at 95 °C for 1 ms is capped (R145). -/
def capChannel (s : State) (nn : Nat) : State :=
  if s.tiers.capped.contains nn || toSigned 32 (s.obj 0xB040 (nn % 64)) < 95 then s
  else ({ s with tiers := { s.tiers with capped := insertNat nn s.tiers.capped } }).raise 7 1 0xFF 0xB040 (nn % 64) 0

/-- An HBM stack at 95 °C is capped until it falls below 90 °C (R146). The rule gives neither the severity nor the object of
its attention: both are free values. -/
def capStack (s : State) (k : Nat) : State :=
  if s.tiers.stackCapped.contains k then s
  else
    let (v, s) := s.draw
    ({ s with tiers := { s.tiers with stackCapped := insertNat k s.tiers.stackCapped } }).raise
      7 (v % 4) 0xFF (v / 4 % 2 ^ 16) (v / 2 ^ 18 % 256) 0

def liftStack (s : State) (k : Nat) : State :=
  { s with tiers := { s.tiers with stackCapped := s.tiers.stackCapped.filter (· != k) } }

end State

/-- EPOCH_END (R135). -/
def execEpochEnd (sample : Nat) (s : State) : Outcome State Fault Refusal :=
  .next (if s.running then s.epochEnd sample else s)

/-- PATROL_SCRUB (R140). -/
def execPatrolScrub (chan row corrected : Nat) (uncorrectable : List Nat) (s : State) : Outcome State Fault Refusal :=
  .next (if s.running then s.patrolScrub chan row corrected uncorrectable else s)

/-- ROW_REMAP_COMPLETE (R141). -/
def execRowRemapComplete (chan row : Nat) (s : State) : Outcome State Fault Refusal :=
  .next (if s.running then s.remapDone chan row else s)

/-- CHANNEL_BANDWIDTH_CAP (R145). -/
def execChannelBandwidthCap (nn : Nat) (s : State) : Outcome State Fault Refusal :=
  .next (if s.running then s.capChannel nn else s)

/-- HBM_THERMAL_CAP (R146). -/
def execHbmThermalCap (stack : Nat) (s : State) : Outcome State Fault Refusal :=
  .next (if s.running then s.capStack stack else s)

/-- HBM_THERMAL_CAP_RELEASE (R146). -/
def execHbmThermalCapRelease (stack : Nat) (s : State) : Outcome State Fault Refusal :=
  .next (if s.running then s.liftStack stack else s)

end Sys2Proof.Machine
end

