-- ==== Sys2Proof/Machine/Swarms.lean ====
section
/-! DEFINITION. The translation unit's own commands (09_translation_and_swarms.md, R204, R210, R212 to R221): walks of resumed
accesses, tag evictions, INVALIDATE, and swarms. -/

namespace Sys2Proof.Machine

open Host (Outcome)

namespace State

/-! ### Walks (R204, R219, R220) -/

/-- Accesses put into the walker queue, in order. -/
def walkAgain (s : State) (l : List Stall) : State :=
  { s with trans := { s.trans with
      walks := s.trans.walks ++ l.map fun (x : Stall) => (⟨x.req, x.va, x.access⟩ : Walk) } }

/-- The request a walker takes next: of class 0 first, otherwise the oldest, of the 64 the queue holds (R204). -/
def nextWalk (s : State) : Option Walk :=
  let q := s.trans.walks.take 64
  match q.find? fun w => w.req.cls == 0 with
  | some w => some w
  | none => q.head?

/-- One request of a walk: its translation fills the buffers; a fault is reported anew; a failure waits for the requester
to issue its access again. A walk whose tag is gone ends with the tag's eviction (R210): its requester asks for a tag anew. -/
def walkOne (s : State) (w : Walk) : State :=
  if (s.tagOf w.req.root).isNone then s
  else match (translate w.req w.va w.access).run s with
  | .ok _ t => t
  | .error (.stall r va level cause acc st) _ => s.addStall r va level cause acc st
  | .error (.fail st _) t =>
    { t with trans := { t.trans with failing := t.trans.failing ++ [(w.req.who, w.va / 4096, st)] } }
  | .error _ _ => s.walkAgain [({ req := w.req, va := w.va, access := w.access, status := 0, port := 0, seq := none } : Stall)]

/-- PAGE_WALK: the walk taken answers every queued request for its tag and page (R197, R204). -/
def pageWalk (s : State) : State :=
  match s.nextWalk with
  | none => s
  | some w =>
    let same := fun (x : Walk) => x.req.root == w.req.root && x.va / 4096 == w.va / 4096
    let mine := s.trans.walks.filter same
    let s : State := { s with trans := { s.trans with walks := s.trans.walks.filter fun x => !same x } }
    mine.foldl walkOne s

/-! ### Tags (R210, R211) -/

/-- The eviction of a tag has ended: no walk under it is queued, it is bound to the root it was evicted for (R210), pinned where
that root is still one of `pin_space` (R211), and the records that waited for it are written (R302). -/
def evictionDone (s : State) (t : Nat) : State :=
  let x := s.tag t
  if !x.evicting || s.trans.walks.any (fun w => x.root == some w.req.root) then s
  else
    let s : State := { s with trans := { s.trans with drains := s.trans.drains.filter (· != .tag t) } }
    ((s.setTag t { root := some x.nextRoot, pinned := x.nextPinned && s.pinnedRoot x.nextRoot, left := s.trans.tick }
      ).bindPins).issueAll

/-- A pinned root leaves `pin_space`: its tag is unpinned and its pinned buffer entries removed (R211). -/
def unpinRoot (s : State) (root : Nat) : State :=
  match s.tagOf root with
  | some t => (s.setTag t { s.tag t with pinned := false }).dropEntries fun e => e.tag == t && e.pinned
  | none => s

/-! ### INVALIDATE (R212 to R214) -/

/-- An INVALIDATE takes its place among the drained invalidations, in order of arrival (R214). -/
def queueDrain (s : State) (o : OpRef) : State :=
  if s.trans.drains.contains (.op o) then s
  else { s with trans := { s.trans with drains := s.trans.drains ++ [.op o] } }

/-- The roots of the open contexts of a partition. -/
def partRoots (s : State) (p : Nat) : List Nat :=
  (s.ctxs.filter fun c => c.2.phase != .closed && c.2.partition == p).map (·.2.root)

/-- The roots an INVALIDATE covers. -/
def invRoots (s : State) (op : Nat) (r : Req) : List Nat :=
  if InvOp.scope op = 2 then s.partRoots r.part
  else if InvOp.root op = 0 then [r.root] else [InvOp.root op]

/-- A tag bound to one of some roots. -/
def tagIn (s : State) (roots : List Nat) (t : Nat) : Bool :=
  match (s.tag t).root with
  | some x => roots.contains x
  | none => false

/-- An entry maps a page of the scope. -/
def inScope (s : State) (roots : List Nat) (lo pages : Nat) (whole : Bool) (e : TEnt) : Bool :=
  s.tagIn roots e.tag && (whole || (decide (e.page < lo + pages) && decide (lo < e.page + e.pages)))

/-- A remote read of a context that covers one of some roots has not returned (R213). -/
def readsOut (s : State) (roots : List Nat) : Bool :=
  s.fabric.reads.any fun x => !x.finished && s.ctxs.any fun c => roots.contains c.2.root && s.whoOf c.1 x.who

/-- Work that an INVALIDATE waits for: an eviction of a tag in scope, writes held by a folio being copied, reads that have not
returned, frames that a peer has not acknowledged (R213, R214). -/
def drainPending (s : State) (roots : List Nat) (lo pages : Nat) (whole : Bool) : Bool :=
  ((List.range 32).any fun t => s.tagIn roots t && (s.tag t).evicting) ||
  (s.tiers.redirs.any fun x => held x.folio && roots.contains (s.ctx x.owner.ctx).root &&
    (whole || (decide (x.folio.va < (lo + pages) * 4096) && decide (lo * 4096 < x.folio.va + x.folio.size)))) ||
  s.readsOut roots || s.ctxs.any fun c => roots.contains c.2.root && s.ctxUnacked c.1

/-- An INVALIDATE checked, and every covered entry removed once it has its turn among the drains (R213, R214). -/
def invalidateEntries (o : OpRef) (x : Op) (r : Req) : M Op := do
  if !InvOp.ok x.word then failWith Status.descriptorInvalid
  let s ← get
  let foreign := InvOp.root x.word != 0 && InvOp.root x.word != r.root
  if (foreign || InvOp.scope x.word == 2) && !(s.ctx r.ctx).placeRight then failWith Status.faultPermission
  let roots := s.invRoots x.word r
  if (List.range 32).any (s.tagIn roots) then
    set (s.queueDrain o)
    if !(s.queueDrain o).drainTurn o then throw .pause
  let s ← get
  let whole := InvOp.scope x.word != 0
  set (s.dropEntries (s.inScope roots (InvOp.va x.word) (InvOp.pages x.word) whole))
  return { x with body := .invalidate roots (InvOp.va x.word) (InvOp.pages x.word) whole }

/-- A dispatched INVALIDATE without any tag has nothing to wait for. -/
def endEmptyDrain (s : State) (o : OpRef) : State :=
  match s.op? o with
  | some y =>
    match y.phase, y.body with
    | .dispatched, .invalidate roots _ _ _ => if (List.range 32).any (s.tagIn roots) then s else s.endOp o Status.ok 0 0 0
    | _, _ => s
  | none => s

/-- INVALIDATE of a scope. -/
def invalidateOp (s : State) (o : OpRef) (scope : Nat) : State :=
  match s.op? o with
  | none => s
  | some x =>
    if OpHdr.opcode x.word = 0x0D ∧ InvOp.ok x.word ∧ InvOp.scope x.word ≠ scope then s
    else (s.dispatch o 0x0D (invalidateEntries o)).endEmptyDrain o

/-- INVALIDATE_DRAIN_COMPLETE (R213). -/
def invalidateDone (s : State) (o : OpRef) : State :=
  match s.op? o with
  | some x =>
    match x.phase, x.body with
    | .dispatched, .invalidate roots lo pages whole =>
      if s.drainPending roots lo pages whole then s else s.endOp o Status.ok 0 0 0
    | _, _ => s
  | none => s

/-! ### Swarms (R215 to R221) -/

/-- SWARM_TIMER_CLOSE (R215). -/
def timerClose (s : State) (p : Nat) : State := if s.ringEnabled p then s.closeSwarm p 1 else s

/-- SWARM_POST (R220): the waiting swarm is posted; a full open swarm closes; requesters without an entry walk again. -/
def swarmPost (s : State) (p : Nat) : State :=
  match (s.swarmPort p).closed with
  | [] => s
  | w :: more =>
    if !s.canPost p then s
    else
      let (v, s) := s.draw
      let s := s.postSwarm p w (v % 2 ^ 32)
      let s := s.setSwarmPort p { s.swarmPort p with closed := more, waited := !more.isEmpty }
      let s := if (s.swarmPort p).opened.length = 32 then s.closeSwarm p 0 else s
      let without := s.trans.stalls.filter fun x => x.port == p && x.seq.isNone
      ({ s with trans := { s.trans with stalls := s.trans.stalls.filter fun x => !(x.port == p && x.seq.isNone) } }
        ).walkAgain without

/-- The stalled accesses of a port that meet a condition fail their ops with their statuses of R201. -/
def failStalls (s : State) (q : Stall → Bool) : State :=
  let mine := s.trans.stalls.filter q
  { s with trans := { s.trans with
      stalls := s.trans.stalls.filter fun x => !q x
      failing := s.trans.failing ++ mine.map fun (x : Stall) => (x.req.who, x.va / 4096, x.status) } }

/-- A write of `fault_resume` (R219); a swarm not posted or already answered is ignored. -/
def faultResume (s : State) (p v : Nat) : State :=
  let seq := v % 2 ^ 32
  let x := s.swarmPort p
  if !x.posted.any fun w => w.seq == seq then s
  else
    let s := s.setSwarmPort p { x with posted := x.posted.filter fun w => w.seq != seq }
    let q := fun (y : Stall) => y.port == p && y.seq == some seq
    if bits v 33 32 = 0 then
      let mine := s.trans.stalls.filter q
      ({ s with trans := { s.trans with stalls := s.trans.stalls.filter fun y => !q y } }).walkAgain mine
    else s.failStalls q

/-- `enable` of a port's ring is cleared (R221): swarms not yet posted are dropped, their entries counted, and every access
stalled on them, or without an entry, fails. -/
def ringDisabled (s : State) (p : Nat) : State :=
  let x := s.swarmPort p
  let lost := x.opened.length + (x.closed.map fun w => w.entries.length).foldl (· + ·) 0
  let without := (s.trans.stalls.filter fun y => y.port == p && y.seq.isNone).length
  let s := s.failStalls fun y => y.port == p && (match y.seq with
    | none => true
    | some q => !x.posted.any fun w => w.seq == q)
  (s.setSwarmPort p { x with opened := [], closed := [], waited := false }).addObj 0x4203 p (lost + without)

end State

/-- PAGE_WALK (R197, R204). -/
def execPageWalk (s : State) : Outcome State Fault Refusal :=
  .next (if s.running then s.pageWalk else s)

/-- TAG_EVICTION_COMPLETE (R210). -/
def execTagEvictionComplete (tt : Nat) (s : State) : Outcome State Fault Refusal :=
  .next (if s.running then s.evictionDone tt else s)

/-- SWARM_TIMER_CLOSE (R215). -/
def execSwarmTimerClose (port : Nat) (s : State) : Outcome State Fault Refusal :=
  .next (if s.running then s.timerClose port else s)

/-- SWARM_POST (R220). -/
def execSwarmPost (port : Nat) (s : State) : Outcome State Fault Refusal :=
  .next (if s.running then s.swarmPost port else s)

/-- INVALIDATE_RANGE (R213). -/
def execInvalidateRange (o : OpRef) (s : State) : Outcome State Fault Refusal :=
  .next (if s.running then s.invalidateOp o 0 else s)

/-- INVALIDATE_SPACE (R213). -/
def execInvalidateSpace (o : OpRef) (s : State) : Outcome State Fault Refusal :=
  .next (if s.running then s.invalidateOp o 1 else s)

/-- INVALIDATE_PARTITION (R213). -/
def execInvalidatePartition (o : OpRef) (s : State) : Outcome State Fault Refusal :=
  .next (if s.running then s.invalidateOp o 2 else s)

/-- INVALIDATE_DRAIN_COMPLETE (R213). -/
def execInvalidateDrainComplete (o : OpRef) (s : State) : Outcome State Fault Refusal :=
  .next (if s.running then s.invalidateDone o else s)

end Sys2Proof.Machine
end

