-- ==== Sys2Proof/Machine/Tensor.lean ====
section
/-! DEFINITION. COPY_TENSOR (05_cluster_store_and_layouts.md, R99 to R111): boxes, padding, clamps, staging and the report. -/

namespace Sys2Proof.Machine

open Host (Outcome)

/-- A copy as its record, descriptors and window give it: local starts and extents of the box (R104, R106). -/
structure CopyBox where
  word : Nat
  src : Nat
  dst : Nat
  srcStart : List Int
  dstStart : List Int
  ext : List Nat
deriving DecidableEq, Repr

/-- The local start that a global coordinate gives in a piece (R104). -/
def localStart (d k : Nat) (g : Int) : Int := if Desc.dist d then g - (Desc.gOff d k : Nat) else g

/-- The box of a copy; without a window it is the whole local piece of the source (R106). -/
def copyBox (w src dst x : Nat) : CopyBox :=
  let dims := List.range (Desc.rank src)
  if CopyOp.window w = 0 then
    { word := w, src := src, dst := dst, srcStart := dims.map fun _ => 0, dstStart := dims.map fun _ => 0,
      ext := dims.map fun d => Desc.extent src (CopyOp.perm w d) }
  else
    { word := w, src := src, dst := dst
      srcStart := dims.map fun d => localStart src d (CopyWindow.srcStart x d)
      dstStart := dims.map fun d => localStart dst d (CopyWindow.dstStart x d)
      ext := dims.map (CopyWindow.ext x) }

namespace CopyBox

/-- Destination index of box index `j`. -/
def dstIx (b : CopyBox) (j : List Nat) : List Int :=
  (List.range b.ext.length).map fun d => b.dstStart.getD d 0 + (j.getD d 0 : Nat)

/-- Source index of box index `j`: its dimension `perm d` follows `j` in `d` (R107). -/
def srcIx (b : CopyBox) (j : List Nat) : List Int :=
  (List.range b.ext.length).map fun k =>
    let d := ((List.range b.ext.length).find? fun d => CopyOp.perm b.word d == k).getD k
    b.srcStart.getD k 0 + (j.getD d 0 : Nat)

/-- The elements of the box, dimension 0 fastest. -/
def indices (b : CopyBox) : List (List Nat) := if b.ext.any (· == 0) then [] else boxIndices b.ext

/-- What a write of an element comes to (R100, R110). -/
inductive Fate where
  | inBounds (ix : List Nat)
  | clamped (ix : List Nat)
  | discarded
  | padSkipped
deriving DecidableEq

def fate (b : CopyBox) (j : List Nat) : Fate :=
  let t := b.dstIx j
  if Desc.inside b.dst t then .inBounds (t.map Int.toNat)
  else if !Desc.inside b.src (b.srcIx j) then .padSkipped
  else if Desc.writeClamp b.dst then
    match Desc.clamp b.dst t with
    | some ix => .clamped ix
    | none => .discarded
  else .discarded

/-- Source elements that the copy reads, and destination elements that it writes. -/
def reads (b : CopyBox) : List (List Nat) := b.indices.filterMap fun j => Desc.readAt b.src (b.srcIx j)

def target (f : Fate) : Option (List Nat) :=
  match f with
  | .inBounds ix => some ix
  | .clamped ix => some ix
  | _ => none

def writes (b : CopyBox) : List (List Nat) := b.indices.filterMap fun j => target (b.fate j)

/-- First and last byte of a list of elements. -/
def span (d : Nat) (ixs : List (List Nat)) : Option (Nat × Nat) :=
  match ixs.map (Desc.addr d) with
  | [] => none
  | a :: as => some (as.foldl min a, as.foldl max a + (Desc.elemBytes d - 1))

/-- The spans of source and destination overlap (R109). -/
def overlaps (b : CopyBox) : Bool :=
  match span b.src b.reads, span b.dst b.writes with
  | some x, some y => spansMeet x y
  | _, _ => false

/-- Bytes of the box (R109). -/
def bytes (b : CopyBox) : Nat := ceilDiv (b.ext.foldl (· * ·) 1 * Desc.elemBits b.src) 8

end CopyBox

/-- The checks of R108. -/
def copyOk (w src dst x : Nat) : Bool :=
  Desc.rank src == Desc.rank dst && Desc.elemType src == Desc.elemType dst && CopyOp.permOk w (Desc.rank src) &&
    (CopyOp.window w == 0 || CopyWindow.ok x (Desc.rank src)) &&
    (Desc.rank src == 1 || Desc.elemType src != 0 || CopyOp.perm w 0 == 0)

/-- The value of each element of the box, with poison (R99). -/
def readBox (r : Req) (b : CopyBox) : M (List (Nat × Bool)) := do
  let js := b.indices
  let vs ← readCells r (cellBytes b.src) (b.reads.map (Desc.addr b.src))
  let rec zip : List (List Nat) → List (Nat × Bool) → List (Nat × Bool)
    | [], _ => []
    | j :: js, vs =>
      match Desc.readAt b.src (b.srcIx j), vs with
      | some ix, v :: vs => (cellElem b.src ix v.1, v.2) :: zip js vs
      | _, vs => (Desc.padValue b.src, false) :: zip js vs
  return zip js vs

/-- The key of a destination element: its byte address, doubled with the nibble for int4. -/
def cellKey (d : Nat) (ix : List Nat) : Nat :=
  if Desc.elemType d = 0 then 2 * Desc.addr d ix + ix.getD 0 0 % 2 else Desc.addr d ix

/-- The last write of each destination element: clamped writes in ascending index order, then in-bounds writes (R100). Each
value carries its poison in bit 0. -/
def finalCells (b : CopyBox) (vs : List (Nat × Bool)) : AMap Nat :=
  let ps := b.indices.zip vs
  let put := fun (pick : CopyBox.Fate → Option (List Nat)) (m : AMap Nat) => ps.foldl (fun m p =>
    match pick (b.fate p.1) with
    | some ix => AMap.set m (cellKey b.dst ix) (2 * p.2.1 + b2n p.2.2)
    | none => m) m
  let m := put (fun f => match f with
    | .clamped ix => some ix
    | _ => none) []
  put (fun f => match f with
    | .inBounds ix => some ix
    | _ => none) m

/-- The runs of cells written with their poison. -/
def writeBoxRuns (r : Req) (n : Nat) : List (Nat × List Nat) → M Unit
  | [] => return ()
  | (a, vs) :: rest => do
    writeMarked r a (vs.flatMap fun v => leBytes n (v / 2)) (vs.flatMap fun v => List.replicate n (v % 2 == 1)) true
    writeBoxRuns r n rest

/-- The nibbles written of each byte: low and high. -/
def nibblesOf (cells : AMap Nat) : AMap (Option Nat × Option Nat) :=
  cells.foldl (fun m c =>
    let old := AMap.getD m (c.1 / 2) (none, none)
    AMap.set m (c.1 / 2) (if c.1 % 2 = 0 then (some c.2, old.2) else (old.1, some c.2))) []

/-- Bytes put together from their nibbles; a byte of which one nibble is written keeps the other (R102). -/
def joinNibbles (r : Req) : List (Nat × Option Nat × Option Nat) → M (List (Nat × Nat))
  | [] => return []
  | (a, lo, hi) :: rest => do
    let old ← match lo, hi with
      | some _, some _ => pure 0
      | _, _ => do
        let (bs, _) ← readMarked r a 1
        pure (leNat bs)
    let l := (lo.map (· / 2)).getD (old % 16)
    let h := (hi.map (· / 2)).getD (old / 16)
    let bad := max ((lo.map (· % 2)).getD 0) ((hi.map (· % 2)).getD 0)
    let more ← joinNibbles r rest
    return (a, (l + 16 * h) * 2 + bad) :: more

/-- The writes of a copy. -/
def writeBox (r : Req) (b : CopyBox) (vs : List (Nat × Bool)) : M Unit := do
  let cells := finalCells b vs
  let cells ← if Desc.elemType b.dst = 0 then joinNibbles r (nibblesOf cells) else pure cells
  writeBoxRuns r (Desc.elemBytes b.dst) (runsOf (Desc.elemBytes b.dst) (cells.map fun c => (c.2, c.1)))

/-- Elements that meet a fate. -/
def countFate (b : CopyBox) (p : CopyBox.Fate → Bool) : Nat := (b.indices.filter fun j => p (b.fate j)).length

/-- The report (R111) and the counts of the partition (R101). -/
def copyReport (r : Req) (b : CopyBox) (staged : Nat) : M Unit := do
  let discarded := countFate b (· == .discarded)
  let clamped := countFate b fun f => match f with
    | .clamped _ => true
    | _ => false
  let skipped := countFate b (· == .padSkipped)
  let cap := fun n => min n (2 ^ 32 - 1)
  if CopyOp.report b.word ≠ 0 then
    writeVA r (CopyOp.report b.word)
      (leBytes 4 (cap discarded) ++ leBytes 4 (cap clamped) ++ leBytes 4 (cap skipped) ++ leBytes 4 (cap staged))
  modify fun s => ((s.addObj 0x3060 r.part discarded).addObj 0x3061 r.part clamped).addObj 0x3062 r.part skipped

/-- Free values for elements whose copy is given up with an error (R338). -/
def spoil (v : Nat) (vs : List (Nat × Bool)) (n : Nat) : List (Nat × Bool) :=
  vs.mapIdx fun i x => (v >>> (n * i) % 2 ^ n, x.2)

/-- The bytes of a box as the bounce region holds it, and which of them hold a poisoned element: its elements packed in box order
(R109; DESIGN CHOICE, log entry 62). -/
def packBox (b : CopyBox) (vs : List (Nat × Bool)) : List (BitVec 8) × List Bool :=
  let n := Desc.elemBits b.src
  (leBytes b.bytes (vs.reverse.foldl (fun w v => w * 2 ^ n + v.1 % 2 ^ n) 0),
   (List.range b.bytes).map fun i => (List.range (ceilDiv 8 n)).any fun k => (vs.getD (8 * i / n + k) (0, false)).2)

/-- The whole box, padding elements included, is read into the bounce region of cluster `cc` (R90, R109). -/
def stageBox (r : Req) (b : CopyBox) (cc : Nat) : M Unit := do
  let vs ← readBox r b
  let (bytes, bad) := packBox b vs
  modify fun s => s.writeMixed (storeAddr cc 0x300000) bytes bad

/-- The elements of a box that the bounce region holds, with the poison of their atoms. -/
def stagedBox (s : State) (b : CopyBox) (cc : Nat) : List (Nat × Bool) :=
  let n := Desc.elemBits b.src
  let a := storeAddr cc 0x300000
  let w := s.readNat a b.bytes
  (List.range (b.ext.foldl (· * ·) 1)).map fun i => (bits w (n * i + n - 1) (n * i), s.poisonedAt (a + n * i / 8))

/-- The copy, from its source or, staged, from the bounce region of the cluster; with two detected errors it ends
SILENT_ERROR_UNRECOVERED and leaves free values (R109, R338). What it counts and reports is added once its writes are made: a copy that
fails adds nothing (DESIGN CHOICE, log entry 62). -/
def runCopy (r : Req) (b : CopyBox) (staged : Option Nat) (errors : Nat) : M Unit := do
  let vs ← match staged with
    | some cc => do pure (stagedBox (← get) b cc)
    | none => readBox r b
  if 2 ≤ errors then
    let (v, s) := (← get).draw
    set s
    writeBox r b (spoil v vs (Desc.elemBits b.src))
  else
    writeBox r b vs
    copyReport r b (if staged.isSome then b.bytes else 0)

namespace State

/-- The requester that the stream engine of a cluster is for an op (R217). -/
def streamReq (s : State) (cc : Nat) (o : OpRef) (k : Nat) : Req :=
  let x := s.ctx o.ctx
  { who := .op o k, ctx := o.ctx, cls := x.cls, part := x.partition, root := x.root, kind := 0, id := cc,
    cluster := some cc, targets := 31, mayStall := true, fabric := false }

/-- The writes of a COPY_TENSOR, and its end. -/
def copyWrites (s : State) (o : OpRef) (b : CopyBox) (cc : Nat) (staged : Option Nat) (errors : Nat) : State :=
  s.runM (runCopy (s.streamReq cc o 0) b staged errors)
    (fun _ t =>
      if 2 ≤ errors then t.stopSlice o 0 Status.silentError 0 0
      else
        let t := if errors = 1 then (t.addObj 0x5041 cc 1).notePassed o 0x5041 cc else t
        t.stopSlice o 0 Status.ok 0 0)
    (fun st code t => t.stopSlice o 0 st (code % 256) (code / 65536))

/-- A COPY_TENSOR at the head of its cluster's SE class runs; one whose spans overlap waits for the device area, reads its box into the
bounce region, and writes from there, also when a write stalls and is issued again (R90, R109). A fourth number in the op's copies says
that the box is there. -/
def copyRun (s : State) (o : OpRef) (errors : Nat) : State :=
  match s.op? o, s.slice? o 0 with
  | some x, some y =>
    match y.place with
    | none => s
    | some cc =>
      if x.phase != .dispatched || OpHdr.opcode x.word != 0x08 || (y.phase != .queued && y.phase != .running) ||
          !s.heads o 0 cc then s
      else
        let b := copyBox x.word (x.copies.getD 0 0) (x.copies.getD 1 0) (x.copies.getD 2 0)
        if !b.overlaps then (s.startSlice o 0).copyWrites o b cc none errors
        else if 2 ^ 20 < b.bytes then (s.startSlice o 0).stopSlice o 0 Status.overlapRejected 0 0
        else if !s.mayUseArea cc o then s
        else
          let s := (s.startSlice o 0).useArea cc o
          if x.copies.length = 4 then s.copyWrites o b cc (some cc) errors
          else
            s.runM (stageBox (s.streamReq cc o 0) b cc)
              (fun _ t => (t.modOp o fun y => { y with copies := y.copies ++ [1] }).copyWrites o b cc (some cc) errors)
              (fun st code t => t.stopSlice o 0 st (code % 256) (code / 65536))
  | _, _ => s

/-- COPY_TENSOR: dispatched with its descriptors and window checked, placed, and run once its turn has come. -/
def copyTensor (s : State) (o : OpRef) (errors : Nat) : State :=
  let s := s.dispatch o 0x08 fun x r => do
    let w := x.word
    if !CopyOp.ok w then failWith Status.descriptorInvalid
    let src ← readDesc r (CopyOp.srcDesc w)
    let dst ← readDesc r (CopyOp.dstDesc w)
    let win ← if CopyOp.window w = 0 then pure 0 else readNum r (CopyOp.window w) 64
    if !copyOk w src dst win then failWith Status.descriptorInvalid
    return { x with copies := [src, dst, win], slices := [{ unit := 2 }] }
  let s := match s.op? o with
    | some x => if x.phase == OpPhase.dispatched && OpHdr.opcode x.word == 0x08 then s.placeAll o else s
    | none => s
  s.copyRun o errors

end State

/-- COPY_TENSOR (R107); `errors` is how often a run of it detects an error. -/
def execCopyTensor (o : OpRef) (errors : Nat) (s : State) : Outcome State Fault Refusal :=
  .next (if s.running then s.copyTensor o errors else s)

end Sys2Proof.Machine
end

