-- ==== Sys2Proof/Machine/Rows.lean ====
section
/-! DEFINITION. Table rows (02_formats_and_quantisation.md, R34 to R39; 08_weevils_update.md, R177, R178): the check, dequantising,
requantising with stochastic rounding, and the optimisers. -/

namespace Sys2Proof.Machine

namespace Row

/-! ### Parts of a slot (R34 to R36) -/

/-- One byte into a CRC-16 with polynomial 0x1021 (R35). -/
def crcByte (c : Nat) (b : BitVec 8) : Nat :=
  (List.range 8).foldl (fun c _ => if flag c 15 then (c * 2 % 65536) ^^^ 0x1021 else c * 2 % 65536) (c ^^^ (b.toNat * 256))

def crc (bs : List (BitVec 8)) : Nat := bs.foldl crcByte 0xFFFF

def scale (bs : List (BitVec 8)) : Nat := leNat (bs.take 2)
def offset (bs : List (BitVec 8)) : Nat := leNat ((bs.drop 2).take 2)
def version (bs : List (BitVec 8)) : Nat := leNat ((bs.drop 4).take 2)
def check (bs : List (BitVec 8)) : Nat := leNat ((bs.drop 6).take 2)
def payload (t : Nat) (bs : List (BitVec 8)) : List (BitVec 8) := (bs.drop 8).take (Tcb.payloadBytes t)
def state (t : Nat) (bs : List (BitVec 8)) : List (BitVec 8) := (bs.drop (Tcb.stateAt t)).take (Tcb.stateBytes t)

/-- The row passes its check (R35). -/
def sound (t : Nat) (bs : List (BitVec 8)) : Bool := crc (bs.take 6 ++ payload t bs) == check bs

/-- The used bytes of a slot from its parts. -/
def build (t scale offset version : Nat) (payload state : List (BitVec 8)) : List (BitVec 8) :=
  let head := leBytes 2 scale ++ leBytes 2 offset ++ leBytes 2 version
  head ++ leBytes 2 (crc (head ++ payload)) ++ payload ++ List.replicate (Tcb.stateAt t - (8 + payload.length)) 0 ++ state

/-- The signed codes of a payload. -/
def codes (t : Nat) (bs : List (BitVec 8)) : List Int :=
  if Tcb.payload t = 0 then (payload t bs).map fun b => toSigned 8 b.toNat
  else (payload t bs).flatMap fun b => [toSigned 4 (b.toNat % 16), toSigned 4 (b.toNat / 16)]

/-- Codes packed into a payload. -/
def packNibbles : List Int → List (BitVec 8)
  | a :: b :: rest => BitVec.ofNat 8 (ofSigned 4 a + 16 * ofSigned 4 b) :: packNibbles rest
  | _ => []

def packCodes (t : Nat) (qs : List Int) : List (BitVec 8) :=
  if Tcb.payload t = 0 then qs.map fun q => BitVec.ofNat 8 (ofSigned 8 q) else packNibbles qs

def half (x : Nat) : Nat := (fconv fp16 fp32 x).1

/-- The dequantised elements, as fp32 patterns (R37). -/
def values (t : Nat) (bs : List (BitVec 8)) : List Nat :=
  (codes t bs).map fun q => (ffma fp32 (half (scale bs)) (fofInt fp32 q).1 (half (offset bs))).1

/-! ### Stochastic rounding (R39) -/

/-- One shift of the LFSR. -/
def shift (x : Nat) : Nat := if flag x 0 then (x / 2) ^^^ 0x80200003 else x / 2

/-- A draw: sixteen shifts. -/
def draw (x : Nat) : Nat := (List.range 16).foldl (fun x _ => shift x) x

/-- A state loaded as zero is replaced. -/
def seed (x : Nat) : Nat := if x = 0 then 1 else x

/-- `n` draws. -/
def draws (x : Nat) : Nat → Nat
  | 0 => x
  | n + 1 => draws (draw x) n

/-- `sround` of a finite value with one draw. -/
def sround (x u : Nat) : Int :=
  match fdecode fp32 x with
  | .fin neg m e =>
    let lo := floorInt neg m e
    let t := floorInt neg m (e + 16) - 65536 * lo
    if (u : Int) < t then lo + 1 else lo
  | _ => 0

/-! ### Requantising (R38) -/

/-- fp16 by RNE, saturating for a value that would overflow. -/
def toHalf (x : Nat) : Nat :=
  let r := (fconv fp32 fp16 x).1
  if isFinite fp16 r || isNan fp32 x then r else Fmt.maxFinite fp16 (flag x 31)

/-- Least and greatest finite value; both 0 when there is none. DESIGN CHOICE (log entry 90): -0.0 lies below +0.0, of which R38 says
nothing. -/
def bounds (vs : List Nat) : Nat × Nat :=
  match vs.filter (isFinite fp32) with
  | [] => (0, 0)
  | v :: rest => (rest.foldl (fmin fp32) v, rest.foldl (fmax fp32) v)

/-- A row requantised: scale, offset, codes. Each element takes one draw. -/
def requant (t : Nat) (vs : List Nat) (lfsr : Nat) : Nat × Nat × List Int :=
  let (q, c) : Nat × Nat := if Tcb.payload t = 0 then (255, 128) else (15, 8)
  let (lo, hi) := bounds vs
  let s := toHalf (fdiv fp32 (fsub fp32 hi lo).1 (fofInt fp32 q).1)
  let flat := feq fp16 s 0
  let o := if flat then toHalf lo else toHalf (fadd fp32 lo (fmul fp32 (fofInt fp32 c).1 (half s)).1).1
  let code := fun (v u : Nat) =>
    match fdecode fp32 v with
    | .nan => (0 : Int)
    | .inf neg => if neg then -(c : Int) else (c : Int) - 1
    | .fin _ _ _ =>
      if flat then 0
      else max (-(c : Int)) (min ((c : Int) - 1) (sround (fdiv fp32 (fsub fp32 v (half o)).1 (half s)) u))
  (s, o, vs.mapIdx fun i v => code v (draws lfsr (i + 1) % 65536))

/-- Some element is not finite. -/
def nonFinite (vs : List Nat) : Bool := vs.any fun v => !isFinite fp32 v

/-! ### Optimisers (R177) -/

/-- fp16 state: finite values saturate, others stay as they are. -/
def stateHalf (x : Nat) : Nat := if isFinite fp32 x then toHalf x else (fconv fp32 fp16 x).1

/-- The fp16 state values of a row. -/
def halves : List (BitVec 8) → List Nat
  | a :: b :: rest => leNat [a, b] :: halves rest
  | _ => []

def fma (a b c : Nat) : Nat := (ffma fp32 a b c).1

/-- Weights and optimiser state after one step (R177, steps 2 and 3). -/
def optimise (op t : Nat) (ws gs : List Nat) (st : List (BitVec 8)) : List Nat × List (BitVec 8) :=
  let gs := if feq fp32 (UpdateOp.decay op) 0 then gs else (ws.zip gs).map fun p => fma (UpdateOp.decay op) p.1 p.2
  let lr := UpdateOp.lr op
  let step := fun (k : Nat) (w g : Nat) => fma (fneg fp32 k) g w
  match UpdateOp.optimiser op with
  | 0 => ((ws.zip gs).map fun p => step lr p.1 p.2, st)
  | 1 =>
    let ms := (gs.zip (halves st)).map fun p => fma (UpdateOp.mu op) (half p.2) p.1
    ((ws.zip ms).map fun p => step lr p.1 p.2, ms.flatMap fun m => leBytes 2 (stateHalf m))
  | 2 =>
    let ssq := gs.foldl (fun a g => fma g g a) 0
    let a := (fadd fp32 (leNat st) (fdiv fp32 ssq (fofInt fp32 (Tcb.dim t)).1)).1
    let r := fdiv fp32 lr (fadd fp32 (fsqrt fp32 a) (UpdateOp.eps op)).1
    ((ws.zip gs).map fun p => step r p.1 p.2, leBytes 4 a)
  | _ =>
    let as := (gs.zip (halves st)).map fun p => fma p.1 p.1 (half p.2)
    let ts := (gs.zip as).map fun p => fdiv fp32 p.1 (fadd fp32 (fsqrt fp32 p.2) (UpdateOp.eps op)).1
    ((ws.zip ts).map fun p => step lr p.1 p.2, as.flatMap fun a => leBytes 2 (stateHalf a))

/-- A row's used bytes after an update, and whether an element was not finite (R177, R178). -/
def update (op t : Nat) (old : List (BitVec 8)) (gs : List Nat) (lfsr : Nat) : List (BitVec 8) × Bool :=
  let (ws, st) := optimise op t (values t old) gs (state t old)
  let (s, o, qs) := requant t ws lfsr
  (build t s o ((version old + 1) % 65536) (packCodes t qs) st, nonFinite ws)

end Row

end Sys2Proof.Machine
end

