-- ==== Sys2Proof/Machine/Lookup.lean ====
section
/-! DEFINITION. Table lookup (07_weevils_lookup.md): GATHER_POOL from its dispatch to its report, and what the row updates of
Machine/Update.lean share with it: leads and owners, row slots, parts and causes. -/

namespace Sys2Proof.Machine

open Host (Outcome)

/-- A failure of a computation handed back with its status; a stall or a hold still puts the whole step off. Poison it
consumed is counted by the part, item or op that fails for it. -/
def attempt {α : Type} (m : M α) : M (Except Nat α) := fun s =>
  match m s with
  | .ok a t => .ok (.ok a) t
  | .error (.fail st _) t => .ok (.error st) t
  | .error e t => .error e t

/-! ### Weevils (R147) -/

/-- The owner of a row at a device address, for the lead of its table. -/
def ownerAt (lead a : Nat) : Nat :=
  match placeOf a with
  | .bulk g => g
  | .cover n => 24 + n / 16
  | .coverDevice => 31
  | _ => lead

/-- The status that stands highest in R165; a write that found no swap slot comes before them, for it fails the op (R326), and those R165
does not list come last. -/
def topCause (l : List Nat) : Nat :=
  let order := [Status.internal, Status.descriptorInvalid, Status.poisonConsumed, Status.faultTranslation, Status.faultPermission,
    Status.fabricUnreachable, Status.fabricPeerFault, Status.silentError]
  match order.find? l.contains with
  | some c => c
  | none => l.headD Status.ok

/-- A TCB as the Spine reads it at dispatch, with its lead. Its own translation must land in the bulk tier: what R113 or R168
says of the frame otherwise does not come to bear (R151). -/
def readTcb (r : Req) (va : Nat) : M (Nat × Nat) := do
  admitted r va
  let x ← findLeaf r va .read
  let e := x.1
  let inBulk := match placeOf (entryFrame e va) with
    | .bulk _ => true
    | _ => false
  if !Pte.poison e.leaf && (Pte.target e.leaf != 0 || !inBulk) then failWith Status.descriptorInvalid
  match ← checked r va .read x with
  | .device a =>
    match placeOf a with
    | .bulk g =>
      let t ← readNum r va 128
      if !Tcb.ok t then failWith Status.descriptorInvalid
      return (t, g)
    | _ => failWith Status.descriptorInvalid
  | .poison => failWith Status.poisonConsumed
  | _ => failWith Status.descriptorInvalid

/-- The TCBs of a table list, in order. -/
def readTcbs (r : Req) : List Nat → M (List (Nat × Nat))
  | [] => return []
  | e :: es => do
    let t ← readTcb r (TableEntry.tcb e)
    let ts ← readTcbs r es
    return t :: ts

/-- U32 values at a list of addresses. -/
def readWords (r : Req) : List Nat → M (List Nat)
  | [] => return []
  | a :: as => do
    let v ← readNum r a 4
    let vs ← readWords r as
    return v :: vs

/-- Values that do not decrease. -/
def rising : List Nat → Bool
  | a :: b :: rest => decide (a ≤ b) && rising (b :: rest)
  | _ => true

/-- First and last byte of `n` bytes; none where there are none. -/
def spanOf (a n : Nat) : List (Nat × Nat) := if n = 0 then [] else [(a, a + n - 1)]

/-- Two lists of spans have a byte in common. -/
def spansOverlap (xs ys : List (Nat × Nat)) : Bool := xs.any fun x => ys.any (spansMeet x)

/-- Bytes of a mask of `n` bits (R166, R181). -/
def maskBytes (n : Nat) : Nat := ceilDiv n 64 * 8

/-- The mask whose bit `i` is `p i`. -/
def maskFrom (n : Nat) (p : Nat → Bool) : List (BitVec 8) :=
  (List.range (maskBytes n)).map fun b => BitVec.ofNat 8 ((List.range 8).foldl (fun v j =>
    if decide (8 * b + j < n) && p (8 * b + j) then v + 2 ^ j else v) 0)

/-! ### Dispatch (R152 to R157) -/

/-- Output rows that table `t` writes: bags, or positions in plain gather (R156). -/
def gatherRows (w : Nat) (offs : List Nat) (t : Nat) : Nat :=
  if GatherOp.pool w = 0 then offs.getD (t + 1) 0 - offs.getD t 0 else GatherOp.batch w

/-- Bytes of an output vector. -/
def gatherWidth (w tcb : Nat) : Nat := Tcb.dim tcb * (if GatherOp.outFp32 w then 4 else 2)

/-- Output vectors of the op (R156). -/
def gatherVectors (w : Nat) (offs : List Nat) : Nat :=
  if GatherOp.pool w = 0 then offs.getD (GatherOp.tableCount w) 0 else GatherOp.tableCount w * GatherOp.batch w

/-- The output span: from `out` to the last byte the op writes (R157). -/
def gatherSpan (w : Nat) (lists tcbs offs : List Nat) : List (Nat × Nat) :=
  let ends := (List.range (GatherOp.tableCount w)).map fun t =>
    let n := gatherRows w offs t
    if n = 0 then 0 else (n - 1) * GatherOp.outStride w + TableEntry.colOff (lists.getD t 0) + gatherWidth w (tcbs.getD t 0)
  spanOf (GatherOp.out w) (ends.foldl max 0)

/-- The spans of the op's inputs (R157). -/
def gatherInputs (w b : Nat) (lists offs : List Nat) : List (Nat × Nat) :=
  let n := offs.getD (GatherOp.tableCount w) 0
  spanOf (GatherIn.idx b) (n * if GatherOp.idxWide w then 8 else 4) ++
    spanOf (GatherIn.offsets b) (4 * (GatherOp.tableCount w * GatherOp.batch w + 1)) ++
    (if GatherOp.pool w = 4 then spanOf (GatherIn.weights b) (4 * n) else []) ++
    spanOf (GatherOp.tables w) (16 * GatherOp.tableCount w) ++ spanOf (GatherOp.inputs w) 64 ++
    lists.flatMap fun e => spanOf (TableEntry.tcb e) 128

/-- The spans of mask and report. -/
def gatherSides (w b : Nat) (offs : List Nat) : List (Nat × Nat) :=
  (if GatherIn.validMask b = 0 then [] else spanOf (GatherIn.validMask b) (maskBytes (gatherVectors w offs))) ++
    (if GatherIn.report b = 0 then [] else spanOf (GatherIn.report b) 64)

/-- The checks of R157 on what has been read. -/
def gatherOk (w b : Nat) (lists tcbs offs : List Nat) : Bool :=
  let out := gatherSpan w lists tcbs offs
  let ins := gatherInputs w b lists offs
  (List.range (GatherOp.tableCount w)).all (fun t =>
    decide (TableEntry.colOff (lists.getD t 0) + gatherWidth w (tcbs.getD t 0) ≤ GatherOp.outStride w)) &&
  offs.headD 1 == 0 && rising offs && !spansOverlap out ins && !spansOverlap (gatherSides w b offs) (out ++ ins)

/-- The slices of an op over tables: one per table-list entry, on the lead of its TCB. -/
def tableSlices (leads : List Nat) : List Slice :=
  leads.mapIdx fun t g => { unit := 3, place := some g, lo := t, hi := t + 1, phase := .queued, work := .table {} }

/-- What the Spine reads and checks of a GATHER_POOL. -/
def readGather (x : Op) (r : Req) : M Op := do
  let w := x.word
  if !GatherOp.ok w then failWith Status.descriptorInvalid
  let b ← readNum r (GatherOp.inputs w) 64
  if !GatherIn.ok b (GatherOp.pool w) (GatherOp.idxWide w) then failWith Status.descriptorInvalid
  let bs ← readVA r (GatherOp.tables w) (16 * GatherOp.tableCount w)
  let lists := State.words16 (GatherOp.tableCount w) bs
  if !lists.all TableEntry.ok then failWith Status.descriptorInvalid
  let ts ← readTcbs r lists
  let offs ← readWords r ((List.range (GatherOp.tableCount w + 1)).map fun t =>
    GatherIn.offsets b + 4 * (t * GatherOp.batch w))
  let tcbs := ts.map (·.1)
  if !gatherOk w b lists tcbs offs then failWith Status.descriptorInvalid
  return { x with copies := [b], body := .tables lists tcbs offs, slices := tableSlices (ts.map (·.2)) }

/-! ### Intake and segments (R155, R158 to R163) -/

/-- A position taken in: its place in the index array, its bag, its row, its weight. -/
structure Pos where
  i : Nat
  bag : Nat
  row : Nat
  w : Nat := 0
deriving DecidableEq, Repr

/-- A number read by a lead; a failure or poison is a cause (R165). -/
def takeNum (r : Req) (va n : Nat) : M (Except Nat Nat) := do
  match ← attempt (readMarked r va n) with
  | .error st => return .error st
  | .ok (bs, marks) => return if marks.any id then .error Status.poisonConsumed else .ok (leNat bs)

/-- Numbers at a list of addresses, with the causes met. -/
def takeNums (r : Req) (n : Nat) : List Nat → M (List (Except Nat Nat))
  | [] => return []
  | a :: as => do
    let v ← takeNum r a n
    let vs ← takeNums r n as
    return v :: vs

/-- The causes in a list of results. -/
def causesOf (l : List (Except Nat Nat)) : List Nat := l.filterMap fun x => match x with
  | .error st => some st
  | .ok _ => none

def valuesOf (l : List (Except Nat Nat)) : List Nat := l.filterMap fun x => match x with
  | .ok v => some v
  | .error _ => none

/-- The bag of a position, from the inner offsets of its table. -/
def bagOf (inner : List Nat) (i : Nat) : Nat := (inner.filter fun o => decide (o ≤ i)).length

/-- The open segment closed: its rows join the plan (R159, R176). -/
def closeSeg (t : TableWork) : TableWork :=
  { t with
    segments := t.segments + 1, entries := 0, openRows := []
    plan := t.plan ++ t.openRows.map fun e => { seg := t.segments, row := e.1, uses := e.2.1, grad := e.2.2 } }

/-- Intake at its end: an open segment closes. -/
def endIntake (t : TableWork) : TableWork := { (if t.openRows.isEmpty then t else closeSeg t) with closed := true }

/-- The uses of a row with one position more (R159); none when the position needs a new entry. The count of an entry stays
below 2^32, because no op has that many positions (R155). -/
def joinEntry (pool : Nat) (uses : Option (List (Nat × Nat))) (p : Pos) : Option (List (Nat × Nat)) :=
  match pool, uses with
  | 0, some us => some (us ++ [(p.i, 0)])
  | 0, none => none
  | 4, _ => none
  | _, some us =>
    if us.any fun u => u.1 == p.bag then some (us.map fun u => if u.1 = p.bag then (u.1, u.2 + 1) else u) else none
  | _, none => none

/-- The entry that a position opens. -/
def newEntry (pool : Nat) (p : Pos) : Nat × Nat :=
  match pool with
  | 0 => (p.i, 0)
  | 4 => (p.bag, p.w)
  | _ => (p.bag, 1)

/-- One position added (R159); L_b of R161 counts it. -/
def addPos (pool : Nat) (t : TableWork) (p : Pos) : TableWork :=
  let t := { t with lens := AMap.update 0 t.lens p.bag (· + 1) }
  match joinEntry pool ((AMap.get? t.openRows p.row).map (·.1)) p with
  | some us => { t with openRows := AMap.set t.openRows p.row (us, []) }
  | none =>
    let t := if t.entries = 65536 then closeSeg t else t
    { t with
      entries := t.entries + 1
      openRows := AMap.set t.openRows p.row ((AMap.getD t.openRows p.row ([], [])).1 ++ [newEntry pool p], []) }

/-- Position `i` taken in with the index and the weight read for it: a failed read is a cause, and an index out of range is one,
or is skipped, whatever its weight (R155, R163, R165). -/
def takePos (pool rows : Nat) (skip : Bool) (t : TableWork) (i : Nat) (ix w : Except Nat Nat) : TableWork :=
  let t := { t with taken := t.taken + 1 }
  let t := match w with
    | .error st => { t with causes := t.causes ++ [st] }
    | .ok _ => t
  match ix with
  | .error st => { t with causes := t.causes ++ [st] }
  | .ok row =>
    if row < rows then
      match w with
      | .ok w => addPos pool t ⟨i, bagOf t.inner i, row, w⟩
      | .error _ => t
    else
      { t with
        skipped := t.skipped ++ [i]
        causes := if skip then t.causes else t.causes ++ [Status.descriptorInvalid] }

/-- The causes among the inner offsets of a table, and the ones read kept (R155, R165). -/
def takeInner (t : TableWork) (lo hi : Nat) (inner : List (Except Nat Nat)) : TableWork :=
  let known := valuesOf inner
  let order := if rising (lo :: known ++ [hi]) then [] else [Status.descriptorInvalid]
  { t with begun := true, inner := known, causes := t.causes ++ causesOf inner ++ order }

/-! ### Pooling (R161, R162) -/

/-- One entry's contribution to its bag's accumulator; none before the first. -/
def poolStep (pool w : Nat) (acc : Option (List Nat)) (v : List Nat) : List Nat :=
  let old := acc.getD (List.replicate v.length 0)
  match pool with
  | 3 =>
    match acc with
    | none => v
    | some a => (a.zip v).map fun p => fmax fp32 p.1 p.2
  | 4 => (old.zip v).map fun p => (ffma fp32 w p.2 p.1).1
  | _ => (old.zip v).map fun p => (fadd fp32 p.1 (fmul fp32 (fofInt fp32 w).1 p.2).1).1

/-- The reciprocal of a count, rounded once. -/
def reciprocal (n : Nat) : Nat :=
  let k := 28 + Nat.log2 n
  (fround fp32 false (2 * (2 ^ k / n) + b2n (2 ^ k % n != 0)) (-(k : Int) - 1)).1

/-- The accumulator of a bag after a list of (weight or count, row values) contributions. -/
def poolBag (pool dim n : Nat) (l : List (Nat × List Nat)) : List Nat :=
  let acc := (l.foldl (fun a x => some (poolStep pool x.1 a x.2)) (none : Option (List Nat))).getD (List.replicate dim 0)
  if pool = 2 ∧ n ≠ 0 then acc.map fun a => (fmul fp32 a (reciprocal n)).1 else acc

/-- An output vector from fp32 values. -/
def vectorBytes (wide : Bool) (vs : List Nat) : List (BitVec 8) :=
  vs.flatMap fun v => if wide then leBytes 4 v else leBytes 2 (fconv fp32 bf16 v).1

/-- The contributions to a bag, in the order of R161. -/
def bagParts (t : TableWork) (bag : Nat) : List (Nat × List Nat) :=
  (t.plan.zipIdx).flatMap fun e => (e.1.uses.filter fun u => u.1 == bag).map fun u => (u.2, AMap.getD t.rows e.2 [])

/-- The values of the row that a position names, in plain gather (R162). -/
def plainValue (t : TableWork) (i : Nat) : Option (List Nat) :=
  ((t.plan.zipIdx).find? fun e => e.1.uses.any fun u => u.1 == i).map fun e => AMap.getD t.rows e.2 []

namespace State

/-! ### Slices of tables -/

/-- The requester that lead `g` is for slice `k` (R217: kind 1). -/
def leadReq (s : State) (g : Nat) (o : OpRef) (k : Nat) : Req :=
  let x := s.ctx o.ctx
  { who := .op o k, ctx := o.ctx, cls := x.cls, part := x.partition, root := x.root, kind := 1, id := g,
    cluster := none, targets := 31, mayStall := true, fabric := false }

/-- The requester of row `n` of its plan: device memory and the far window only (R165). -/
def rowReq (s : State) (g : Nat) (o : OpRef) (k n : Nat) : Req :=
  { s.leadReq g o k with who := .row o k n, targets := 9 }

/-- The slice that a lead works on. -/
def leadHead (s : State) (g : Nat) : Option SliceRef := (AMap.getD s.weevils.queues g []).head?

/-- A slice of a table op put in its lead's queue. -/
def queueAtLead (s : State) (o : OpRef) (k g : Nat) : State :=
  let q := AMap.set s.weevils.queues g (AMap.getD s.weevils.queues g [] ++ [⟨o, k⟩])
  { s with weevils := { s.weevils with queues := q } }

def leaveLead (s : State) (o : OpRef) (k g : Nat) : State :=
  let q := AMap.set s.weevils.queues g ((AMap.getD s.weevils.queues g []).filter fun q => q != ⟨o, k⟩)
  { s with weevils := { s.weevils with queues := q } }

/-- Every slice of an op just dispatched is queued at its lead. -/
def queueSlices (s : State) (o : OpRef) : State :=
  match s.op? o with
  | none => s
  | some x => (x.slices.zipIdx).foldl (fun t e => t.queueAtLead o e.2 (e.1.place.getD 0)) s

/-- The work of slice `k`, while its op is dispatched with an opcode and it is at the head of its lead's queue. -/
def tableWork? (s : State) (o : OpRef) (code k : Nat) : Option (Op × Slice × TableWork × Nat) :=
  match s.op? o, s.slice? o k with
  | some x, some y =>
    let g := y.place.getD 0
    if s.running && x.phase == .dispatched && OpHdr.opcode x.word == code && s.leadHead g == some ⟨o, k⟩ then
      match y.work with
      | .table t => some (x, y, t, g)
      | _ => none
    else none
  | _, _ => none

def setWork (s : State) (o : OpRef) (k : Nat) (t : TableWork) : State := s.modSlice o k fun y => { y with work := .table t }

/-- The part of one context for attention. -/
def partsOf (s : State) (o : OpRef) : Nat := 2 ^ (s.ctx o.ctx).partition

/-- A detected error that has a unit of work redone (R180, R338, R345). -/
def countRedo (s : State) (g : Nat) : State := s.addObj 0x6040 g 1

/-- The op and its copies: the input block, table entry and TCB of slice `t`, the boundary offsets. -/
def tablesOf (x : Op) : List Nat × List Nat × List Nat :=
  match x.body with
  | .tables a b c => (a, b, c)
  | _ => ([], [], [])

/-! ### The Hive on the lookup path (R168 to R170) -/

/-- The valid entry of a row. -/
def hiveEntry (s : State) (table row : Nat) : Option (Nat × HiveEntry) :=
  s.weevils.hive.find? fun e => e.2.valid && e.2.table == table && e.2.row == row

/-- The device address of a replica. -/
def replicaAddr (s : State) (c slot : Nat) : Nat := (s.hiveRange c).1 + slot * 32

/-- The cluster whose store holds every output byte (R170). -/
def nearCluster (s : State) (r : Req) (span : List (Nat × Nat)) : Option Nat :=
  match span with
  | [x] =>
    match s.walk r.root x.1 with
    | .leaf e l _ =>
      match placeOf (leafFrame e l x.1) with
      | .store c _ => if s.spanInStore r c .write x then some c else none
      | _ => none
    | _ => none
  | _ => none

/-- Resolution of a plan against the directory. -/
def resolve (s : State) (tcb : Nat) (plan : List RowFetch) : List RowFetch :=
  plan.map fun p => { p with hive := (s.hiveEntry (Tcb.tableId tcb) p.row).map (·.1) }

end State

/-- Positions `lo + taken` on of a GATHER_POOL slice taken in, in order, until a segment closes or none is left (R158): at most
`fuel` of them. -/
def takeSegment (r : Req) (w b tcb lo hi : Nat) : Nat → TableWork → M TableWork
  | 0, t => return t
  | fuel + 1, t => do
    let i := lo + t.taken
    if hi ≤ i then return endIntake t
    let wide := if GatherOp.idxWide w then 8 else 4
    let ix ← takeNum r (GatherIn.idx b + wide * i) wide
    let wt ← if GatherOp.pool w = 4 then takeNum r (GatherIn.weights b + 4 * i) 4 else pure (.ok 0)
    let u := takePos (GatherOp.pool w) (Tcb.rowCount tcb) (GatherOp.badIndex w) t i ix wt
    if t.segments < u.segments then return u else takeSegment r w b tcb lo hi fuel u

/-- Intake of the next segment of table `k` of a GATHER_POOL; the first one reads the inner offsets too (R155, R158). -/
def gatherIntake (r : Req) (w b tcb : Nat) (offs : List Nat) (k : Nat) (t : TableWork) : M TableWork := do
  let lo := offs.getD k 0
  let hi := offs.getD (k + 1) 0
  let t ← if t.begun then pure t else do
    let inner ← if GatherOp.pool w = 0 then pure [] else
      takeNums r 4 ((List.range (GatherOp.batch w - 1)).map fun j => GatherIn.offsets b + 4 * (k * GatherOp.batch w + j + 1))
    pure (takeInner t lo hi inner)
  takeSegment r w b tcb lo hi (hi - lo + 1) t

namespace State

/-- The segments of a GATHER_POOL slice that have closed since `old`, resolved against the Hive where R158 and R170 say so: each
as its intake ends, so that a row admitted later is fetched at home by them, and from its replica by the next (R164). -/
def resolveNew (s : State) (r : Req) (x : Op) (k : Nat) (old t : TableWork) : TableWork :=
  let (lists, tcbs, offs) := tablesOf x
  let tcb := tcbs.getD k 0
  match if s.obj 0x6110 1 = 1 ∧ GatherOp.noHive x.word = false ∧ Tcb.hive tcb = true then
    s.nearCluster r (gatherSpan x.word lists tcbs offs) else none with
  | none => t
  | some c =>
    { t with near := some c, plan := t.plan.take old.plan.length ++ s.resolve tcb (t.plan.drop old.plan.length) }

/-- The stalls of a slice's rows and its places in the update queues dropped: an access not begun is not made (R181, R338). -/
def dropRows (s : State) (o : OpRef) (k : Nat) : State :=
  let mine := fun (w : Who) => match w with
    | .row p j _ => p == o && j == k
    | _ => false
  { s with trans := { s.trans with
    stalls := s.trans.stalls.filter fun x => !mine x.req.who
    walks := s.trans.walks.filter fun x => !mine x.req.who } }

/-- The redo of a slice or of its intake after a detected error, at most once (R180, R338). -/
def redoWork (s : State) (o : OpRef) (k g : Nat) (t : TableWork) : State :=
  if t.redone then s.setWork o k { t with causes := t.causes ++ [Status.silentError] }
  else ((s.dropRows o k).setWork o k { redone := true }).countRedo g

/-- Counts of an intake (R163, R171). -/
def countIntake (s : State) (o : OpRef) (g positions segments skipped : Nat) : State :=
  ((s.addObj 0x6025 g positions).addObj 0x6024 g segments).addObj 0x6022 (s.ctx o.ctx).partition skipped

/-- Counts of what an intake has added to a slice's work (R163, R171). -/
def countTaken (s : State) (o : OpRef) (g : Nat) (old t : TableWork) : State :=
  s.countIntake o g (t.taken - old.taken) (t.segments - old.segments) (t.skipped.length - old.skipped.length)

/-- The intake of the next segment of a GATHER_POOL slice at the head of its lead's queue (stages 1 to 3 of R158), which may
come while the segments before it are fetched. `errors` is how often an error is detected in it: the first has the slice
redone from its intake, a further one stays (R338). -/
def startGather (s : State) (o : OpRef) (k errors : Nat) : State :=
  match s.tableWork? o 0x03 k with
  | none => s
  | some (x, y, t, g) =>
    if t.closed || y.phase == .ended || y.phase == .reported then s
    else
      let (_, tcbs, offs) := tablesOf x
      let r := s.leadReq g o k
      let again := decide (errors ≠ 0) && !t.redone
      let t0 : TableWork := if again then { redone := true } else t
      s.runM (gatherIntake r x.word (x.copies.getD 0 0) (tcbs.getD y.lo 0) offs y.lo t0)
        (fun t1 u =>
          let u := if again then (u.dropRows o k).countRedo g else u
          let t1 := if b2n again < errors then { t1 with causes := t1.causes ++ [Status.silentError] } else t1
          ((u.countTaken o g t0 t1).modSlice o k fun z => { z with phase := .running }).setWork o k
            (u.resolveNew r x y.lo t0 t1))
        (fun _ _ u => u)

/-! ### Row fetches (R158 stage 4 and 5, R164) -/

/-- The next row of a plan: the first that is neither done nor waiting for a translation (R158). -/
def nextRow (s : State) (o : OpRef) (k : Nat) (t : TableWork) : Option (Nat × RowFetch) :=
  ((t.plan.zipIdx).find? fun e =>
    (AMap.get? t.rows e.2).isNone && !(s.trans.stalls.any fun x => x.req.who == .row o k e.2) &&
      !(s.trans.walks.any fun x => x.req.who == .row o k e.2)).map fun e => (e.2, e.1)

/-- Intake is over and every row of the plan is done. -/
def planDone (t : TableWork) : Bool := t.closed && (List.range t.plan.length).all fun i => (AMap.get? t.rows i).isSome

/-- A row that failed its check: counted and reported (R35, R171). -/
def checkFailed (s : State) (o : OpRef) (g a : Nat) : State := s.countRaise 1 2 (s.partsOf o) 0x6023 g a

end State

/-- The device address of a row's home. -/
def rowHome (r : Req) (va : Nat) (acc : AccKind) : M Nat := do
  match ← translate r va acc with
  | .device a => return a
  | .poison => failWith Status.poisonConsumed
  | _ => failWith Status.faultPermission

/-- The bytes in use of a row's slot with the device address of its owner's access, read under the row lock; whether a
poisoned atom was read. -/
def readRow (r : Req) (tcb row : Nat) (replica : Option Nat) : M (Nat × List (BitVec 8) × Bool) := do
  match replica with
  | some a =>
    let s ← get
    if s.tierStarting a then throw .hold
    set (s.readEffects a (Tcb.used tcb))
    return (a, s.readBytes a (Tcb.used tcb), s.anyPoison a (Tcb.used tcb))
  | none => do
    let a ← rowHome r (Tcb.rowAddr tcb row) .read
    modify fun s => s.noteUse r (Tcb.rowAddr tcb row) (Tcb.used tcb) false
    let (bs, bad) ← readDevice r a (Tcb.used tcb)
    let s ← get
    return (s.forwarded a, bs, bad.any id)

namespace State

/-- A row of the plan done: its values, or a cause. -/
def rowDone (s : State) (o : OpRef) (k n : Nat) (vals : List Nat) (cause : Option Nat) (near : Nat) (made : Bool) : State :=
  s.modSlice o k fun y => match y.work with
    | .table t => { y with work := .table { t with
        rows := AMap.set t.rows n vals, causes := t.causes ++ cause.toList, fetched := t.fetched + b2n made, mirrors := t.mirrors + near } }
    | _ => y

/-- ROW_FETCH: the next row of a GATHER_POOL slice, from its replica where it was resolved to one (R164, R170). -/
def fetchRow (s : State) (o : OpRef) (k : Nat) : State :=
  match s.tableWork? o 0x03 k with
  | none => s
  | some (x, y, t, g) =>
    match s.nextRow o k t with
    | none => s
    | some (n, p) =>
      if !t.begun then s
      else
        let tcb := (tablesOf x).2.1.getD y.lo 0
        let hit := (p.hive.bind fun e => AMap.get? s.weevils.hive e).bind fun e => t.near.map fun c => s.replicaAddr c e.slot
        s.runM (readRow (s.rowReq g o k n) tcb p.row hit)
          (fun v u =>
            let w := ownerAt g v.1
            let u := ((u.addObj 0x6020 w 1).addObj 0x6021 w (b2n hit.isSome)).countShard v.1
            if v.2.2 then u.rowDone o k n [] (some Status.poisonConsumed) (b2n hit.isSome) true
            else if Row.sound tcb v.2.1 then u.rowDone o k n (Row.values tcb v.2.1) none (b2n hit.isSome) true
            else (u.checkFailed o w v.1).rowDone o k n [] (some Status.poisonConsumed) (b2n hit.isSome) true)
          (fun st _ u => u.rowDone o k n [] (some st) 0 false)

end State

/-! ### Delivery (R156, R158 stage 7) -/

/-- The vectors of table `t`: address and values, or zeros for a position skipped (R163). -/
def gatherOutputs (x : Op) (t : TableWork) (k : Nat) : List (Nat × List (BitVec 8)) :=
  let w := x.word
  let (lists, tcbs, offs) := State.tablesOf x
  let tcb := tcbs.getD k 0
  let at_ := fun i => GatherOp.out w + i * GatherOp.outStride w + TableEntry.colOff (lists.getD k 0)
  (List.range (gatherRows w offs k)).map fun i =>
    (at_ i, vectorBytes (GatherOp.outFp32 w) (
      if GatherOp.pool w = 0 then (plainValue t (offs.getD k 0 + i)).getD (List.replicate (Tcb.dim tcb) 0)
      else poolBag (GatherOp.pool w) (Tcb.dim tcb) (AMap.getD t.lens i 0) (bagParts t i)))

/-- Writes of a list of vectors; the causes met. -/
def writeVectors (r : Req) : List (Nat × List (BitVec 8)) → M (List Nat)
  | [] => return []
  | (a, bs) :: rest => do
    let x ← attempt (writeVA r a bs)
    let more ← writeVectors r rest
    return (match x with
      | .error st => [st]
      | .ok _ => []) ++ more

/-! ### Parts, mask and report (R165 to R167) -/

/-- The status of part `p`: that of its lowest-numbered failing slice. -/
def partStatus (lists : List Nat) (slices : List Slice) (p : Nat) : Nat :=
  (((lists.zip slices).find? fun e => TableEntry.part e.1 == p && Status.failed e.2.status).map (·.2.status)).getD Status.ok

/-- The parts a table list names. -/
def partsNamed (lists : List Nat) : List Nat := (List.range 16).filter fun p => lists.any fun e => TableEntry.part e == p

/-- Statuses of the sixteen parts. -/
def partStatuses (lists : List Nat) (slices : List Slice) : List Nat := (List.range 16).map (partStatus lists slices)

/-- The completion of an op with parts (R165): status, result word bits [31:16], bitmap. -/
def partsEnd (named stats : List Nat) : Nat × Nat × Nat :=
  let bad := named.filter fun p => Status.failed (stats.getD p 0)
  let map := bad.foldl (fun m p => m + 2 ^ p) 0
  match bad with
  | [] => (Status.ok, 0, 0)
  | p :: _ => (if bad.length = named.length then stats.getD p 0 else Status.partly, stats.getD p 0, map)

def workOf (y : Slice) : TableWork := match y.work with
  | .table t => t
  | _ => {}

/-- The report of R167 and R181. -/
def tableReport (stats : List Nat) (slices : List Slice) : List (BitVec 8) :=
  let sum := fun (f : TableWork → Nat) => min (slices.foldl (fun n y => n + f (workOf y)) 0) (2 ^ 32 - 1)
  stats.flatMap (leBytes 2) ++ leBytes 4 (sum (·.fetched)) ++ leBytes 4 (sum (·.mirrors)) ++
    leBytes 4 (sum (·.skipped.length)) ++ leBytes 4 (sum (·.segments)) ++ List.replicate 16 0

/-- Output vector `v` is valid (R166). -/
def vectorValid (x : Op) (stats : List Nat) (v : Nat) : Bool :=
  let (lists, _, offs) := State.tablesOf x
  let t := if GatherOp.pool x.word = 0 then
      ((List.range (GatherOp.tableCount x.word)).find? fun t => decide (v < offs.getD (t + 1) 0)).getD 0
    else v / GatherOp.batch x.word
  !Status.failed (stats.getD (TableEntry.part (lists.getD t 0)) 0) &&
    (GatherOp.pool x.word != 0 || !((x.slices[t]?).map workOf).any fun k => k.skipped.contains v)

/-- The zeros of the failed parts; failed writes are dropped (R165). -/
def zeroParts (x : Op) (stats : List Nat) : List (Nat × List (BitVec 8)) :=
  let (lists, tcbs, offs) := State.tablesOf x
  (List.range lists.length).flatMap fun t =>
    if Status.failed (stats.getD (TableEntry.part (lists.getD t 0)) 0) then
      (List.range (gatherRows x.word offs t)).map fun i =>
        (GatherOp.out x.word + i * GatherOp.outStride x.word + TableEntry.colOff (lists.getD t 0),
          List.replicate (gatherWidth x.word (tcbs.getD t 0)) 0)
    else []

/-- Mask and report written, each whatever becomes of the other (R166, R167, R181); the status of a failed write, of the mask
first. -/
def writeSides (mask report : M Unit) : M (Option Nat) := do
  let m ← attempt mask
  let p ← attempt report
  return match m, p with
    | .error st, _ => some st
    | _, .error st => some st
    | _, _ => none

/-- Zeros, which the lead writes as requester 999 of the op (a zero that fails at its peer fails nothing further, R165), then
mask and report, which the Spine writes; the status of a failed write of mask or report. -/
def finishGather (lead r : Req) (x : Op) : M (Option Nat) := do
  let (lists, _, offs) := State.tablesOf x
  let stats := partStatuses lists x.slices
  let b := x.copies.getD 0 0
  let n := gatherVectors x.word offs
  let _ ← writeVectors lead (zeroParts x stats)
  writeSides
    (if GatherIn.validMask b ≠ 0 then writeVA r (GatherIn.validMask b) (maskFrom n (vectorValid x stats)) else pure ())
    (if GatherIn.report b ≠ 0 then writeVA r (GatherIn.report b) (tableReport stats x.slices) else pure ())

namespace State

/-- Poison consumed once per part that failed for it, and a part's end by an unrecovered error counted and reported, the
lowest failed part's with the op where the op ends so itself (R345, R363). -/
def countParts (s : State) (o : OpRef) (stats : List Nat) (status : Nat) : State :=
  let s := (stats.filter (· == Status.poisonConsumed)).foldl (fun t _ => t.consumePoison) s
  ((stats.filter (· == Status.silentError)).drop (b2n (status == Status.silentError))).foldl
    (fun t _ => t.noteUnrecovered o Status.silentError) s

/-- The op over tables settled: its parts give its status, and a failed write of mask or report comes before it. A write that found no
swap slot fails the op with result word bits [7:0] = 0x31 (R326). -/
def settleTables (s : State) (o : OpRef) (fail : Option Nat) : State :=
  match s.op? o with
  | none => s
  | some x =>
    let lists := (tablesOf x).1
    let stats := partStatuses lists x.slices
    let (st, high, map) := partsEnd (partsNamed lists) stats
    let st := if x.slices.any fun y => y.status == Status.internal then Status.internal else fail.getD st
    let s := s.countParts o stats st
    let s := if fail = some Status.poisonConsumed then s.consumePoison else s
    s.modOp o fun z => { z with
      phase := .settled, status := st, low := (if st = Status.internal then 0x31 else 0), high := high, partMap := map,
      slices := z.slices.map fun y => { y with phase := .reported } }

/-- Every slice of a dispatched op has ended. -/
def slicesEnded (x : Op) : Bool := x.phase == .dispatched && x.slices.all fun y => y.phase == .ended

/-- The end of a GATHER_POOL after its last slice, once the outputs sent to peers are acknowledged or refused: the zeros of
failed parts come after every write made to them, mask and report after the last output write (R165, R166). -/
def endGather (s : State) (o : OpRef) : State :=
  match s.op? o with
  | some x =>
    if s.running && slicesEnded x && OpHdr.opcode x.word == 0x03 && !s.unackedOf o then
      let g := ((x.slices.head?).bind (·.place)).getD 0
      s.runM (finishGather (s.leadReq g o 999) (s.spineReq o.ctx (.op o 1000)) x) (fun fail t => t.settleTables o fail) (fun _ _ t => t)
    else s
  | none => s

/-- A table slice ends with a status and leaves its lead. -/
def endTable (s : State) (o : OpRef) (k g status : Nat) : State :=
  ((s.modSlice o k fun y => { y with phase := .ended, status := status }).leaveLead o k g)

/-- The delivery of one slice (R158, R165): a slice that met a cause delivers nothing; a detected error has it redone once
from its intake (R338). -/
def deliver (s : State) (o : OpRef) (k errors : Nat) : State :=
  match s.tableWork? o 0x03 k with
  | none => s
  | some (x, y, t, g) =>
    if y.phase != .running || !t.begun || !planDone t then s
    else if errors ≠ 0 ∧ t.redone = false then s.redoWork o k g t
    else
      let causes := if errors = 0 then t.causes else t.causes ++ [Status.silentError]
      if !causes.isEmpty then s.endTable o k g (topCause causes)
      else
        s.runM (writeVectors (s.leadReq g o k) (gatherOutputs x t y.lo))
          (fun l u =>
            let u := if t.redone then u.notePassed o 0x6040 g else u
            u.endTable o k g (topCause l))
          (fun _ _ u => u)

end State

/-- GATHER_POOL (R157). -/
def execGatherPool (o : OpRef) (s : State) : Outcome State Fault Refusal :=
  let fresh := (s.op? o).any fun x => x.phase == .waiting
  let t := s.dispatch o 0x03 readGather
  .next (if !s.running then s else if fresh && (t.op? o).any (fun x => x.phase == .dispatched) then t.queueSlices o else t)

/-- ROW_FETCH (R164). -/
def execRowFetch (o : OpRef) (k : Nat) (s : State) : Outcome State Fault Refusal :=
  .next (if s.running then s.fetchRow o k else s)

/-- SLICE_DELIVERY (R158): the slice's delivery, and the op's zeros, mask and report after the last. -/
def execSliceDelivery (o : OpRef) (k errors : Nat) (s : State) : Outcome State Fault Refusal :=
  .next (if s.running then (s.deliver o k errors).endGather o else s)

end Sys2Proof.Machine
end

