-- ==== Sys2Proof/Machine/Update.lean ====
section
/-! DEFINITION. Writing table rows (08_weevils_update.md): UPDATE_ROWS, REPLACE_ROWS with its REBIND runs, the Hive's admissions
and evictions, and REBIND_MARK. -/

namespace Sys2Proof.Machine

open Host (Outcome)

/-! ### UPDATE_ROWS: dispatch (R172 to R175) -/

/-- Bytes of a position's gradient. -/
def gradWidth (w tcb : Nat) : Nat := Tcb.dim tcb * (if UpdateOp.gradFp32 w then 4 else 2)

/-- The span of the gradients. -/
def gradSpan (w : Nat) (lists tcbs offs : List Nat) : List (Nat × Nat) :=
  let ends := (List.range (UpdateOp.tableCount w)).map fun t =>
    let n := offs.getD (t + 1) 0
    if n = offs.getD t 0 then 0
    else (n - 1) * UpdateOp.gradStride w + TableEntry.colOff (lists.getD t 0) + gradWidth w (tcbs.getD t 0)
  spanOf (UpdateOp.grads w) (ends.foldl max 0)

def updateInputs (w b : Nat) (lists tcbs offs : List Nat) : List (Nat × Nat) :=
  gradSpan w lists tcbs offs ++
    spanOf (UpdateIn.idx b) (offs.getD (UpdateOp.tableCount w) 0 * if UpdateOp.idxWide w then 8 else 4) ++
    spanOf (UpdateIn.offsets b) (4 * (UpdateOp.tableCount w + 1)) ++ spanOf (UpdateOp.tables w) (16 * UpdateOp.tableCount w) ++
    lists.flatMap fun e => spanOf (TableEntry.tcb e) 128

def updateSides (w b : Nat) (offs : List Nat) : List (Nat × Nat) :=
  (if UpdateIn.doneMask b = 0 then []
    else spanOf (UpdateIn.doneMask b) (maskBytes (offs.getD (UpdateOp.tableCount w) 0))) ++
    (if UpdateIn.report b = 0 then [] else spanOf (UpdateIn.report b) 64)

/-- The optimiser's coefficients are finite, `eps` is not negative, and the table holds the state it needs (R175). -/
def optimiserOk (w : Nat) (tcbs : List Nat) : Bool :=
  [UpdateOp.lr w, UpdateOp.mu w, UpdateOp.eps w, UpdateOp.decay w].all (isFinite fp32) &&
    !flt fp32 (UpdateOp.eps w) 0 &&
    tcbs.all fun t =>
      match UpdateOp.optimiser w with
      | 0 => true
      | 2 => Tcb.state t == 1
      | _ => Tcb.state t == 2

/-- The checks of R175 on what has been read. -/
def updateOk (w b : Nat) (lists tcbs offs : List Nat) : Bool :=
  optimiserOk w tcbs &&
  (List.range (UpdateOp.tableCount w)).all (fun t =>
    decide (TableEntry.colOff (lists.getD t 0) + gradWidth w (tcbs.getD t 0) ≤ UpdateOp.gradStride w)) &&
  offs.headD 1 == 0 && rising offs && !spansOverlap (updateSides w b offs) (updateInputs w b lists tcbs offs)

/-- What the Spine reads and checks of an UPDATE_ROWS. -/
def readUpdate (x : Op) (r : Req) : M Op := do
  let w := x.word
  if !UpdateOp.ok w then failWith Status.descriptorInvalid
  let b ← readNum r (UpdateOp.inputs w) 64
  if !UpdateIn.ok b (UpdateOp.idxWide w) then failWith Status.descriptorInvalid
  let bs ← readVA r (UpdateOp.tables w) (16 * UpdateOp.tableCount w)
  let lists := State.words16 (UpdateOp.tableCount w) bs
  if !lists.all TableEntry.ok then failWith Status.descriptorInvalid
  let ts ← readTcbs r lists
  let offs ← readWords r ((List.range (UpdateOp.tableCount w + 1)).map fun t => UpdateIn.offsets b + 4 * t)
  if !updateOk w b lists (ts.map (·.1)) offs then failWith Status.descriptorInvalid
  return { x with copies := [b], body := .tables lists (ts.map (·.1)) offs, slices := tableSlices (ts.map (·.2)) }

/-! ### Combining (R176, R181) -/

/-- The segment that a position of a row goes into: a new one where the row is new and the segment full (R176). -/
def segRoom (t : TableWork) (row : Nat) : TableWork :=
  if (AMap.get? t.openRows row).isNone && t.openRows.length == 65536 then closeSeg t else t

/-- A position's gradient added to its row's (R176). -/
def addGrad (t : TableWork) (row i : Nat) (g : List Nat) : TableWork :=
  let (is, old) := AMap.getD t.openRows row ([], List.replicate g.length 0)
  { t with openRows := AMap.set t.openRows row (is ++ [(i, 0)], (old.zip g).map (fun p => (fadd fp32 p.1 p.2).1)) }

/-- Intake ended by a cause: the segment that holds the position is dropped, the closed ones stay (R181). -/
def stopIntake (t : TableWork) (st : Nat) : TableWork :=
  { t with begun := true, closed := true, openRows := [], causes := t.causes ++ [st] }

/-- The elements of a gradient as fp32 patterns. -/
def gradValues (wide : Bool) : List (BitVec 8) → List Nat
  | a :: b :: c :: d :: rest =>
    if wide then leNat [a, b, c, d] :: gradValues wide rest
    else bfToF32 (leNat [a, b]) :: bfToF32 (leNat [c, d]) :: gradValues wide rest
  | _ => []

/-- A gradient read by the lead, or the cause (R174). -/
def takeGrad (r : Req) (w tcb entry i : Nat) : M (Except Nat (List Nat)) := do
  match ← attempt (readMarked r (UpdateOp.grads w + i * UpdateOp.gradStride w + TableEntry.colOff entry) (gradWidth w tcb)) with
  | .error st => return .error st
  | .ok (bs, marks) =>
    return if marks.any id then .error Status.poisonConsumed else .ok (gradValues (UpdateOp.gradFp32 w) bs)

/-- Positions `lo + taken` on of an UPDATE_ROWS slice taken in order, until a segment closes, a cause is met or none is left
(R176, R181): at most `fuel` of them. -/
def combine (r : Req) (w b tcb entry lo hi : Nat) : Nat → TableWork → M TableWork
  | 0, t => return t
  | fuel + 1, t => do
    let i := lo + t.taken
    if hi ≤ i then return endIntake t
    let wide := if UpdateOp.idxWide w then 8 else 4
    let u := { t with taken := t.taken + 1 }
    match ← takeNum r (UpdateIn.idx b + wide * i) wide with
    | .error st => return stopIntake u st
    | .ok row =>
      if row < Tcb.rowCount tcb then
        let u := segRoom u row
        match ← takeGrad r w tcb entry i with
        | .error st => return stopIntake u st
        | .ok g =>
          let u := addGrad u row i g
          if t.segments < u.segments then return u else combine r w b tcb entry lo hi fuel u
      else
        let u := { u with skipped := u.skipped ++ [i] }
        if UpdateOp.badIndex w then combine r w b tcb entry lo hi fuel u else return stopIntake u Status.descriptorInvalid

/-- The intake of the next combining segment of a slice; before the first one the table's random state is read (R176, R178). -/
def updateIntake (r : Req) (w b tcb entry lo hi : Nat) (t : TableWork) : M TableWork := do
  if t.begun then combine r w b tcb entry lo hi (hi - lo + 1) t
  else
    match ← takeNum r (TableEntry.tcb entry + 64) 4 with
    | .error st => return stopIntake t st
    | .ok l => combine r w b tcb entry lo hi (hi - lo + 1) { t with begun := true, lfsr := Row.seed l }

namespace State

/-! ### Rows in the Hive (R189, R359) -/

/-- A slot write by a Weevil that clears the poison of every atom the slot touches (R359). -/
def slotWrite (s : State) (a n : Nat) (bytes : List (BitVec 8)) : State :=
  (atomsOf a n).foldl (fun t x => t.clearPoison x) (s.write a bytes)

/-- A row's slot written into the 64 replicas, in ascending cluster order (R188, R189). -/
def writeReplicas (s : State) (slot n : Nat) (bytes : List (BitVec 8)) : State :=
  (List.range 64).foldl (fun t c => t.slotWrite (t.replicaAddr c slot) n bytes) s

/-- The mirror of a row write while the row is resident; the replica slots written (R189, R192). -/
def mirrorRow (s : State) (tcb row owner : Nat) (bytes : List (BitVec 8)) : Nat × State :=
  match s.hiveEntry (Tcb.tableId tcb) row with
  | none => (0, s)
  | some e => (64, (s.writeReplicas e.2.slot (Tcb.slot tcb) bytes).addObj 0x6032 owner 64)

/-- A row written as owner: counted, in its shard too (R192, R193). -/
def countRowWrite (s : State) (owner a : Nat) : State := (s.addObj 0x6031 owner 1).countShard a

/-- A row requantised from a value that is not finite (R38, R510). -/
def nonFiniteRow (s : State) (o : OpRef) (g : Nat) (yes : Bool) : State :=
  if yes then s.countRaise 2 0 (s.partsOf o) 0x6041 g 0 else s

/-- The device address that a write of a row would reach, when it could be made now. -/
def rowTarget (s : State) (r : Req) (va : Nat) : Option Nat :=
  match (rowHome r va .write).run s with
  | .ok a _ => some a
  | .error _ _ => none

/-! ### Update queues (R179, R192) -/

/-- The update queue of owner `w`. -/
def updatesOf (s : State) (w : Nat) : List HeldUpdate := AMap.getD s.weevils.updates w []

/-- A row write takes a place in its owner's queue, and counts. -/
def queueUpdate (s : State) (w : Nat) (h : HeldUpdate) : State :=
  { s with weevils := { s.weevils with updates := AMap.set s.weevils.updates w (s.updatesOf w ++ [h]) } }.addObj 0x6033 w 1

/-- The places of the row writes that meet a condition are freed. Where a queue was full, the cycles it stood full join its count:
a free value, for the model has no clock (log entry 13). -/
def freeUpdates (s : State) (p : HeldUpdate → Bool) : State :=
  (s.weevils.updates.map (·.1)).foldl (fun t w =>
    let q := t.updatesOf w
    let left := q.filter fun h => !p h
    if left.length = q.length then t
    else
      let t := { t with weevils := { t.weevils with updates := AMap.put [] t.weevils.updates w left } }
      if q.length = 4096 then
        let (v, t) := t.draw
        t.addObj 0x6034 w v
      else t) s

/-- An earlier write to the row waits: ops write a row in the order in which they reach its owner (R179). -/
def rowWaits (s : State) (h : HeldUpdate) : Bool :=
  s.weevils.updates.any fun e => (e.2.takeWhile fun x => x != h).any fun x => x.row == h.row

/-- The write has a place in a queue. -/
def isQueued (s : State) (h : HeldUpdate) : Bool := s.weevils.updates.any fun e => e.2.contains h

end State

/-- What an RMW comes to: a row written (owner, address, bytes, whether a value was not finite), or left with a cause; a
failed check gives the owner and the row's address, a second detected error the owner. -/
inductive Rmw where
  | written (owner a : Nat) (bytes : List (BitVec 8)) (odd : Bool)
  | cause (st : Nat)
  | unsound (owner a : Nat)
  | lost (owner : Nat)

/-- The read-modify-write of one row (R177). -/
def rowRmw (r : Req) (w tcb g : Nat) (p : RowFetch) (lfsr : Nat) (lost : Bool) : M Rmw := do
  let a ← rowHome r (Tcb.rowAddr tcb p.row) .write
  let s ← get
  if s.heldWrite a then throw .hold
  modify fun s => (s.noteUse r (Tcb.rowAddr tcb p.row) (Tcb.used tcb) false).noteUse r (Tcb.rowAddr tcb p.row) (Tcb.used tcb) true
  let (bs, bad) ← readDevice r a (Tcb.used tcb)
  let s ← get
  let owner := ownerAt g (s.forwarded a)
  if bad.any id then return .cause Status.poisonConsumed
  if !Row.sound tcb bs then return .unsound owner (s.forwarded a)
  if lost then return .lost owner
  let (new, odd) := Row.update w tcb bs p.grad lfsr
  writeDevice r a new []
  return .written owner (s.forwarded a) new odd

namespace State

/-- What may be done now with a row write of lead `g` whose row is at `va` (R179, R192): performed, or given a place in the queue
of owner `w`, where it waits for its folio or behind an earlier write; none while it has to wait where it is. -/
inductive Sent where
  | perform
  | queue (w : Nat)

def sendUpdate (s : State) (r : Req) (g va : Nat) (h : HeldUpdate) : Option Sent :=
  match s.rowTarget r va with
  | none => if s.rowWaits h then none else some .perform
  | some a =>
    let w := ownerAt g (s.forwarded a)
    let waits := s.heldWrite a || s.rowWaits h
    if s.isQueued h then (if waits then none else some .perform)
    else if 4096 ≤ (s.updatesOf w).length then none
    else if waits then some (.queue w)
    else some .perform

/-- A row's write as its owner's queue knows it. -/
def heldOf (s : State) (o : OpRef) (k n va : Nat) : HeldUpdate := ⟨o, k, n, (s.ctx o.ctx).root * 2 ^ 52 + va⟩

/-- The next row of an UPDATE_ROWS slice and what may be done with it: of the lowest segment with a row to do, the first that is
not kept waiting (R176, R192). -/
def nextUpdate (s : State) (o : OpRef) (k g tcb : Nat) (t : TableWork) : Option (Nat × RowFetch × Sent) :=
  match (t.plan.zipIdx).find? fun e => (AMap.get? t.rows e.2).isNone with
  | none => none
  | some e =>
    (t.plan.zipIdx).findSome? fun p =>
      if p.1.seg != e.1.seg || (AMap.get? t.rows p.2).isSome || s.trans.stalls.any (fun x => x.req.who == .row o k p.2) ||
        s.trans.walks.any (fun x => x.req.who == .row o k p.2) then none
      else
        let va := Tcb.rowAddr tcb p.1.row
        (s.sendUpdate (s.rowReq g o k p.2) g va (s.heldOf o k p.2 va)).map fun d => (p.2, p.1, d)

/-- A slice of UPDATE_ROWS whose work is over ends; without a cause it writes the random state back first (R178). -/
def endUpdate (s : State) (o : OpRef) (k : Nat) : State :=
  match s.tableWork? o 0x04 k with
  | none => s
  | some (x, y, t, g) =>
    if y.phase != .running || !t.begun then s
    else
      let (lists, tcbs, _) := tablesOf x
      let rowCauses := (t.rows.filter fun e => !e.2.isEmpty).length
      if rowCauses = 0 ∧ planDone t = false then s
      else
        if !t.causes.isEmpty then
          (((s.dropRows o k).freeUpdates fun h => h.o == o && h.k == k).endTable o k g (topCause t.causes))
        else
          let l := Row.draws t.lfsr (Tcb.dim (tcbs.getD y.lo 0) * t.plan.length)
          s.runM (attempt (writeVA (s.leadReq g o k) (TableEntry.tcb (lists.getD y.lo 0) + 64) (leBytes 4 l)))
            (fun e u =>
              match e with
              | .error st => u.endTable o k g st
              | .ok _ => (if t.redone then u.notePassed o 0x6040 g else u).endTable o k g Status.ok)
            (fun _ _ u => u)

/-- A row of an UPDATE_ROWS slice done: committed, or failed with a cause. A failed row is marked by a value, so that the
slice is seen to have stopped (R181). -/
def updateDone (s : State) (o : OpRef) (k n : Nat) (positions : List Nat) (cause : Option Nat) (mirrors : Nat) : State :=
  s.modSlice o k fun y => match y.work with
    | .table t => { y with work := .table { t with
        rows := AMap.set t.rows n (cause.map (fun _ => 1)).toList, causes := t.causes ++ cause.toList,
        committed := t.committed ++ positions, fetched := t.fetched + b2n cause.isNone, mirrors := t.mirrors + mirrors } }
    | _ => y

/-- ROW_RMW: the next row of an UPDATE_ROWS slice (R177 to R180), or its wait in its owner's queue (R192); `errors` is how often an
error is detected in it. -/
def updateRow (s : State) (o : OpRef) (k errors : Nat) : State :=
  match s.tableWork? o 0x04 k with
  | none => s
  | some (x, y, t, g) =>
    let stopped := t.rows.any fun e => !e.2.isEmpty
    let tcb := (tablesOf x).2.1.getD y.lo 0
    if y.phase != .running || !t.begun || stopped then s
    else
      match s.nextUpdate o k g tcb t with
      | none => s
      | some (n, p, .queue w) => s.queueUpdate w (s.heldOf o k n (Tcb.rowAddr tcb p.row))
      | some (n, p, .perform) =>
        s.runM (rowRmw (s.rowReq g o k n) x.word tcb g p (Row.draws t.lfsr (Tcb.dim tcb * n)) (decide (2 ≤ errors)))
          (fun v u =>
            let u := u.freeUpdates fun h => h.o == o && h.k == k && h.n == n
            match v with
            | .written owner a bytes odd =>
              let u := if errors = 1 then (u.countRedo owner).notePassed o 0x6040 owner else u
              let u := (u.countRowWrite owner a).nonFiniteRow o owner odd
              let (m, u) := u.mirrorRow tcb p.row owner bytes
              u.updateDone o k n (p.uses.map (·.1)) none m
            | .cause st => u.updateDone o k n [] (some st) 0
            | .lost owner => (u.countRedo owner).updateDone o k n [] (some Status.silentError) 0
            | .unsound owner a => (u.checkFailed o owner a).updateDone o k n [] (some Status.poisonConsumed) 0)
          (fun st _ u => u.updateDone o k n [] (some st) 0)

/-- The intake of the next combining segment of an UPDATE_ROWS slice at the head of its lead's queue. `errors` is how often an
error is detected in the combiner: the first has the segment taken again, a second one fails the slice there (R180, R338). -/
def startUpdate (s : State) (o : OpRef) (k errors : Nat) : State :=
  match s.tableWork? o 0x04 k with
  | none => s
  | some (x, y, t, g) =>
    if t.closed || y.phase == .ended || y.phase == .reported then s
    else
      let (lists, tcbs, offs) := tablesOf x
      let t0 := { t with redone := t.redone || decide (errors ≠ 0) }
      s.runM (if 2 ≤ errors then pure (stopIntake t0 Status.silentError)
          else updateIntake (s.leadReq g o k) x.word (x.copies.getD 0 0) (tcbs.getD y.lo 0) (lists.getD y.lo 0)
            (offs.getD y.lo 0) (offs.getD (y.lo + 1) 0) t0)
        (fun t1 u =>
          let u := if errors ≠ 0 then u.countRedo g else u
          ((u.countTaken o g t0 t1).modSlice o k fun z => { z with phase := .running }).setWork o k t1)
        (fun _ _ u => u)

end State

/-- Done mask and report of an UPDATE_ROWS; the status of a failed write (R181). -/
def finishUpdate (r : Req) (x : Op) : M (Option Nat) := do
  let (lists, _, offs) := State.tablesOf x
  let b := x.copies.getD 0 0
  let done := x.slices.flatMap fun y => (workOf y).committed
  writeSides
    (if UpdateIn.doneMask b ≠ 0 then
      writeVA r (UpdateIn.doneMask b) (maskFrom (offs.getD (UpdateOp.tableCount x.word) 0) done.contains) else pure ())
    (if UpdateIn.report b ≠ 0 then
      writeVA r (UpdateIn.report b) (tableReport (partStatuses lists x.slices) x.slices) else pure ())

/-- The end of an UPDATE_ROWS after its last slice. -/
def State.finishUpdates (s : State) (o : OpRef) : State :=
  match s.op? o with
  | some x =>
    if s.running && State.slicesEnded x && OpHdr.opcode x.word == 0x04 then
      s.runM (finishUpdate (s.spineReq o.ctx (.op o 1000)) x) (fun fail t => t.settleTables o fail) (fun _ _ t => t)
    else s
  | none => s

/-! ### REPLACE_ROWS (R182 to R184, R186) -/

/-- Bytes of a source row (R183). -/
def sourceWidth (w tcb : Nat) : Nat :=
  match ReplaceOp.srcFormat w with
  | 0 => Tcb.slot tcb
  | 1 => 4 * Tcb.dim tcb
  | _ => 2 * Tcb.dim tcb

/-- The checks of R184 on the record, the TCB and the items; those of R186 on the TCB's upper fields follow at the lead. -/
def replaceOk (w tcb : Nat) (items : List Nat) : Bool :=
  let n := ReplaceOp.count w
  items.all RowItem.ok &&
  (ReplaceOp.action w != 0 ||
    ((n == 1 || (ReplaceOp.srcStride w % 16 == 0 && decide (sourceWidth w tcb ≤ ReplaceOp.srcStride w))) &&
    !spansOverlap (spanOf (ReplaceOp.src w) ((if n = 1 then 0 else (n - 1) * ReplaceOp.srcStride w) + sourceWidth w tcb))
      (spanOf (ReplaceOp.items w) (16 * n) ++ spanOf (ReplaceOp.tcb w) 128)))

/-- What the Spine reads and checks of a REPLACE_ROWS. -/
def readReplace (x : Op) (r : Req) : M Op := do
  let w := x.word
  if !ReplaceOp.ok w then failWith Status.descriptorInvalid
  let t ← readTcb r (ReplaceOp.tcb w)
  let bs ← readVA r (ReplaceOp.items w) (16 * ReplaceOp.count w)
  let items := State.words16 (ReplaceOp.count w) bs
  if !replaceOk w t.1 items then failWith Status.descriptorInvalid
  return { x with body := .tables items [t.1] [], slices := tableSlices [t.2] }

/-- The upper fields of a TCB as the lead reads them: random state, generation, watermark, target (R150). -/
def readUpper (r : Req) (va : Nat) : M (Nat × Nat × Nat × Nat) := do
  let v ← readNum r (va + 64) 16
  return (bits v 31 0, bits v 63 32, bits v 95 64, bits v 127 96)

/-- The items of a run name consecutive rows within its target, in its generation (R186). -/
def runOk (w : Nat) (rows : List Nat) (gen target : Nat) : Bool :=
  let a := rows.headD 0
  (rows.zipIdx).all (fun e => e.1 == a + e.2) && decide (a + rows.length ≤ target) && ReplaceOp.gen w == gen

/-- Values of a source row as fp32 patterns. -/
def sourceValues (w : Nat) (bs : List (BitVec 8)) : List Nat := gradValues (ReplaceOp.srcFormat w == 1) bs

/-- The new used bytes of a row, and whether a value was not finite (R183). -/
def replaceBytes (w tcb : Nat) (src old : List (BitVec 8)) (lfsr : Nat) : List (BitVec 8) × Bool :=
  let version := (Row.version old + 1) % 65536
  let state := fun (d : List (BitVec 8)) => if ReplaceOp.keepState w then Row.state tcb old else d
  if ReplaceOp.srcFormat w = 0 then
    (Row.build tcb (Row.scale src) (Row.offset src) version (Row.payload tcb src) (state (Row.state tcb src)), false)
  else
    let vs := sourceValues w src
    let (s, o, qs) := Row.requant tcb vs lfsr
    (Row.build tcb s o version (Row.packCodes tcb qs) (state (List.replicate (Tcb.stateBytes tcb) 0)), Row.nonFinite vs)

/-- The home of a REPLACE item's row: its address, the address it is forwarded to, and the row the slot holds (R182, R183). A
kept optimiser state must be sound; the version under poison is a free value (log entry 82). -/
def replaceHome (rr : Req) (o : OpRef) (w tcb g row : Nat) : M (Nat × Nat × List (BitVec 8)) := do
  let a ← rowHome rr (Tcb.rowAddr tcb row) .write
  let s ← get
  if s.heldWrite a then throw .hold
  modify fun s => s.noteUse rr (Tcb.rowAddr tcb row) (Tcb.used tcb) true
  let (old, bad) ← readDevice rr a (Tcb.used tcb)
  let s ← get
  let at_ := s.forwarded a
  if ReplaceOp.keepState w && bad.any id then failWith Status.poisonConsumed
  if ReplaceOp.keepState w && !Row.sound tcb old then
    set (s.checkFailed o (ownerAt g at_) at_)
    failWith Status.poisonConsumed
  let (v, s) := s.draw
  set s
  return (a, at_, if ((bad.drop 4).take 2).any id then old.take 4 ++ leBytes 2 v ++ old.drop 6 else old)

/-- The detected errors of an item: one is redone, a second ends it (R180, R338). -/
def replaceErrors (o : OpRef) (g errors : Nat) : M Unit := do
  if errors ≠ 0 then modify fun s => s.countRedo g
  if 2 ≤ errors then failWith Status.silentError
  if errors = 1 then modify fun s => s.notePassed o 0x6040 g

/-- The new row is written at its home and its replicas; how many of these. -/
def replaceWrite (rr : Req) (o : OpRef) (tcb g item a at_ : Nat) (new : List (BitVec 8)) (odd : Bool) : M Nat := do
  writeDevice rr a new []
  let s ← get
  let s := (State.atomsOf at_ (Tcb.slot tcb)).foldl (fun t x => t.clearPoison (t.forwarded x)) s
  let p := ((s.countRowWrite (ownerAt g at_) at_).nonFiniteRow o g odd).mirrorRow tcb (RowItem.row item) (ownerAt g at_) new
  set p.2
  return p.1

/-- One REPLACE item; the replica slots written. Of the causes met at its source and at its row the highest is its status
(R184). `errors` is how often an error is detected in it. -/
def replaceItem (r rr : Req) (o : OpRef) (w tcb g k item lfsr errors : Nat) : M Nat := do
  if Tcb.rowCount tcb ≤ RowItem.row item then failWith Status.descriptorInvalid
  let src ← attempt (readVA r (ReplaceOp.src w + k * ReplaceOp.srcStride w) (sourceWidth w tcb))
  let home ← attempt (replaceHome rr o w tcb g (RowItem.row item))
  match src, home with
  | .ok src, .ok (a, at_, old) => do
    replaceErrors o g errors
    let (new, odd) := replaceBytes w tcb src old lfsr
    replaceWrite rr o tcb g item a at_ new odd
  | .error x, .error y => failWith (topCause [x, y])
  | .error x, _ => failWith x
  | _, .error y => failWith y

/-- What the items of an op come to: statuses of the failed ones, rows written, replica slots written, items admitted or
evicted, and the random state after them. -/
structure ItemsEnd where
  fails : List (Nat × Nat) := []
  written : Nat := 0
  mirrors : Nat := 0
  hive : Nat := 0
  lfsr : Nat := 1
deriving DecidableEq, Repr

/-- REPLACE items in order; a failed item takes no draws. -/
def replaceItems (r rr : Req) (o : OpRef) (w tcb g : Nat) (errors : List (Nat × Nat)) :
    ItemsEnd → List (Nat × Nat) → M ItemsEnd
  | e, [] => return e
  | e, (item, k) :: rest => do
    match ← attempt (replaceItem r rr o w tcb g k item e.lfsr (((errors.find? fun x => x.1 == k).map (·.2)).getD 0)) with
    | .error st => replaceItems r rr o w tcb g errors { e with fails := e.fails ++ [(k, st)] } rest
    | .ok m =>
      replaceItems r rr o w tcb g errors
        { e with
          written := e.written + 1, mirrors := e.mirrors + m
          lfsr := if ReplaceOp.srcFormat w = 0 then e.lfsr else Row.draws e.lfsr (Tcb.dim tcb) } rest

/-- The report of R184; the status of a failed write. -/
def itemsReport (r : Req) (w : Nat) (e : ItemsEnd) : M (Option Nat) := do
  if ReplaceOp.report w = 0 then return none
  let first := ((e.fails.head?).map (·.1)).getD 0xFFFFFFFF
  match ← attempt (writeVA r (ReplaceOp.report w)
    (leBytes 4 e.written ++ leBytes 4 e.mirrors ++ leBytes 4 e.hive ++ leBytes 4 first)) with
  | .error st => return some st
  | .ok _ => return none

/-- REPLACE, whole, at the lead (R183, R184, R186): items, random state, watermark, report. -/
def runReplace (r rr spine : Req) (o : OpRef) (w tcb g : Nat) (errors : List (Nat × Nat)) (items : List Nat) : M (ItemsEnd × Option Nat) := do
  let va := ReplaceOp.tcb w
  let (l, gen, _, target) ← readUpper r va
  let rows := items.map RowItem.row
  if ReplaceOp.rebind w && !runOk w rows gen target then failWith Status.descriptorInvalid
  let e ← replaceItems r rr o w tcb g errors { lfsr := Row.seed l } items.zipIdx
  if ReplaceOp.srcFormat w ≠ 0 then writeVA r (va + 64) (leBytes 4 e.lfsr)
  if ReplaceOp.rebind w && e.fails.isEmpty then
    let (_, _, mark, _) ← readUpper r va
    if rows.headD 0 ≤ mark then writeVA r (va + 72) (leBytes 4 (max mark (rows.headD 0 + rows.length)))
  let f ← itemsReport spine w e
  return (e, f)

namespace State

/-- Statuses of the sixteen parts of `n` items: item k belongs to part 16 k / n, and its first failed item gives a part's
status (R184). -/
def itemParts (n : Nat) (fails : List (Nat × Nat)) : List Nat :=
  (List.range 16).map fun p => ((fails.find? fun f => 16 * f.1 / n == p).map (·.2)).getD Status.ok

/-- An op over items settled (R184). -/
def settleItems (s : State) (o : OpRef) (n : Nat) (fails : List (Nat × Nat)) (fail : Option Nat) : State :=
  let stats := itemParts n fails
  let named := (List.range 16).filter fun p => (List.range n).any fun k => 16 * k / n == p
  let (st, high, map) := partsEnd named stats
  let st := fail.getD st
  let s := (fails.filter fun f => f.2 == Status.poisonConsumed).foldl (fun t _ => t.consumePoison) s
  let s := if fail = some Status.poisonConsumed then s.consumePoison else s
  let s := ((stats.filter (· == Status.silentError)).drop (b2n (st == Status.silentError))).foldl
    (fun t _ => t.noteUnrecovered o Status.silentError) s
  s.modOp o fun z => { z with
    phase := .settled, status := st, low := 0, high := high, partMap := map,
    slices := z.slices.map fun y => { y with phase := .reported } }

/-- The dispatch of a REPLACE_ROWS or REBIND_MARK, which queues it at its lead. -/
def dispatchLead (s : State) (o : OpRef) (code : Nat) (m : Op → Req → M Op) : State :=
  let fresh := (s.op? o).any fun x => x.phase == .waiting
  let t := s.dispatch o code m
  if fresh && (t.op? o).any (fun x => x.phase == .dispatched) then t.queueSlices o else t

/-- The record asks for an action; one with a reserved action is taken up by the first of them. -/
def replaceAction (s : State) (o : OpRef) (a : Nat) : Bool :=
  (s.op? o).any fun x => OpHdr.opcode x.word == 0x05 &&
    (ReplaceOp.action x.word == a || (a == 0 && ReplaceOp.action x.word == 3))

/-- The op's own work at its lead fails as a whole. -/
def failAtLead (s : State) (o : OpRef) (g st code : Nat) : State := (s.leaveLead o 0 g).failOp o st code

/-- The first item of a REPLACE whose row write has to wait, with its owner's queue where it may take a place there (R179, R192). -/
def heldItem (s : State) (rr : Req) (o : OpRef) (w tcb g : Nat) (items : List Nat) : Option (HeldUpdate × Option Sent) :=
  (items.zipIdx).findSome? fun e =>
    let row := RowItem.row e.1
    let h := s.heldOf o 0 e.2 (Tcb.rowAddr tcb row)
    if ReplaceOp.action w != 0 || decide (Tcb.rowCount tcb ≤ row) then none
    else
      match s.sendUpdate rr g (Tcb.rowAddr tcb row) h with
      | some .perform => none
      | d => some (h, d)

/-- REPLACE: dispatched, and run when its lead takes it and none of its rows has to wait. `errors` lists the items in which an
error is detected, with how often. -/
def replace (s : State) (o : OpRef) (errors : List (Nat × Nat)) : State :=
  if !s.replaceAction o 0 then s
  else
    let s := s.dispatchLead o 0x05 readReplace
    match s.tableWork? o 0x05 0 with
    | none => s
    | some (x, _, _, g) =>
      let (items, tcbs, _) := tablesOf x
      let tcb := tcbs.getD 0 0
      let rr := { s.leadReq g o 0 with targets := 9 }
      match s.heldItem rr o x.word tcb g items with
      | some (h, some (.queue w)) => s.queueUpdate w h
      | some _ => s
      | none =>
        s.runM (runReplace (s.leadReq g o 0) rr (s.spineReq o.ctx (.op o 1000)) o x.word tcb g errors items)
          (fun v u => ((u.freeUpdates fun h => h.o == o).leaveLead o 0 g).settleItems o items.length v.1.fails v.2)
          (fun st code u => (u.freeUpdates fun h => h.o == o).failAtLead o g st code)

/-! ### The Hive protocols (R188 to R191) -/

/-- Entries that hold replica units, valid or draining, overlap a slot range in 32-byte units. -/
def hiveTaken (s : State) (slot bytes : Nat) : Bool :=
  s.weevils.hive.any fun e => decide (e.2.slot * 32 < slot * 32 + bytes) && decide (slot * 32 < e.2.slot * 32 + e.2.bytes)

/-- A HIVE_ADMIT item may be admitted (R191). An entry still draining is not free (R190). -/
def admitOk (s : State) (tcb item : Nat) : Bool :=
  Tcb.hive tcb && s.obj 0x6110 2 != 0 && (AMap.get? s.weevils.hive (RowItem.entry item)).isNone &&
    (s.hiveEntry (Tcb.tableId tcb) (RowItem.row item)).isNone &&
    decide (RowItem.slot item * 32 + Tcb.slot tcb ≤ s.obj 0x6110 2 * 2 ^ 20) && !s.hiveTaken (RowItem.slot item) (Tcb.slot tcb)

end State

/-- One HIVE_ADMIT item (R188). -/
def admitItem (rr : Req) (o : OpRef) (tcb g item : Nat) : M Unit := do
  let s ← get
  if Tcb.rowCount tcb ≤ RowItem.row item || !s.admitOk tcb item then failWith Status.descriptorInvalid
  let (a, bs, bad) ← readRow rr tcb (RowItem.row item) none
  if bad then failWith Status.poisonConsumed
  if !Row.sound tcb bs then
    modify fun s => s.checkFailed o (ownerAt g a) a
    failWith Status.poisonConsumed
  let s ← get
  let s := s.writeReplicas (RowItem.slot item) (Tcb.slot tcb) bs
  let s := (List.range 64).foldl (fun t c => t.addObj 0x6032 (ownerAt g (t.replicaAddr c 0)) 1) s
  let x : HiveEntry := { table := Tcb.tableId tcb, row := RowItem.row item, slot := RowItem.slot item, bytes := Tcb.slot tcb, valid := true }
  set { s with weevils := { s.weevils with hive := AMap.set s.weevils.hive (RowItem.entry item) x } }

/-- HIVE_ADMIT items in order. -/
def admitItems (rr : Req) (o : OpRef) (tcb g : Nat) : ItemsEnd → List (Nat × Nat) → M ItemsEnd
  | e, [] => return e
  | e, (item, k) :: rest => do
    match ← attempt (admitItem rr o tcb g item) with
    | .error st => admitItems rr o tcb g { e with fails := e.fails ++ [(k, st)] } rest
    | .ok _ => admitItems rr o tcb g { e with hive := e.hive + 1, mirrors := e.mirrors + 64 } rest

namespace State

/-- HIVE_ADMIT: dispatched, and run when its lead takes it. -/
def admitRows (s : State) (o : OpRef) : State :=
  if !s.replaceAction o 1 then s
  else
    let s := s.dispatchLead o 0x05 readReplace
    match s.tableWork? o 0x05 0 with
    | none => s
    | some (x, _, _, g) =>
      let (items, tcbs, _) := tablesOf x
      let m : M (ItemsEnd × Option Nat) := do
        let e ← admitItems { s.leadReq g o 0 with targets := 9 } o (tcbs.getD 0 0) g {} items.zipIdx
        let f ← itemsReport (s.spineReq o.ctx (.op o 1000)) x.word e
        return (e, f)
      s.runM m (fun v u => (u.leaveLead o 0 g).settleItems o items.length v.1.fails v.2)
        (fun st code u => u.failAtLead o g st code)

/-- One HIVE_EVICT item: its entry withdrawn, or its failure (R190, steps 1 to 3). -/
def evictItem (s : State) (o : OpRef) (tcb item : Nat) : Option State :=
  match AMap.get? s.weevils.hive (RowItem.entry item) with
  | none => none
  | some x =>
    if x.valid && x.table == Tcb.tableId tcb && x.row == RowItem.row item && decide (RowItem.row item < Tcb.rowCount tcb) then
      some { s with weevils := { s.weevils with
        hive := AMap.set s.weevils.hive (RowItem.entry item) { x with valid := false, evictor := some o } } }
    else none

/-- The op waits for no slot. -/
def evicted (s : State) (o : OpRef) : Bool := !s.weevils.hive.any fun e => e.2.evictor == some o

/-- The end of a HIVE_EVICT whose slots are all free: its report, then its status. -/
def endEvict (s : State) (o : OpRef) : State :=
  match s.op? o with
  | none => s
  | some x =>
    match x.body with
    | .evict fails items done =>
      if !s.evicted o || x.phase != .dispatched then s
      else
        let g := ((x.slices.head?).bind (·.place)).getD 0
        s.runM (itemsReport (s.spineReq o.ctx (.op o 1000)) x.word { fails := fails, hive := done })
          (fun f u => (u.leaveLead o 0 g).settleItems o items fails f)
          (fun _ _ u => u)
    | _ => s

/-- HIVE_EVICT: dispatched, and run when its lead takes it; it ends when its slots have drained. -/
def evict (s : State) (o : OpRef) : State :=
  if !s.replaceAction o 2 then s
  else
    let s := s.dispatchLead o 0x05 readReplace
    match s.tableWork? o 0x05 0 with
    | none => s
    | some (x, _, _, _) =>
      match x.body with
      | .tables items tcbs _ =>
        let step := fun (p : State × List (Nat × Nat) × Nat) (e : Nat × Nat) =>
          match p.1.evictItem o (tcbs.getD 0 0) e.1 with
          | some t => (t, p.2.1, p.2.2 + 1)
          | none => (p.1, p.2.1 ++ [(e.2, Status.descriptorInvalid)], p.2.2)
        let (s, fails, done) := items.zipIdx.foldl step (s, [], 0)
        (s.modOp o fun z => { z with body := .evict fails items.length done }).endEvict o
      | _ => s.endEvict o

/-- A fetch not yet made holds an entry's slot (R170). -/
def slotHeld (s : State) (entry : Nat) : Bool :=
  s.ctxs.any fun c => c.2.entries.any fun e => match e.quire with
    | none => false
    | some q => q.ops.any fun x => x.slices.any fun y =>
      decide (y.phase ≠ .ended ∧ y.phase ≠ .reported) &&
        ((workOf y).plan.zipIdx).any fun p => p.1.hive == some entry && (AMap.get? (workOf y).rows p.2).isNone

/-- HIVE_SLOT_FREE: the slot of a withdrawn entry that no fetch holds is freed (step 5 of R190). -/
def slotFree (s : State) (entry : Nat) : State :=
  match AMap.get? s.weevils.hive entry with
  | none => s
  | some x =>
    if x.valid || !s.running || s.slotHeld entry then s
    else
      let s := { s with weevils := { s.weevils with hive := AMap.erase s.weevils.hive entry } }
      match x.evictor with
      | some o => s.endEvict o
      | none => s

/-- A mark dispatched when its record asks for the action; a reserved action is taken up by the first. -/
def markAction (s : State) (o : OpRef) (a : Nat) : Bool :=
  (s.op? o).any fun x => OpHdr.opcode x.word == 0x06 &&
    (MarkOp.action x.word == a || (a == 0 && MarkOp.action x.word == 3))

end State

/-! ### REBIND_MARK (R185) -/

def readMark (x : Op) (r : Req) : M Op := do
  if !MarkOp.ok x.word then failWith Status.descriptorInvalid
  let t ← readTcb r (MarkOp.tcb x.word)
  return { x with body := .tables [] [t.1] [], slices := tableSlices [t.2] }

/-- The change of the TCB's upper fields, by aligned 32-bit writes. -/
def runMark (r : Req) (w tcb : Nat) : M Unit := do
  let va := MarkOp.tcb w
  let (_, gen, mark, target) ← readUpper r va
  match MarkOp.action w with
  | 0 =>
    if target ≠ 0 || MarkOp.target w = 0 || Tcb.rowCount tcb < MarkOp.target w then failWith Status.descriptorInvalid
    writeVA r (va + 68) (leBytes 4 ((gen + 1) % 2 ^ 32))
    writeVA r (va + 72) (leBytes 4 0)
    writeVA r (va + 76) (leBytes 4 (MarkOp.target w))
  | 1 =>
    if MarkOp.gen w ≠ gen || mark ≠ target then failWith Status.descriptorInvalid
    writeVA r (va + 76) (leBytes 4 0)
  | _ =>
    if MarkOp.gen w ≠ gen then failWith Status.descriptorInvalid
    writeVA r (va + 76) (leBytes 4 0)
    writeVA r (va + 72) (leBytes 4 0)

/-- A REBIND_MARK of an action: dispatched, and run when its lead takes it. -/
def State.rebindMark (s : State) (o : OpRef) (a : Nat) : State :=
  if !s.markAction o a then s
  else
    let s := s.dispatchLead o 0x06 readMark
    match s.tableWork? o 0x06 0 with
    | none => s
    | some (x, _, _, g) =>
      s.runM (runMark (s.leadReq g o 0) x.word ((State.tablesOf x).2.1.getD 0 0))
        (fun _ u => (u.leaveLead o 0 g).modOp o fun z => { z with
          phase := .settled, status := Status.ok, slices := z.slices.map fun y => { y with phase := .reported } })
        (fun st code u => u.failAtLead o g st code)

/-! ### The commands -/

/-- UPDATE_ROWS (R175). -/
def execUpdateRows (o : OpRef) (s : State) : Outcome State Fault Refusal :=
  .next (if s.running then s.dispatchLead o 0x04 readUpdate else s)

/-- TABLE_SLICE_START (R158, R176). -/
def execTableSliceStart (o : OpRef) (k errors : Nat) (s : State) : Outcome State Fault Refusal :=
  .next (if s.running then (((s.startGather o k errors).startUpdate o k errors).endUpdate o k).finishUpdates o else s)

/-- ROW_RMW (R177); the slice ends with its last row. -/
def execRowRmw (o : OpRef) (k errors : Nat) (s : State) : Outcome State Fault Refusal :=
  .next (if s.running then ((s.updateRow o k errors).endUpdate o k).finishUpdates o else s)

/-- REPLACE (R184). -/
def execReplace (o : OpRef) (errors : List (Nat × Nat)) (s : State) : Outcome State Fault Refusal :=
  .next (if s.running then s.replace o errors else s)

/-- HIVE_ADMIT (R188). -/
def execHiveAdmit (o : OpRef) (s : State) : Outcome State Fault Refusal :=
  .next (if s.running then s.admitRows o else s)

/-- HIVE_EVICT (R190). -/
def execHiveEvict (o : OpRef) (s : State) : Outcome State Fault Refusal :=
  .next (if s.running then s.evict o else s)

/-- HIVE_SLOT_FREE (R190). -/
def execHiveSlotFree (entry : Nat) (s : State) : Outcome State Fault Refusal := .next (s.slotFree entry)

/-- REBIND_MARK_BEGIN (R185). -/
def execRebindMarkBegin (o : OpRef) (s : State) : Outcome State Fault Refusal :=
  .next (if s.running then s.rebindMark o 0 else s)

/-- REBIND_MARK_END (R185). -/
def execRebindMarkEnd (o : OpRef) (s : State) : Outcome State Fault Refusal :=
  .next (if s.running then s.rebindMark o 1 else s)

/-- REBIND_MARK_ABORT (R185). -/
def execRebindMarkAbort (o : OpRef) (s : State) : Outcome State Fault Refusal :=
  .next (if s.running then s.rebindMark o 2 else s)

end Sys2Proof.Machine
end

