-- ==== Sys2Proof/Machine/Streams.lean ====
section
/-! DEFINITION. STREAM and its blocks (10_streams_and_host_data.md, R222 to R230; 15_silent_errors_and_replay.md, R338). Each
block is one command: its reads and writes are made whole, in the order of the list. -/

namespace Sys2Proof.Machine

open Host (Outcome)

/-- A block list as it is read: its entries, or the first one that breaks its rules with its status. `before` blocks of the
op come before the list (R225, R227, R285). -/
def checkList (s : State) (w part before : Nat) (bs : List Nat) : Option (Nat × Nat) :=
  (bs.zipIdx).findSome? fun e =>
    let (b, j) := e
    let bad := !BlockEntry.ok b || (BlockEntry.kind b == 4 && j + 1 != bs.length) ||
      (BlockEntry.kind b == 1 && (StreamOp.ringCount w == 0 ||
        decide (StreamOp.ringSize w < BlockEntry.len b * BlockEntry.rows b))) ||
      decide (1048576 < before + j + 1)
    if bad then some (Status.descriptorInvalid, before + j)
    else if (BlockEntry.kind b == 2 || BlockEntry.kind b == 3) && !s.fenceInRange part (BlockEntry.fence b) then
      some (Status.faultPermission, before + j)
    else none

/-- Result word bits [31:16] of a failing block, as a failure's code (R229). -/
def blockCode (k : Nat) : Nat := min k 0xFFFF * 65536

/-- The entries of a list of `n` blocks. -/
def words32 : Nat → List (BitVec 8) → List Nat
  | 0, _ => []
  | n + 1, bs => leNat (bs.take 32) :: words32 n (bs.drop 32)

/-- No page of the op's ring buffers is mapped with a PTE target other than 0 (R227). A page that is not mapped, or lies past
the virtual range, is left to the block that writes it. -/
def ringTargets (s : State) (r : Req) (base pages : Nat) : Bool :=
  (List.range pages).all fun i =>
    decide (2 ^ 52 ≤ base + 4096 * i) ||
      match s.walk r.root (base + 4096 * i) with
      | .leaf e _ _ => Pte.target e == 0
      | _ => true

/-- The first RING block of a list whose op's ring buffers are not all memory of PTE target 0 (R227). -/
def ringFault (s : State) (r : Req) (w before : Nat) (bs : List Nat) : Option (Nat × Nat) :=
  match bs.findIdx? fun b => BlockEntry.kind b == 1 with
  | none => none
  | some j =>
    if ringTargets s r (StreamOp.ringBase w) (StreamOp.ringCount w * StreamOp.ringSize w / 4096) then none
    else some (Status.descriptorInvalid, before + j)

/-- A block list read and checked; a read that fails is charged to the CHAIN block that names the list (R227, R229). -/
def readList (r : Req) (w va n before : Nat) : M (List Nat) := do
  let bs ← tryCatch (readVA r va (32 * n)) fun e =>
    match e with
    | .fail st _ => throw (.fail st (blockCode (before - 1)))
    | e => throw e
  let l := words32 n bs
  let s ← get
  let first := match checkList s w r.part before l, ringFault s r w before l with
    | some a, some b => some (if b.2 < a.2 then b else a)
    | some a, none => some a
    | none, b => b
  match first with
  | some (st, k) => throw (.fail st (blockCode k))
  | none => return l

/-- What the Spine reads and checks of a STREAM. -/
def readStream (x : Op) (r : Req) : M Op := do
  let w := x.word
  if !StreamOp.ok w then failWith Status.descriptorInvalid
  let s ← get
  if StreamOp.ringCount w ≠ 0 && !(s.fenceInRange r.part (StreamOp.freeFence w) && s.fenceInRange r.part (StreamOp.fillFence w)) then
    failWith Status.faultPermission
  let l ← readList r w (StreamOp.list w) (StreamOp.listLen w) 0
  return { x with
    waitMet := false, body := .stream { list := l }
    slices := [if StreamOp.engine w = 0 then { unit := 2 } else
      { unit := 4, place := some (StreamOp.engine w - 1), phase := .queued }] }

/-! ### Blocks (R226, R228, R229) -/

/-- First and last byte of `rows` rows of `len` bytes, `pitch` apart. -/
def rowSpan (a pitch len rows : Nat) : List (Nat × Nat) := spanOf a (if len = 0 then 0 else (rows - 1) * pitch + len)

/-- Source and destination of a COPY overlap as virtual ranges (R228). -/
def copyOverlaps (b : Nat) : Bool :=
  spansOverlap (rowSpan (BlockEntry.src b) (BlockEntry.srcPitch b) (BlockEntry.len b) (BlockEntry.rows b))
    (rowSpan (BlockEntry.dst b) (BlockEntry.dstPitch b) (BlockEntry.len b) (BlockEntry.rows b))

/-- A page of a block's source: bytes with poison marks; a host read that fails, fails the block (R229). -/
def streamPage (r : Req) (va n : Nat) : M (List (BitVec 8) × List Bool) := do
  match ← translate r va .read with
  | .poison => poisonLeaf va n
  | .device a =>
    modify fun s => s.noteUse r va n false
    readDevice r a n
  | .host p a =>
    let s ← get
    if s.hostUp p (s.reqFn r.ctx p) then
      let (bs, s') := s.hostRead p (s.reqFn r.ctx p) a n
      set s'
      return (bs, List.replicate n false)
    else
      failWith Status.poisonConsumed
  | .peer p off => readPeer r p off va n

/-- A row of a block's source, page by page. -/
def streamRow (r : Req) : Nat → Nat → Nat → M (List (BitVec 8) × List Bool)
  | 0, _, _ => return ([], [])
  | fuel + 1, va, n => do
    if n = 0 then return ([], [])
    if 2 ^ 52 < va + n then failWith Status.faultPermission
    let k := min n (4096 - va % 4096)
    let (bs, bad) ← streamPage r va k
    let (cs, marks) ← streamRow r fuel (va + k) (n - k)
    return (bs ++ cs, bad ++ marks)

/-- Rows read in ascending order. -/
def streamRows (r : Req) (len : Nat) : List Nat → M (List (List (BitVec 8) × List Bool))
  | [] => return []
  | a :: as => do
    let x ← streamRow r (len / 4096 + 2) a len
    let xs ← streamRows r len as
    return x :: xs

/-- A list in an order that a number picks: the writes of one block are performed in no defined order (R228). -/
def shuffle {α : Type} : Nat → Nat → List α → List α
  | 0, _, l => l
  | fuel + 1, v, l =>
    match l[v % max 1 l.length]? with
    | none => l
    | some x => x :: shuffle fuel (v / max 1 l.length) (l.eraseIdx (v % max 1 l.length))

/-- Writes of rows, with their poison. -/
def writeRows (r : Req) : List (Nat × List (BitVec 8) × List Bool) → M Unit
  | [] => return ()
  | (a, bs, marks) :: rest => do
    writeMarked r a bs marks true
    writeRows r rest

/-- Bytes given up after a second detected error are free (R338). -/
def spoilBytes (v : Nat) (bs : List (BitVec 8)) : List (BitVec 8) := bs.mapIdx fun i _ => BitVec.ofNat 8 (v >>> (8 * i))

/-- Byte `x` lies in a destination (address, pitch, bytes of a row, rows) that may still be written. -/
def inRows (x : Nat) (d : Nat × Nat × Nat × Nat) : Bool :=
  let (a, pitch, len, rows) := d
  decide (a ≤ x) && decide (x < a + min (rows - 1) ((x - a) / max 1 pitch) * pitch + len)

/-- Source bytes that earlier blocks may still be writing are old or new ones: free values (R228). -/
def blurBytes (writing : List (Nat × Nat × Nat × Nat)) (a v : Nat) (bs : List (BitVec 8)) : List (BitVec 8) :=
  bs.mapIdx fun i x => if writing.any (inRows (a + i)) then BitVec.ofNat 8 (v >>> (8 * i)) else x

/-- Rows copied from `src` to `dst`, where earlier blocks may still be `writing`; `lost` when a second error has been detected in
the block. -/
def copyRows (r : Req) (b dst dstPitch : Nat) (lost : Bool) (writing : List (Nat × Nat × Nat × Nat)) : M Unit := do
  let n := BlockEntry.rows b
  let len := BlockEntry.len b
  if len = 0 then return ()
  let rows ← streamRows r len ((List.range n).map fun i => BlockEntry.src b + i * BlockEntry.srcPitch b)
  let (v, s) := (← get).draw
  let (u, s) := if lost || !writing.isEmpty then s.draw else (0, s)
  set s
  let rows := rows.mapIdx fun i x =>
    if writing.isEmpty then x
    else (blurBytes writing (BlockEntry.src b + i * BlockEntry.srcPitch b) (u >>> (8 * i * len)) x.1, x.2)
  let rows := if lost then rows.map fun x => (spoilBytes u x.1, x.2) else rows
  writeRows r (shuffle n v (rows.mapIdx fun i x => (dst + i * dstPitch, x.1, x.2)))
  if lost then failWith Status.silentError

/-- The pages of a ring buffer that a block writes have PTE target 0 (R227). -/
def ringPages (r : Req) : Nat → Nat → M Unit
  | 0, _ => return ()
  | n + 1, va => do
    match ← translate r va .write with
    | .device a => if placeOf a = .far then failWith Status.descriptorInvalid
    | .poison => return ()
    | _ => failWith Status.descriptorInvalid
    ringPages r n (va + 4096)

/-- The ring's fences as the op's first RING block must find them (R230). -/
def ringOk (s : State) (w : Nat) : Bool :=
  let n := StreamOp.ringCount w
  let k := StreamOp.ringStart w
  let free := s.fence (StreamOp.freeFence w)
  s.fence (StreamOp.fillFence w) == k && decide (k - n ≤ free) && decide (free ≤ k)

namespace State

/-- The engine a STREAM runs on: its requester and its number in `se_replays` (R217, R510). -/
def streamEngine (s : State) (o : OpRef) (y : Slice) : Req × Nat :=
  let p := y.place.getD 0
  if y.unit = 4 then ({ s.streamReq 0 o 0 with kind := 2, id := p, cluster := none }, 64 + p) else (s.streamReq p o 0, p)

/-- A STREAM is among the eight a central engine runs, or at the head of its cluster's class (R223, R267). -/
def streamTurn (s : State) (o : OpRef) (y : Slice) : Bool :=
  let p := y.place.getD 0
  if y.unit = 4 then s.running && ((AMap.getD s.weevils.queues (32 + p) []).take 8).contains ⟨o, 0⟩
  else y.place.isSome && s.heads o 0 p

/-- The next block of a STREAM whose turn it is. It starts once the writes of earlier blocks that went to a peer are
acknowledged, so that no later block has started when one fails there (R229). DESIGN CHOICE, log entry 22. -/
def nextBlock (s : State) (o : OpRef) : Option (Op × Slice × StreamWork × Nat) :=
  match s.op? o, s.slice? o 0 with
  | some x, some y =>
    match x.body with
    | .stream w =>
      if x.phase == .dispatched && (y.phase == .queued || y.phase == .running) && s.streamTurn o y && !s.unackedOf o then
        (w.list[w.idx]?).map fun b => (x, y, w, b)
      else none
    | _ => none
  | _, _ => none

/-- A STREAM's work begins. -/
def beginStream (s : State) (o : OpRef) (y : Slice) : State :=
  if y.unit = 4 then s.modSlice o 0 fun z => { z with phase := .running } else s.startSlice o 0

/-- Destinations that may still be written when block `b` reads: none where it has `after` set (R225, R228). -/
def stillWriting (w : StreamWork) (b : Nat) : List (Nat × Nat × Nat × Nat) := if BlockEntry.after b then [] else w.writing

/-- The work after block `b` has been copied to `dst`. -/
def afterCopy (w : StreamWork) (b dst pitch : Nat) : StreamWork :=
  { w with writing := stillWriting w b ++ [(dst, pitch, BlockEntry.len b, BlockEntry.rows b)] }

/-- A block done: the next one, or the end of the op after the last (R226). -/
def blockDone (s : State) (o : OpRef) (w : StreamWork) : State :=
  let s := s.modOp o fun x => { x with waitMet := false, body := .stream { w with idx := w.idx + 1, blocks := w.blocks + 1 } }
  if w.list.length ≤ w.idx + 1 then s.stopSlice o 0 Status.ok 0 0 else s.latchBodies

/-- A STREAM stops at a failing block (R229). -/
def blockFails (s : State) (o : OpRef) (k status : Nat) (low : Nat := 0) : State := s.stopSlice o 0 status low (min k 0xFFFF)

/-- A block with `after` set, a SIGNAL or a credit waits until earlier writes are performed (R225, R226). -/
def writesOut (s : State) (o : OpRef) : Bool := s.unackedOf o

/-- A block that passed on its second run: counted and reported (R338, R345). -/
def blockReplayed (s : State) (o : OpRef) (nn errors : Nat) : State :=
  if errors = 1 then (s.addObj 0x5041 nn 1).notePassed o 0x5041 nn else s

/-- A COPY block; `errors` detected errors in it (R226, R228, R338). -/
def runCopyBlock (s : State) (o : OpRef) (errors : Nat) : State :=
  match s.nextBlock o with
  | none => s
  | some (_, y, w, b) =>
    if BlockEntry.kind b ≠ 0 || (BlockEntry.after b && s.writesOut o) then s
    else
      let s := s.beginStream o y
      if copyOverlaps b then s.blockFails o w.blocks Status.overlapRejected
      else
        let (r, nn) := s.streamEngine o y
        s.runM (copyRows r b (BlockEntry.dst b) (BlockEntry.dstPitch b) (decide (2 ≤ errors)) (stillWriting w b))
          (fun _ t => (t.blockReplayed o nn errors).blockDone o (afterCopy w b (BlockEntry.dst b) (BlockEntry.dstPitch b)))
          (fun st code t => t.blockFails o w.blocks st (code % 256))

/-- A RING block: the ring's fences checked once, the credit awaited, the buffer filled, `fill_fence` raised (R230). -/
def runRingBlock (s : State) (o : OpRef) (errors : Nat) : State :=
  match s.nextBlock o with
  | none => s
  | some (x, y, w, b) =>
    if BlockEntry.kind b ≠ 1 || (BlockEntry.after b && s.writesOut o) then s
    else
      let op := x.word
      let n := StreamOp.ringCount op
      let k := StreamOp.ringStart op + w.rings
      let s := s.beginStream o y
      if s.fencePoisoned (StreamOp.freeFence op) || s.fencePoisoned (StreamOp.fillFence op) then
        s.blockFails o w.blocks Status.poisonConsumed
      else if !w.ringChecked && !ringOk s op then s.blockFails o w.blocks Status.descriptorInvalid
      else
        let (r, nn) := s.streamEngine o y
        let w := { w with ringChecked := true }
        let s := s.modOp o fun z => { z with body := .stream w }
        if s.fence (StreamOp.freeFence op) < k + 1 - n then s
        else
          let dst := StreamOp.ringBase op + k % n * StreamOp.ringSize op
          let bytes := BlockEntry.len b * BlockEntry.rows b
          s.runM (do
              ringPages r (ceilDiv bytes 4096) dst
              copyRows r b dst (BlockEntry.len b) (decide (2 ≤ errors)) (stillWriting w b))
            (fun _ t =>
              let t := (t.blockReplayed o nn errors).blockDone o { w with rings := w.rings + 1, writing := stillWriting w b }
              t.applySignal ⟨StreamOp.fillFence op, 1, 1⟩)
            (fun st code t => t.blockFails o w.blocks st (code % 256))

/-- A WAIT block: passed once it has been met; a poisoned fence fails it (R226, R287, R360). -/
def runWaitBlock (s : State) (o : OpRef) : State :=
  match s.nextBlock o with
  | none => s
  | some (_, y, w, b) =>
    if BlockEntry.kind b ≠ 2 then s
    else
      let s := (s.beginStream o y).latchBodies
      if (s.op? o).any (·.waitMet) then s.blockDone o w
      else if s.fencePoisoned (BlockEntry.fence b) then s.blockFails o w.blocks Status.poisonConsumed
      else s

/-- A SIGNAL block, once every write of earlier blocks is performed (R226). -/
def runSignalBlock (s : State) (o : OpRef) : State :=
  match s.nextBlock o with
  | none => s
  | some (_, y, w, b) =>
    if BlockEntry.kind b ≠ 3 || s.writesOut o then s
    else
      ((s.beginStream o y).blockDone o { w with writing := [] }).applySignal
        ⟨BlockEntry.fence b, if BlockEntry.sigMax b then 2 else 1, BlockEntry.value b⟩

/-- A CHAIN block: the engine reads the next list, and goes on with it (R226, R227). -/
def runChainBlock (s : State) (o : OpRef) : State :=
  match s.nextBlock o with
  | none => s
  | some (x, y, w, b) =>
    if BlockEntry.kind b ≠ 4 then s
    else
      let s := s.beginStream o y
      s.runM (readList (s.streamEngine o y).1 x.word (BlockEntry.src b) (BlockEntry.len b) (w.blocks + 1))
        (fun l t => (t.modOp o fun z => { z with body := .stream { w with list := l, idx := 0, blocks := w.blocks + 1 } }).latchBodies)
        (fun st code t => t.blockFails o (code / 65536) st)

/-- STREAM: dispatched, and placed on a cluster or queued at its central engine (R224, R268). -/
def streamOp (s : State) (o : OpRef) : State :=
  let fresh := (s.op? o).any fun x => x.phase == .waiting
  let s := s.dispatch o 0x07 readStream
  match s.op? o with
  | none => s
  | some x =>
    if x.phase != .dispatched || OpHdr.opcode x.word != 0x07 then s
    else
      let s := if fresh && StreamOp.engine x.word != 0 then s.queueAtLead o 0 (31 + StreamOp.engine x.word) else s
      (s.placeAll o).latchBodies

end State

/-- STREAM (R224). -/
def execStream (o : OpRef) (s : State) : Outcome State Fault Refusal :=
  .next (if s.running then s.streamOp o else s)

/-- COPY_BLOCK (R226). -/
def execCopyBlock (o : OpRef) (s : State) : Outcome State Fault Refusal :=
  .next (if s.running then s.runCopyBlock o 0 else s)

/-- RING_BLOCK (R230). -/
def execRingBlock (o : OpRef) (s : State) : Outcome State Fault Refusal :=
  .next (if s.running then s.runRingBlock o 0 else s)

/-- WAIT_BLOCK (R226). -/
def execWaitBlock (o : OpRef) (s : State) : Outcome State Fault Refusal :=
  .next (if s.running then s.runWaitBlock o else s)

/-- SIGNAL_BLOCK (R226). -/
def execSignalBlock (o : OpRef) (s : State) : Outcome State Fault Refusal :=
  .next (if s.running then s.runSignalBlock o else s)

/-- CHAIN_BLOCK (R227). -/
def execChainBlock (o : OpRef) (s : State) : Outcome State Fault Refusal :=
  .next (if s.running then s.runChainBlock o else s)

/-- STREAM_BLOCK_REPLAY (R338): the next COPY or RING block has an error detected in it and runs again, and passes, or
`fails` a second time. -/
def execStreamBlockReplay (o : OpRef) (fails : Bool) (s : State) : Outcome State Fault Refusal :=
  let n := if fails then 2 else 1
  match s.nextBlock o with
  | some (_, _, _, b) =>
    .next (if !s.running then s else if BlockEntry.kind b = 0 then s.runCopyBlock o n else s.runRingBlock o n)
  | none => .next s

end Sys2Proof.Machine
end

