-- ==== Sys2Proof/Machine/Arbiter.lean ====
section
/-! DEFINITION. The shared-port arbiters (11_arbitration.md, R239 to R249): rounds, grants, preemption, and the taking of
committed slot values. Arbiter instances are numbered by kind * 256 + instance. -/

namespace Sys2Proof.Machine

open Host (Outcome)

namespace ArbSlot
def burst (v : Nat) : Nat := bits v 28 16
def waitLimit (v : Nat) : Nat := bits v 15 8
def basePrio (v : Nat) : Nat := bits v 3 0
end ArbSlot

namespace State

/-- A slot of kind `kk` as a reset leaves it (R241, R242). -/
def freshSlot (s : State) (kk i : Nat) : Slot :=
  let v := s.obj (0x7010 + kk) i
  { basePrio := ArbSlot.basePrio v, effPrio := ArbSlot.basePrio v, waitLimit := ArbSlot.waitLimit v, burst := ArbSlot.burst v }

/-- An instance that has had nothing to do since its reset. -/
def freshArb (s : State) (kk : Nat) : Arb := { slots := (List.range 32).map (s.freshSlot kk) }

def arbKey (kk inst : Nat) : Nat := kk * 256 + inst

def arb (s : State) (kk inst : Nat) : Arb := AMap.getD s.arbs (arbKey kk inst) (s.freshArb kk)

def setArb (s : State) (kk inst : Nat) (x : Arb) : State := { s with arbs := AMap.set s.arbs (arbKey kk inst) x }

/-- The instance exists (R239). -/
def arbExists (s : State) (kk inst : Nat) : Bool := decide (kk < 6) && decide (inst < s.obj 0x7000 kk)

end State

/-- How many sources the ports of R239 have: the network-on-chip's injection points are those of 66 clusters, 32 Weevils, four central
stream engines, the Spine and the management core. -/
def arbSources (kk inst : Nat) : Nat :=
  match kk with
  | 0 => 8
  | 1 => 8
  | 2 => if inst < 66 then 7 else if inst < 98 then 3 else if inst < 102 then 8 else 1
  | 3 => 6
  | 4 => 7
  | _ => 5

/-- The class of a request (R240); none of an op whose context has ended. -/
def State.issuerClass (s : State) (i : Issuer) : Option Nat :=
  match i with
  | .op o => if (s.ctx o.ctx).phase = .opened then some ((s.ctx o.ctx).cls % 4) else none
  | .scrub => some 3
  | .placement => some 3
  | .shardMove => some 3
  | .walk c => some (c % 4)
  | .hello => some 1
  | .routing => some 1
  | .transit c => some (c % 4)
  | .other c => some (c % 4)

/-- A request enters its slot (R240); every request is one TLP at a host egress and one frame at a Sharel egress (R245). One of a source
that the port does not have enters none. -/
def State.enterSlot (s : State) (kk inst : Nat) (a : Arb) (x : Arrival) : Arb :=
  match s.issuerClass x.issuer with
  | some c =>
    if x.source < arbSources kk inst ∧ x.beats ≠ 0 then
      let r : ArbReq := { issuer := x.issuer, beats := x.beats, whole := x.whole || kk == 3 || kk == 4
                          since := if a.grant.isSome then x.since else 0 }
      a.mapSlots fun i y => if i = 8 * c + x.source then { y with queue := y.queue ++ [r] } else y
    else a
  | none => a

/-- Requests arrive at an instance, in order. -/
def State.arriveAt (s : State) (kk inst : Nat) (a : Arb) (l : List Arrival) : Arb := l.foldl (s.enterSlot kk inst) a

/-- The candidates of a round, those of them whose wait forces a win, and the pool the winner comes from (R244). -/
def Arb.cands (a : Arb) : List Nat := a.those fun i x => x.requests && (!a.preempted || slotClass i == 0)

def Arb.forced (a : Arb) : List Nat := a.cands.filter fun i => decide ((a.slot i).waitLimit ≤ (a.slot i).wait)

/-- The slots of greatest key. -/
def greatest (f : Nat → Nat) (l : List Nat) : List Nat :=
  let m := l.foldl (fun m i => max m (f i)) 0
  l.filter fun i => f i == m

def Arb.pool (a : Arb) : List Nat :=
  if a.forced.isEmpty then greatest (fun i => (a.slot i).effPrio) a.cands else greatest (fun i => (a.slot i).wait) a.forced

/-- The winner of a round (R244): of the lowest class in the pool, the first after the last winner. -/
def Arb.winner (a : Arb) : Option Nat :=
  let low := a.pool.foldl (fun c i => min c (slotClass i)) 4
  let l := a.pool.filter fun i => slotClass i == low
  (List.range 32).findSome? fun k =>
    let i := (a.lastWinner + 1 + k) % 32
    if l.contains i then some i else none

/-- One round and the grant it starts (R244). -/
def Arb.round (a : Arb) : Arb :=
  match a.winner with
  | none => a
  | some w =>
    let x := a.slot w
    let grant := if x.resume then (w, x.progress, x.burstHeld) else (w, 0, x.burst)
    let cands := a.cands
    let a := a.mapSlots fun i y =>
      if i = w then { y with effPrio := y.basePrio, wait := 0, resume := false }
      else if cands.contains i then { y with effPrio := min (y.effPrio + 1) 15, wait := min (y.wait + 1) 255 }
      else y
    { a with lastWinner := w, grant := some grant, preempted := false }

/-! ### Grants (R245, R246) -/

/-- How a grant ends (R245, R246). -/
inductive GrantEnd where
  | emptied | limit | preempted
deriving DecidableEq, Repr

/-- The queue after one more step of a transfer: a beat, or the whole of an indivisible access; and the beats it took (R245). -/
def stepQueue : List ArbReq → Nat × List ArbReq
  | [] => (0, [])
  | r :: rs => if r.whole || r.beats ≤ 1 then (r.beats, rs) else (1, { r with beats := r.beats - 1 } :: rs)

/-- A queue requests at the boundary after `p` beats of a grant: what has arrived by then. -/
def requestsAt (p : Nat) (q : List ArbReq) : Bool :=
  match q with
  | [] => false
  | r :: _ => decide (r.since < p)

/-- A class-0 slot requests at the boundary after `p` beats of a grant. -/
def Arb.urgent (a : Arb) (p : Nat) : Bool :=
  !(a.those fun i x => slotClass i == 0 && x.queue.any fun r => decide (r.since < p)).isEmpty

/-- The first boundary of a grant of slot `w` at which it ends (R245, R246): how, after how many beats, and what its queue then holds.
`done` beats were transferred before it was preempted, `p` since. The queue empty, the limit and a preemption are asked in that order. -/
def Arb.grantRun (a : Arb) (w done limit : Nat) : Nat → Nat → List ArbReq → GrantEnd × Nat × List ArbReq
  | 0, p, q => (.emptied, p, q)
  | fuel + 1, p, q =>
    let (n, rest) := stepQueue q
    let p := p + n
    if !requestsAt p rest then (.emptied, p, rest)
    else if limit ≤ done + p then (.limit, p, rest)
    else if 2 ≤ slotClass w && a.urgent p then (.preempted, p, rest)
    else grantRun a w done limit fuel p rest

/-- The end of the grant in force (R245). -/
def Arb.ends (a : Arb) (w done limit : Nat) : GrantEnd × Nat × List ArbReq :=
  let q := (a.slot w).queue
  a.grantRun w done limit (q.foldl (fun n r => n + r.beats) 1) 0 q

/-- The instance after the end of its grant (R245, R246): what arrived during it has no more place in time. -/
def Arb.endGrant (a : Arb) (w done limit : Nat) (e : GrantEnd × Nat × List ArbReq) : Arb :=
  let a := a.mapSlots fun i x =>
    let x := if i = w then
        match e.1 with
        | .emptied => if e.2.2.isEmpty then { x.idle with queue := [] } else { x with queue := e.2.2, effPrio := x.basePrio, wait := 0 }
        | .preempted =>
          { x with queue := e.2.2, resume := true, progress := done + e.2.1, burstHeld := limit, effPrio := 15 }
        | .limit => { x with queue := e.2.2 }
      else x
    { x with queue := x.queue.map fun r => { r with since := 0 } }
  { a with grant := none, preempted := e.1 == .preempted }

namespace State

/-- Committed slot values taken at a round boundary (R243). -/
def takeSlots (s : State) (kk : Nat) (a : Arb) : Arb :=
  if a.stale then
    { a.mapSlots (fun i x =>
        let f := s.freshSlot kk i
        { x with basePrio := f.basePrio, effPrio := f.basePrio, waitLimit := f.waitLimit, burst := f.burst })
      with stale := false }
  else a

/-- After a commit of `arb_slot` objects of kind `kk`: instances without a grant take the values at once, others at their
next round boundary (R243). -/
def staleArbs (s : State) (kk : Nat) : State :=
  { s with arbs := s.arbs.map fun (e : Nat × Arb) =>
      if e.1 / 256 = kk then
        let a := { e.2 with stale := true }
        (e.1, if a.grant.isSome then a else s.takeSlots kk a)
      else e }

/-- `arb_commit_pending` (R243). -/
def arbPending (s : State) : Bool := s.arbs.any fun e => e.2.stale

/-- ARBITER_ROUND: requests arrive, and a round runs when no grant is in force (R244, R249). -/
def arbRound (s : State) (kk inst : Nat) (arrivals : List Arrival) : State :=
  if !s.running || !s.arbExists kk inst then s
  else
    let a := s.arriveAt kk inst (s.takeSlots kk (s.arb kk inst)) arrivals
    if a.grant.isSome || a.winner.isNone then s.setArb kk inst (s.arriveAt kk inst (s.arb kk inst) arrivals)
    else
      let b := a.round
      let s := if a.forced.isEmpty then s else s.addObj 0x7021 kk 1
      let s := if (a.winner.map fun w => (a.slot w).resume) == some true then s.addObj 0x7022 kk 1 else s
      s.setArb kk inst b

/-- GRANT_END: the grant in force runs to the first boundary at which it ends, with what arrives during it (R245, R246, R249). It ends
there, so a command after another number of beats is none of this grant. -/
def grantEnd (s : State) (kk inst beats : Nat) (arrivals : List Arrival) : State :=
  if !s.running || !s.arbExists kk inst then s
  else
    let a := s.arriveAt kk inst (s.arb kk inst) arrivals
    match a.grant with
    | none => s
    | some (w, done, limit) =>
      let e := a.ends w done limit
      if e.2.1 ≠ beats then s else
      let s := if e.1 = .preempted then s.addObj 0x7020 kk 1 else s
      s.setArb kk inst (s.takeSlots kk (a.endGrant w done limit e))

end State

/-- ARBITER_ROUND (R244). -/
def execArbiterRound (kk inst : Nat) (arrivals : List Arrival) (s : State) : Outcome State Fault Refusal :=
  .next (s.arbRound kk inst arrivals)

/-- GRANT_END (R245). -/
def execGrantEnd (kk inst beats : Nat) (arrivals : List Arrival) (s : State) : Outcome State Fault Refusal :=
  .next (s.grantEnd kk inst beats arrivals)

end Sys2Proof.Machine
end

