-- ==== Sys2Proof/Machine/Switch.lean ====
section
/-! DEFINITION. Residency, context switches and moving clusters (14_contexts_and_scheduling.md, R320 to R329). -/

namespace Sys2Proof.Machine

open Host (Outcome)

namespace State

/-! ### Context switches (R320 to R323, R326) -/

/-- A core holds state of a context: its task, or a code image it keeps. -/
def coreOf (n : Nat) (c : Core) : Bool := c.task.any (fun t => t.o.ctx == n) || c.image.any fun i => i.o.ctx == n

/-- An engine holds tiles of a context. -/
def engineOf (n : Nat) (e : Engine) : Bool := e.bufs.any (fun b => b.o.ctx == n) || e.foreign.any fun b => b.o.ctx == n

/-- Slices of other contexts wait at the Stitcher; the context whose turn comes next: of lowest class, and within a class
the one whose oldest slice has waited longest (R321). -/
def incoming (s : State) (c : Nat) : Option Nat :=
  let x := s.cluster c
  let l := (x.queue.filter fun r => x.resident != some r.o.ctx).map (·.o.ctx)
  let low := l.foldl (fun m n => min m (s.ctx n).cls) 4
  l.find? fun n => (s.ctx n).cls == low

/-- The units of a context on cluster `c` taken off the cluster: engines keep their lanes, cores what a canary asks. -/
def clearUnits (s : State) (c : Nat) (n : Nat) : State :=
  { s with
    cores := s.cores.map fun (y : Nat × Core) =>
      if y.1 / 4 = c ∧ coreOf n y.2 then (y.1, ({ mustPass := y.2.mustPass } : Core)) else y
    engines := s.engines.map fun (y : Nat × Engine) =>
      if y.1 / 2 = c then (y.1, { y.2 with bufs := y.2.bufs.filter (fun b => b.o.ctx != n),
                                           foreign := y.2.foreign.filter (fun b => b.o.ctx != n) })
      else y }

/-! ### The units in a swap slot (R323) -/

/-- Offset of core `k` in a slot, and of the accumulator buffer of engine `e`. -/
def coreAt (k : Nat) : Nat := 0x340000 + k * 0x24000
def engineAt (e : Nat) : Nat := 0x300000 + e * 0x20000

/-- Registers, or other things of a fixed size, written into the `len` bytes from address `a` on. -/
def putWords (s : State) (a n len : Nat) (l : AMap Nat) : State :=
  l.foldl (fun t e => if n * e.1 + n ≤ len then t.writeNat (a + n * e.1) n e.2 else t) s

/-- The cells that lie in `[a, a + n)`, by their offset. -/
def cellsIn (s : State) (a n : Nat) : AMap (BitVec 8) :=
  (s.mem.filter fun c => decide (a ≤ c.1) && decide (c.1 < a + n)).map fun c => (c.1 - a, c.2)

/-- The `n`-byte numbers in `[a, a + len)` that are not zero, by their place. -/
def getWords (s : State) (a n len : Nat) : AMap Nat :=
  (s.cellsIn a len).foldl (fun m c => AMap.put 0 m (c.1 / n) (s.readNat (a + c.1 / n * n) n)) []

/-- The state of a tidy core as its part of a slot at address `a` holds it (R61, R323). Within the places that R323 names registers
and table slots stand in ascending order without gaps (DESIGN CHOICE, log entry 58). -/
def coreOut (s : State) (a : Nat) (c : Core) : State :=
  let s := s.zeroRange a 0x24000
  let s := s.putWords a 4 0x10000 c.imem
  let s := s.putWords (a + 0x10000) 1 0x10000 (c.dmem.map fun x => (x.1, x.2.toNat))
  let s := s.putWords (a + 0x20000) 256 0x2000 (c.v.map fun x => (x.1, x.2.toNat))
  let s := s.putWords (a + 0x22000) 8 0x100 (c.s.map fun x => (x.1, x.2.toNat))
  let s := s.putWords (a + 0x22100) 32 0x100 (c.m.map fun x => (x.1, x.2.toNat))
  let s := (s.writeNat (a + 0x22200) 8 c.pc).writeNat (a + 0x22208) 8 c.flags
  c.tables.foldl (fun t e => t.putWords (a + 0x22400 + 1032 * (e.1 % 4)) 4 1032 (e.2.zipIdx.map fun x => (x.2, x.1))) s

/-- A tidy core with the state that its part of a slot holds, as it stands (R314). -/
def coreIn (s : State) (a : Nat) (c : Core) : Core :=
  { c with
    imem := s.getWords a 4 0x10000
    dmem := s.cellsIn (a + 0x10000) 0x10000
    v := (s.getWords (a + 0x20000) 256 0x2000).map fun x => (x.1, BitVec.ofNat 2048 x.2)
    s := (s.getWords (a + 0x22000) 8 0x100).map fun x => (x.1, BitVec.ofNat 64 x.2)
    m := (s.getWords (a + 0x22100) 32 0x100).map fun x => (x.1, BitVec.ofNat 256 x.2)
    pc := s.readNat (a + 0x22200) 8 % 2 ^ 14
    flags := s.readNat (a + 0x22208) 8 % 32
    tables := c.tables.map fun e => (e.1, (List.range e.2.length).map fun i => s.readNat (a + 0x22400 + 1032 * (e.1 % 4) + 4 * i) 4) }

/-- The accumulators of the tile an engine computes, in its buffer of the slot at address `a`. -/
def tilesOut (s : State) (a : Nat) (e : Engine) : State :=
  match e.bufs.getLast? with
  | some b => (s.zeroRange a 0x20000).putWords a 4 0x10000 (b.acc.zipIdx.map fun x => (x.2, x.1))
  | none => s

/-- The tile an engine computes with the accumulators that the slot holds. -/
def tilesIn (s : State) (a : Nat) (bufs : List TileBuf) : List TileBuf :=
  match bufs.getLast? with
  | some b => bufs.dropLast ++ [{ b with acc := (List.range b.acc.length).map fun i => s.readNat (a + 4 * i) 4 }]
  | none => []

/-- The outgoing context saved into a slot: working region, engines and cores that hold its state (R323). Its slices wait from now on,
behind those that wait already (R321); an access of its units that is stalled is made again after the restore (R86). -/
def saveOut (s : State) (c n k : Nat) : State :=
  let p := (s.ctx n).partition
  let saved : Saved := {
    slot := k
    engines := (s.engines.filter fun e => e.1 / 2 == c && engineOf n e.2).map fun e => (e.1 % 2, e.2)
    cores := (s.cores.filter fun e => e.1 / 4 == c && coreOf n e.2).map fun e => (e.1 % 4, e.2)
    slices := (s.cluster c).queue.filter fun r => r.o.ctx == n }
  let s := s.copyRange (storeAddr c 0) (s.slotAddr p k) (s.wsBytes p)
  let s := saved.engines.foldl (fun t e => t.tilesOut (s.slotAddr p k + engineAt e.1) e.2) s
  let s := saved.cores.foldl (fun t e => t.coreOut (s.slotAddr p k + coreAt e.1) e.2) s
  let s := (s.clearUnits c n).dropStalls fun r => r.ctx == n && unitOf c r.who
  let x := s.cluster c
  s.setCluster c { x with
    saved := AMap.set x.saved n saved
    queue := (x.queue.filter fun r => r.o.ctx != n) ++ x.queue.filter fun r => r.o.ctx == n }

/-- Some atom of `n` bytes from `a` on is poisoned. -/
def rangePoisoned (s : State) (a n : Nat) : Bool :=
  s.withdrawn a || s.poison.any fun x => decide (a ≤ x * 64) && decide (x * 64 < a + n)

/-- The slot of a saved context meets poison in what a restore reads (R323). -/
def slotPoisoned (s : State) (p : Nat) (v : Saved) : Bool :=
  let a := s.slotAddr p v.slot
  s.rangePoisoned a (s.wsBytes p) || v.engines.any (fun e => s.rangePoisoned (a + engineAt e.1) 0x20000) ||
    (v.cores.any fun k => s.rangePoisoned (a + coreAt k.1) 0x24000) ||
    (!v.slices.isEmpty && s.rangePoisoned (a + 0x3D0000) 0x30000)

/-- The saved units of a context put back on cluster `c`, with what the slot at address `a` holds of them. -/
def restoreUnits (s : State) (c a : Nat) (v : Saved) : State :=
  let s := v.engines.foldl (fun t e => t.setEngine c e.1 { t.engine c e.1 with
    bufs := s.tilesIn (a + engineAt e.1) e.2.bufs, foreign := e.2.foreign }) s
  v.cores.foldl (fun t k => t.setCore (4 * c + k.1) { s.coreIn (a + coreAt k.1) k.2 with
    mustPass := (t.core (4 * c + k.1)).mustPass }) s

/-- The units of cluster `c` have no access outstanding (R86): no store in the posted word path, no frame unacknowledged, no reply of
a peer awaited. -/
def unitsQuiet (s : State) (c : Nat) : Bool :=
  ((List.range 4).all fun k => s.coreBusy (4 * c + k) == 0) &&
    !(s.fabric.send.any fun e => e.2.unacked.any fun f => f.2.any fun p => unitOf c p.who) &&
    !s.fabric.reads.any fun x => unitOf c x.who && !x.finished

/-- CONTEXT_SWITCH: the outgoing context is saved, and the incoming one is chosen. Without a free slot the outgoing one
stays, which counts and is reported; the switch is tried again once a slot is free. It waits for a replay, a resume or a use of
the device area to end, and for outstanding accesses (R86, R321, R322, R326, R333). -/
def switchOut (s : State) (c : Nat) : State :=
  let x := s.cluster c
  if !s.running || x.mode != .serving || x.devArea.isSome || s.replaying c || !s.unitsQuiet c || s.clusterReserved c || !s.partValid (s.clusterPart c) then s
  else
    match s.incoming c with
    | none => s
    | some n =>
      match x.resident with
      | none => s.setCluster c { x with mode := .switching none n }
      | some m =>
        let p := (s.ctx m).partition
        match s.freeSlot p c with
        | none =>
          if x.needsRetry then s
          else ((s.setCluster c { x with needsRetry := true }).addObj 0x3032 p 1).raise 4 1 (2 ^ p) 0x3032 p 0
        | some k =>
          let s := s.saveOut c m k
          s.setCluster c { s.cluster c with resident := none, needsRetry := false, mode := .switching (some m) n }

/-- CONTEXT_RESTORE_COMPLETE: the incoming context's region and units are restored from its slot, which is freed, or its
region is zeroed; it is resident from now (R320, R323). The slices that its Stitcher held at the save are the restored ones
(R322); poison in what is read fails them. -/
def switchIn (s : State) (c : Nat) : State :=
  let x := s.cluster c
  match x.mode with
  | .switching _ n =>
    if !s.running then s
    else if (s.ctx n).phase ≠ .opened then s.setCluster c { x with mode := .serving }
    else
      let p := (s.ctx n).partition
      match AMap.get? x.saved n with
      | none => (s.zeroRange (storeAddr c 0) (s.wsBytes p)).setCluster c { x with mode := .serving, resident := some n }
      | some v =>
        let bad := s.slotPoisoned p v
        let s := s.copyRange (s.slotAddr p v.slot) (storeAddr c 0) (s.wsBytes p)
        let s := s.restoreUnits c (s.slotAddr p v.slot) v
        let s := s.setCluster c { x with mode := .serving, resident := some n, saved := AMap.erase x.saved n }
        if bad then
          s.killSlices c (fun r => v.slices.contains r) Status.poisonConsumed 0
        else s
  | _ => s

/-! ### Moves (R328, R329) -/

/-- A commit moves cluster `c` from the `cluster_part` value `old`: slices that have not started return to the Spine
(step 1). -/
def beginMove (s : State) (c old : Nat) : State :=
  let s := s.returnSlices c fun _ => true
  s.setCluster c { s.cluster c with moving := true, oldPart := old }

/-- `repart_pending` (R328). -/
def movePending (s : State) : Bool := s.clusters.any fun x => x.2.moving

/-- Steps 3 and 4: the working regions on the cluster are discarded, its software area is zeroed, and it serves the partition
committed for it. -/
def adoptCluster (s : State) (c : Nat) : State :=
  let x := s.cluster c
  let cores := s.cores.map (fun (y : Nat × Core) => if y.1 / 4 = c then (y.1, ({ mustPass := y.2.mustPass } : Core)) else y)
  let s := { s.zeroRange (storeAddr c 0) 0x300000 with cores := cores }
  s.setCluster c { x with moving := false, oldPart := 0xF, resident := none, saved := [], mode := .serving, needsRetry := false }

/-- CLUSTER_MOVE_HANDOVER: no slice of the old partition is left on a moving cluster (R328). -/
def moveHandover (s : State) (c : Nat) : State :=
  let x := s.cluster c
  if !s.running || !x.moving || x.mode == .handover || x.mode == .resetting || !x.queue.isEmpty then s
  else
    let s := s.adoptCluster c
    if s.movePending then s else s.raiseAs 2 0 0xFF 0x3002 1 0 0

/-- MOVE_WAIT_EXPIRY: slices still running stop, and their ops fail with INTERNAL and 0x30 (step 2). -/
def moveExpired (s : State) (c : Nat) : State :=
  if s.running && (s.cluster c).moving then
    s.killSlices c (fun r => (s.slice? r.o r.k).any fun y => y.phase == .running) Status.internal 0x30
  else s

end State

/-- CONTEXT_SWITCH (R321). -/
def execContextSwitch (cc : Nat) (s : State) : Outcome State Fault Refusal := .next (s.switchOut cc)

/-- CONTEXT_RESTORE_COMPLETE (R323). -/
def execContextRestoreComplete (cc : Nat) (s : State) : Outcome State Fault Refusal := .next (s.switchIn cc)

/-- CLUSTER_MOVE_HANDOVER (R328). -/
def execClusterMoveHandover (cc : Nat) (s : State) : Outcome State Fault Refusal := .next (s.moveHandover cc)

/-- MOVE_WAIT_EXPIRY (R328). -/
def execMoveWaitExpiry (cc : Nat) (s : State) : Outcome State Fault Refusal := .next (s.moveExpired cc)

end Sys2Proof.Machine
end

