-- ==== Sys2Proof/Machine/Fabric.lean ====
section
/-! DEFINITION. Receiving on the Sharel fabric, and the fabric's own commands (17_sharel_fabric.md): the order of frames in a
stream, acknowledgements and refusals, the inbound window, discovery, addresses and routes. -/

namespace Sys2Proof.Machine

open Host (Outcome)

/-- The status that a peer's refusal gives the requester's op (R377). -/
def peerStatus (st : Nat) : Nat :=
  if st = 0x32 then Status.versionUnsupported
  else if st = 0x0102 then Status.fabricUnreachable
  else Status.fabricPeerFault

/-- `a` comes at most `2^31 - 1` after `b`, modulo 2^32. -/
def seqAfter (a b : Nat) : Bool := let d := (a + 2 ^ 32 - b) % 2 ^ 32; decide (1 ≤ d) && decide (d < 2 ^ 31)

/-- What becomes of a frame: delivered, refused with a status (R377), or not taken yet, so that it keeps its receive buffer (R385). -/
inductive Taken where
  | done
  | refused (status : Nat)
  | waits
deriving DecidableEq, Repr

namespace State

/-! ### Failures of frames (R377, R383, R386) -/

/-- Result word bits [31:16] of an op whose write was refused or given up at a peer: a STREAM's failing block, the last one
done (R229); an op over tables keeps what its parts gave (R165). -/
def fabricHigh (x : Op) (code : Nat) : Nat :=
  match x.body with
  | .stream w => min (w.blocks - 1) 0xFFFF
  | .tables .. => x.high
  | _ => code

/-- An op of the fabric's traffic fails where it stands: its slice, or the op itself once its slices are over. A table slice takes
the highest of the causes it meets, and a zero of a failed part (requester 999) fails nothing (R165). -/
def failWork (s : State) (p : Payer) (status code : Nat) : State :=
  match s.op? p.o with
  | none => s
  | some x =>
    if p.index = 999 then s
    else if x.phase = .settled then
      if Status.failed x.status then s
      else s.modOp p.o fun y => { y with status := status, low := 0, high := fabricHigh x code }
    else if x.phase ≠ .dispatched then s
    else
      match x.body with
      | .remote w => s.modOp p.o fun y => { y with body := .remote { w with finished := true, status := status, code := code } }
      | .stream _ => s.modSlice p.o p.index fun y =>
          if Status.failed y.status then y
          else if y.phase = .running then { y with phase := .ended, status := status, high := fabricHigh x code }
          else { y with status := status, high := fabricHigh x code }
      | .tables _ _ _ => s.modSlice p.o p.index fun y =>
          { y with status := topCause (if Status.failed y.status then [y.status, status] else [status]) }
      | _ => s.modSlice p.o p.index fun y =>
          if Status.failed y.status then y
          else if y.unit = 2 ∧ y.phase = .running then { y with phase := .ended, status := status }
          else { y with status := status }

/-- A frame that concerns someone was refused or given up. -/
def failPayer (s : State) (p : Payer) (status code : Nat) : State :=
  match p.who with
  | .mailbox nn => s.mboxFail nn status
  | .core _ =>
    match s.cores.find? fun c => c.2.task.any fun t => t.o == p.o && t.index == p.index with
    | some c =>
      let (v, s) := s.draw
      s.stopTask c.1 status (causeOf status true v)
    | none => s.failWork p status code
  | .engine cc _ =>
    match s.slice? p.o p.index with
    | some y => if y.phase = .running then s.failSlice p.o p.index cc status (code * 65536) else s.failWork p status code
    | none => s
  | _ => s.failWork p status code

/-- A remote read ends with a failure; its requester meets it when it tries again, a mailbox at once. -/
def failRead (s : State) (p : RemoteRead → Bool) (status code : Nat) : State :=
  let mine := s.fabric.reads.filter p
  let after := s.fabric.reads.map fun (x : RemoteRead) =>
    if p x then { x with finished := true, status := status, code := code } else x
  let s := { s with fabric := { s.fabric with reads := after } }
  mine.foldl (fun t x => match x.who with
    | .mailbox nn => t.mboxResume nn
    | _ => t) s

/-- The REMOTE_GATHER that a tag of a peer belongs to. -/
def gatherOf (s : State) (peer tag : Nat) : Option OpRef :=
  s.ctxs.findSome? fun c => c.2.entries.findSome? fun e => e.quire.bind fun q =>
    ((List.range q.ops.length).find? fun i => match (q.ops[i]?).map fun (x : Op) => x.body with
      | some (.remote w) => w.peer == peer && w.tag == tag && !w.finished
      | _ => false).map fun i => ⟨c.1, e.n, i⟩

/-- The ops that a list of frames concerns, each once. -/
def payersOf (l : List (Frame × Option Payer)) : List Payer :=
  l.foldl (fun ps f => match f.2 with
    | some p => if f.1.type = 1 ∨ ps.contains p then ps else ps ++ [p]
    | none => ps) []

/-- Everything in flight on a stream fails, and the stream has no state any more (R377, R383). -/
def failStream (s : State) (peer cls status code : Nat) : State :=
  let k := streamKey peer cls
  let x := s.sendStream k
  let ps := payersOf x.unacked
  let gs := s.ctxs.flatMap fun c => c.2.entries.flatMap fun e => match e.quire with
    | some q => (List.range q.ops.length).filterMap fun i => match (q.ops[i]?).map fun (x : Op) => x.body with
      | some (.remote w) => if w.peer = peer ∧ c.2.cls % 4 = cls % 4 ∧ w.finished = false then some (⟨c.1, e.n, i⟩ : OpRef) else none
      | _ => none
    | none => []
  let ps := ps ++ (gs.filter fun o => !ps.any fun p => p.o == o).map fun o => ⟨o, .op o 1000, 1000⟩
  let reads := (s.fabric.reads.filter fun r => r.peer == peer && r.cls == cls && !r.finished).length
  let s := s.closeSend k
  let s := if status = Status.fabricUnreachable then s.addObj 0x8051 4 (ps.length + reads) else s
  let s := ps.foldl (fun t p => t.failPayer p status code) s
  s.failRead (fun r => r.peer == peer && r.cls == cls && !r.finished) status code

/-! ### Acknowledgements (R375) -/

/-- Mailbox requests that wait for a peer's acknowledgement go on. -/
def resumeMailboxes (s : State) : State :=
  s.mbox.foldl (fun t x => if x.2.waiting.any fun w => w.sent then t.mboxResume x.1 else t) s

/-- The frames that an acknowledgement covers leave the stream, and further ones may leave egress. -/
def acked (s : State) (peer cls ack : Nat) : State :=
  let k := streamKey peer cls
  let x := s.sendStream k
  let n := (x.unacked.takeWhile fun f => seqAfter ack f.1.seq).length
  if n = 0 ∨ seqAfter ack x.next = true then s
  else
    let s := s.setSendStream k { x with unacked := x.unacked.drop n, sent := x.sent - n, high := x.high - n }
    (s.resumeMailboxes).pump peer cls

/-- A frame outside the streams' order (ACK or NAK) leaves for a peer. -/
def sendDirect (s : State) (peer cls : Nat) (f : Frame) : State :=
  match s.hopOf s.fabric.addr peer cls with
  | some h =>
    if s.hopOpen h cls then
      s.emitFrame h { f with
        version := s.peerVersion peer, cls := cls, last := true, hops := s.obj 0x8021 1, dst := peer, src := s.fabric.addr,
        dstCheck := s.peerCheck peer, ack := s.ackFor (streamKey peer cls) }
    else s
  | none => s

/-- A NAK for a received frame; `seq` names the refused frame (R371, R377). -/
def sendNak (s : State) (f : Frame) (status seq : Nat) : State :=
  s.sendDirect f.src f.cls { blankFrame 7 with seq := seq, tag := f.tag, status := status }

/-! ### Arrival (R369, R370, R374 to R377, R381) -/

/-- The header and payload of a frame of a type obey R370 and R391. -/
def frameOk (f : Frame) (type : Nat) : Bool :=
  f.type == type && (f.version == 2 || f.version == 1) && decide (f.payload.length ≤ if f.version = 2 then 4096 else 2048) &&
    (f.version == 2 || f.poison == 0)

/-- A frame for another device: forwarded with one hop less; discarded where that leaves none, or without a route; kept while its next
hop is paused (R381). The Bool says whether the port is done with it. -/
def transit (s : State) (f : Frame) : State × Bool :=
  if f.hops ≤ 1 then (s.addObj 0x8051 2 1, true)
  else
    match s.hopOf f.src f.dst f.cls with
    | none => (s, true)
    | some h =>
      if s.hopOpen h f.cls then (s.emitFrame h { f with hops := f.hops - 1 }, true)
      else (s, !((s.sharelPort h.1).up && (s.adjOf h).isSome))

/-- `dst_check` of this device. -/
def ownCheck : Nat := leNat (identityHash.take 2)

/-- A sound frame on its way through its port: forwarded where it is not for this device, dropped while the address is not held, refused
where `dst_check` is another's (its refusal goes to no device's NAK or ACK), and otherwise handed to `act` (R377, R379, R381). -/
def takeIn (f : Frame) (act : State → State × Bool) (s : State) : State × Bool :=
  if f.dst ≠ s.fabric.addr then s.transit f
  else if !s.fabric.held then (s, true)
  else if f.dstCheck ≠ ownCheck then
    let t := s.addObj 0x8051 3 1
    (if f.type < 6 then t.sendNak f 0x0102 f.seq else t, true)
  else act s

/-! ### Frames outside the streams (R371, R372) -/

/-- A frame outside the streams leaves a port for its neighbours, in class 1 (R369, R372, R393). R378 names the group address for HELLO;
CLAIM and LSA take it too (log entry 50). -/
def emitControl (s : State) (port : Nat) (m : Control) : State :=
  (s.send (.control port 0x03D7E1000001 (s.pcpOf 1) (s.obj 0x8012 1) m)).addObj 0x8050 port 1

/-- A frame outside the streams is sent on a port, or kept at its egress while class 1 is paused there (R373). -/
def sendControl (s : State) (port : Nat) (m : Control) : State :=
  let x := s.sharelPort port
  if x.paused.contains (s.pcpOf 1) then s.setSharelPort port { x with waiting := x.waiting ++ [m] } else s.emitControl port m

/-- What a pause kept leaves once it has ended. -/
def releaseControl (s : State) (port : Nat) : State :=
  let x := s.sharelPort port
  if x.waiting.isEmpty || x.paused.contains (s.pcpOf 1) then s
  else x.waiting.foldl (fun t m => t.emitControl port m) (s.setSharelPort port { x with waiting := [] })

/-! ### The ingress buffer (R373, R385; log entry 50) -/

/-- The bytes of a frame on the wire: MAC addresses, tag, EtherType, header, payload and FCS (R369, R391). -/
def frameBytes (f : Frame) : Nat := 22 + (if f.version = 1 then 32 else 40) + f.payload.length

/-- The bytes that frames of a priority take in the ingress buffer of a port. -/
def ingressUse (s : State) (port prio : Nat) : Nat :=
  (((s.sharelPort port).ingress.filter fun r => s.pcpOf r.f.cls == prio).map fun r => frameBytes r.f).sum

/-- What the frames of priority `prio` take of the buffer's shared part when they fill `n` bytes: those past the headroom of a PFC
priority. -/
def sharedUse (s : State) (prio n : Nat) : Nat := if flag (s.obj 0x8011 2) prio then n - 2 ^ 18 else n

/-- A frame finds room in a port's 2 MiB, of which 256 KiB are each PFC priority's own. -/
def ingressRoom (s : State) (port : Nat) (f : Frame) : Bool :=
  let own := ((List.range 8).map fun p => if flag (s.obj 0x8011 2) p then 2 ^ 18 else 0).sum
  let use := ((List.range 8).map fun p =>
    s.sharedUse p (s.ingressUse port p + if p = s.pcpOf f.cls then frameBytes f else 0)).sum
  decide (use ≤ 2 ^ 21 - own)

/-- PFC XOFF is sent for a priority of `pfc_mask` whose frames have passed its threshold, and XON once they no longer do. -/
def updatePfc (s : State) (port : Nat) : State :=
  (List.range 8).foldl (fun t p =>
    let x := t.sharelPort port
    let n := t.ingressUse port p
    let above := flag (t.obj 0x8011 2) p && n != 0 && decide (Config.pfcThreshold port p < n)
    if above == x.xoff.contains p then t
    else
      let xoff := if above then insertNat p x.xoff else x.xoff.filter (· != p)
      ((t.setSharelPort port { x with xoff := xoff }).send (.pfc port p above)).addObj 0x8054 port 1) s

/-- A frame keeps its place in the ingress buffer. -/
def keepFrame (s : State) (port : Nat) (r : Received) : State :=
  let x := s.sharelPort port
  s.setSharelPort port { x with ingress := x.ingress ++ [r] }

/-- A frame put into the ingress buffer, or discarded and counted where there is no room. -/
def holdFrame (s : State) (port : Nat) (r : Received) : State :=
  if s.ingressRoom port r.f then (s.keepFrame port r).updatePfc port else s.addObj 0x8053 port 1

/-- A frame of types 0 to 5 stands behind a held frame of its stream (R374). -/
def standsBehind (s : State) (port : Nat) (f : Frame) : Bool :=
  decide (f.type < 6) &&
    (s.sharelPort port).ingress.any fun r => r.f.src == f.src && r.f.dst == f.dst && r.f.cls == f.cls

/-- A frame of a stream type arrives on a port: counted, checked, and taken in by `act`; one that cannot be taken yet, or stands
behind such a one of its stream, goes into the ingress buffer. -/
def arrive (s : State) (port : Nat) (r : Received) (type : Nat) (act : State → State × Bool) : State :=
  if !s.running || !(s.sharelPort port).up then s
  else if !frameOk r.f type then s.addObj 0x8053 port 1
  else
    let t := s.addObj 0x8052 port 1
    if t.standsBehind port r.f then t.holdFrame port r
    else
      let (u, taken) := takeIn r.f act t
      if taken then u else u.holdFrame port r

/-- A port serves what it holds: frames outside the streams leave once their priority is not paused, and the frames of the ingress buffer are
tried again in their order, by `act`. -/
def servePort (act : Received → State → State × Bool) (s : State) (port : Nat) : State :=
  let s := s.releaseControl port
  let x := s.sharelPort port
  if x.ingress.isEmpty then s
  else
    (x.ingress.foldl (fun t r =>
      if t.standsBehind port r.f then t.keepFrame port r
      else
        let (u, taken) := takeIn r.f (act r) t
        if taken then u else u.keepFrame port r) (s.setSharelPort port { x with ingress := [] })).updatePfc port

def recvStream? (s : State) (k : Nat) : Option RecvStream := AMap.get? s.fabric.recv k

def setRecv (s : State) (k : Nat) (r : RecvStream) : State :=
  { s with fabric := { s.fabric with recv := AMap.set s.fabric.recv k r } }

/-- The receive state for a frame, opened anew where the frame opens its stream and is not a repetition of the frame that
opened it (R374). -/
def openRecv (s : State) (k : Nat) (f : Frame) : Option (RecvStream × State) :=
  match s.recvStream? k with
  | some r =>
    if f.opens ∧ r.opened ≠ f.seq then
      some ({ expect := f.seq, opened := f.seq }, { s with fabric := { s.fabric with
        serving := s.fabric.serving.filter fun g => !(g.peer == f.src && g.cls == f.cls) } })
    else some (r, s)
  | none => if f.opens && decide (s.fabric.recv.length < 4096) then some ({ expect := f.seq, opened := f.seq }, s) else none

/-- A frame of types 0 to 5 in its stream: delivered in order to `act`, and counted as delivered unless it waits. A gap is answered
once, a repetition dropped (R374, R375, R377). -/
def inOrder (f : Frame) (act : State → State × Taken) (s : State) : State × Bool :=
  let k := streamKey f.src f.cls
  let s := s.acked f.src f.cls f.ack
  match s.openRecv k f with
  | none => (if f.opens then s else s.sendNak f 0x0101 f.seq, true)
  | some (r, s) =>
    if f.seq = r.expect then
      let (t, x) := act (s.setRecv k r)
      let passed := fun (t : State) =>
        t.setRecv k { r with expect := (r.expect + 1) % 2 ^ 32, sinceAck := r.sinceAck + 1, gapSent := false }
      match x with
      | .waits => (t, false)
      | .refused st => ((passed t).sendNak f st f.seq, true)
      | .done => (passed t, true)
    else if seqAfter f.seq r.expect then
      (if r.gapSent then s.setRecv k r else (s.setRecv k { r with gapSent := true }).sendNak f 0x0100 r.expect, true)
    else (s.setRecv k { r with sinceAck := max r.sinceAck 1 }, true)

/-! ### The inbound window (R384, R385) -/

/-- The sub-window of a window offset: its `fabric_in` value, where valid. -/
def subWindow (s : State) (off : Nat) : Option Nat :=
  let v := s.obj 0x8040 (off / 2 ^ 29 % 8)
  if flag v 0 then some v else none

/-- The virtual address of a window offset. -/
def windowVA (v off : Nat) : Nat := bits v 104 82 * 2 ^ 29 + off % 2 ^ 29

/-- The requester that a peer's frames are in a sub-window (R385). -/
def inboundReq (v : Nat) (f : Frame) : Req :=
  { who := .fabric f.src f.cls, ctx := 1024, cls := f.cls, part := bits v 3 1, root := bits v 81 46 * 65536, kind := 3,
    id := 0, cluster := none, targets := 31, mayStall := false, fabric := true }

/-- An inbound access of `n` bytes at the frame's offset: refused outside a valid sub-window or past its end; otherwise performed by `m`
through the tag of its space. It waits for the tag, for a held write, and for another peer's answer (R385). -/
def inbound {α : Type} (f : Frame) (n : Nat) (m : Req → Nat → M α) (done : α → State → State) (s : State) : State × Taken :=
  match s.subWindow f.offset with
  | none => (s, .refused 0x0103)
  | some v =>
    if 2 ^ 29 < f.offset % 2 ^ 29 + n then (s, .refused Status.faultPermission)
    else
      match s.needTag (bits v 81 46 * 65536) false with
      | (t, false) => (t, .waits)
      | (t, true) =>
        match (m (inboundReq v f) (windowVA v f.offset)).run t with
        | .ok a u => (done a u, .done)
        | .error (.fail st _) u => (u, .refused st)
        | .error (.remote r peer off va len) _ => (t.requestRead r.who none r.cls peer off va len, .waits)
        | .error .pause u => (u, .waits)
        | .error _ _ => (t, .waits)

/-- A WRITE or READ_REQ crosses a 4 KiB boundary of the window (R385). -/
def crossesPage (off n : Nat) : Bool := decide (4096 < off % 4096 + n)

/-- Byte `i` of `n` bytes from `a` on is marked in the poison bits of a frame (R387). -/
def poisonMarks (a n bits_ : Nat) : List Bool := (List.range n).map fun i => flag bits_ ((a + i) / 64 - a / 64)

/-- The poison bits of marked bytes from `a` on. -/
def poisonBits (a : Nat) (marks : List Bool) : Nat :=
  (marks.zipIdx).foldl (fun m x => if x.1 then m ||| 2 ^ ((a + x.2) / 64 - a / 64) else m) 0

/-- WRITE (R376, R385, R387). -/
def writeAct (f : Frame) : State → State × Bool :=
  inOrder f fun t =>
    let n := f.payload.length
    if crossesPage f.offset n then (t, .refused Status.faultPermission)
    else inbound f n (fun r va => writeMarked r va f.payload (poisonMarks f.offset n f.poison) true) (fun _ u => u) t

/-- The replies to a read: frames of at most the peer's payload. A frame with a poisoned atom is not sent to a v1 peer; a final reply
with POISON_CONSUMED takes its place (R386, R391). -/
def replyFrames (peer cls tag off : Nat) : Nat → Nat → List (BitVec 8) → List Bool → State → State
  | 0, _, _, _, s => s
  | fuel + 1, pos, bs, marks, s =>
    if bs.isEmpty then s
    else
      let n := min bs.length (s.framePayload peer)
      if s.peerVersion peer = 1 ∧ (marks.take n).any id = true then
        s.queueFrame peer cls none { blankFrame 2 with tag := tag, offset := pos, status := Status.poisonConsumed, last := true }
      else
        let s := s.queueFrame peer cls none { blankFrame 2 with
          tag := tag, offset := pos, payload := bs.take n, poison := poisonBits (off + pos) (marks.take n), last := bs.length == n }
        replyFrames peer cls tag off fuel (pos + n) (bs.drop n) (marks.drop n) s

/-- READ_REQ (R385, R386). -/
def readAct (f : Frame) : State → State × Bool :=
  inOrder f fun t =>
    let n := leNat (f.payload.take 4)
    if n = 0 ∨ 4096 < n ∨ crossesPage f.offset n = true then (t, .refused Status.faultPermission)
    else inbound f n (fun r va => readMarked r va n)
      (fun x u => replyFrames f.src f.cls f.tag f.offset 4 0 x.1 x.2 u) t

/-- READ_REPLY (R386, R387): the data reach the read that asked; a final reply with a status fails it (R377); a mailbox goes
on at once. -/
def replyAct (f : Frame) : State → State × Bool :=
  inOrder f fun t =>
    match t.fabric.reads.find? fun x => x.peer == f.src && x.tag == f.tag && !x.finished with
    | none => (t, .done)
    | some x =>
      if f.last && f.status != 0 then
        (t.failRead (fun y => y == x) (peerStatus f.status) f.status, .done)
      else
      let got := x.got ++ f.payload
      let y := { x with
        got := got
        marks := x.marks ++ poisonMarks (x.va + x.got.length) f.payload.length f.poison
        finished := f.last || decide (x.len ≤ got.length) }
      let t := { t with fabric := { t.fabric with reads := t.fabric.reads.map fun z => if z == x then y else z } }
      (match x.who with
        | .mailbox nn => if y.finished then t.mboxResume nn else t
        | _ => t, .done)

/-- FENCE (R376, R385): applied after every earlier frame of its stream. -/
def fenceAct (f : Frame) : State → State × Bool :=
  inOrder f fun t =>
    match t.subWindow f.offset with
    | none => (t, .refused 0x0103)
    | some v =>
      if !t.fenceInRange (bits v 3 1) f.fence then (t, .refused Status.faultPermission)
      else (t.applySignal ⟨f.fence, f.sigMode, leNat (f.payload.take 8)⟩, .done)

/-- ACK (R375). -/
def ackAct (f : Frame) (s : State) : State × Bool := (s.acked f.src f.cls f.ack, true)

/-- The sender resends from its first unacknowledged frame (R375). -/
def resend (s : State) (peer cls : Nat) : State :=
  let k := streamKey peer cls
  let x := s.sendStream k
  if x.sent = 0 then s else ((s.setSendStream k { x with sent := 0 }).addObj 0x8051 1 x.sent).pump peer cls

/-- A refused frame leaves its stream, and what it belongs to fails (R377). -/
def refused (s : State) (f : Frame) : State :=
  let k := streamKey f.src f.cls
  let x := s.sendStream k
  let st := peerStatus f.status
  let drop := fun (t : State) (i : Nat) => t.setSendStream k { x with
    unacked := x.unacked.eraseIdx i, sent := if i < x.sent then x.sent - 1 else x.sent,
    high := if i < x.high then x.high - 1 else x.high }
  let byTag := fun (t : State) =>
    let t := t.failRead (fun r => r.peer == f.src && r.tag == f.tag && !r.finished) st f.status
    match t.gatherOf f.src f.tag with
    | some o => t.failPayer ⟨o, .op o 1000, 1000⟩ st f.status
    | none => t
  let s := if st = Status.fabricUnreachable then s.addObj 0x8051 4 1 else s
  match x.unacked.findIdx? fun y => y.1.seq == f.seq with
  | none => byTag s
  | some i =>
    match x.unacked[i]? with
    | some (g, some p) => if g.type = 1 ∨ g.type = 3 then byTag (drop s i) else (drop s i).failPayer p st f.status
    | _ => drop s i

/-- NAK (R377). -/
def nakAct (f : Frame) (t : State) : State × Bool :=
  let t := if f.status = 0x0100 then t
    else if f.status = 0x0101 then t.failStream f.src f.cls Status.fabricPeerFault 0x0101
    else t.refused f
  let t := t.acked f.src f.cls f.ack
  (if f.status = 0x0100 then t.resend f.src f.cls else t, true)

/-! ### Timers of the streams (R374, R375, R383) -/

/-- ACK_SEND: the receiver acknowledges what it has delivered; the sequence of an ACK is not given. -/
def ackSend (s : State) (peer cls : Nat) : State :=
  let k := streamKey peer cls
  match s.recvStream? k with
  | none => s
  | some r =>
    if r.sinceAck = 0 || !s.running || !s.fabric.held then s
    else
      match s.hopOf s.fabric.addr peer cls with
      | some h =>
        if s.hopOpen h cls then
          let (v, s) := s.draw
          (s.sendDirect peer cls { blankFrame 6 with seq := v % 2 ^ 32 }).setRecv k { r with sinceAck := 0 }
        else s
      | none => s

/-- STREAM_IDLE_CLOSE: the sending half closes once every frame is acknowledged; without one, the receiving half. -/
def idleClose (s : State) (peer cls : Nat) : State :=
  let k := streamKey peer cls
  match AMap.get? s.fabric.send k with
  | some x => if x.unacked.isEmpty then s.closeSend k else s
  | none =>
    match s.recvStream? k with
    | some r => if r.sinceAck = 0 then { s with fabric := { s.fabric with recv := AMap.erase s.fabric.recv k } } else s
    | none => s

/-- FABRIC_TIMEOUT: a stream with frames or requests in flight fails them. -/
def fabricTimeout (s : State) (peer cls : Nat) : State :=
  let busy := !(s.sendStream (streamKey peer cls)).unacked.isEmpty ||
    (s.fabric.reads.any fun r => r.peer == peer && r.cls == cls && !r.finished) ||
    s.ctxs.any fun c => c.2.cls % 4 == cls % 4 && c.2.entries.any fun e => e.quire.any fun q => q.ops.any fun o =>
      match o.body with
      | .remote w => w.peer == peer && !w.finished
      | _ => false
  if s.running && busy then s.failStream peer cls Status.fabricUnreachable 0 else s

/-! ### Discovery (R378) -/

/-- The versions this device offers: v1 and v2. -/
def ownVersions : Nat := 6

/-- Ports that are up. -/
def upPorts (s : State) : List Nat := (List.range 6).filter fun p => (s.sharelPort p).up

/-- The cost of a port's links (R380). -/
def linkCost (s : State) (p : Nat) : Nat :=
  let v := s.obj 0x8022 p
  if v ≠ 0 then v else if (s.sharelPort p).speed = 2 then 10 else 20

/-- The LSA of this device (R380). -/
def ownLsa (s : State) : LsaMsg :=
  { addr := s.fabric.addr, hash := identityHash, versions := ownVersions, seq := s.fabric.lsaSeq,
    adj := (List.range 6).flatMap fun p => ((s.sharelPort p).adjs.filter fun a => decide (1 ≤ a.version)).map fun (a : Adj) =>
      (a.addr, s.linkCost p, a.version) }

/-- Floods the device's LSA with the next sequence, where the firmware runs (R380, R392). -/
def floodLsa (s : State) : State :=
  if !s.mgmtUp || s.fabric.addr = 0 then s
  else
    let s := { s with fabric := { s.fabric with lsaSeq := s.fabric.lsaSeq + 1 } }
    s.upPorts.foldl (fun t p => t.sendControl p (.lsa s.ownLsa)) s

/-- The adjacencies of a port as the rest of the device sees them. -/
def adjView (s : State) (p : Nat) : List (Nat × Nat) := (s.sharelPort p).adjs.map fun (a : Adj) => (a.addr, a.version)

/-- After a change of a port: attention and a new LSA where its adjacencies changed (R380, R393). -/
def noteAdj (old s : State) (p : Nat) : State :=
  if old.adjView p = s.adjView p then s else (s.raiseAs 5 0 0xFF 0x8002 p 0 (s.portState p)).floodLsa

/-- The highest version that both sides offer; 0 where there is none (R378). -/
def commonVersion (mask : Nat) : Nat := if flag mask 2 then 2 else if flag mask 1 then 1 else 0

/-- The device has given up claiming (R379). -/
def claimsOver (s : State) : Bool := decide (255 ≤ s.fabric.claims)

/-- HELLO (R378): the sender is heard, and is adjacent while it lists this device. -/
def helloFrame (s : State) (port : Nat) (m : HelloMsg) : State :=
  let x := s.sharelPort port
  if !s.running || !x.up then s
  else
    let heard := if x.heard.contains m.addr then x.heard else x.heard ++ [m.addr]
    let rest := x.adjs.filter fun a => a.addr != m.addr
    let adjs := if m.heard.contains s.fabric.addr && !s.claimsOver then
        rest ++ [⟨m.addr, commonVersion m.versions, m.port, m.hash⟩] else rest
    let same := adjs.length == x.adjs.length && adjs.all fun a => x.adjs.contains a
    let t := (s.addObj 0x8052 port 1).setSharelPort port { x with heard := heard, adjs := if same then x.adjs else adjs }
    noteAll s (noteAdj s t port)

/-- HELLO_SEND (R378). -/
def helloSend (s : State) : State :=
  if !s.running || s.fabric.addr = 0 then s
  else s.upPorts.foldl (fun t p => t.sendControl p (.hello
    { addr := s.fabric.addr, held := s.fabric.held, port := p, versions := ownVersions,
      heard := (s.sharelPort p).heard.take 16, hash := identityHash })) s

/-- ADJACENCY_TIMEOUT (R378): no HELLO of the neighbour for `dead_count` intervals. -/
def adjacencyTimeout (s : State) (port addr : Nat) : State :=
  if !s.running then s
  else
    let x := s.sharelPort port
    let t := s.setSharelPort port { x with heard := x.heard.filter (· != addr), adjs := x.adjs.filter fun a => a.addr != addr }
    noteAll s (noteAdj s t port)

/-- SHAREL_LINK_FAULT (R378). -/
def sharelFault (s : State) (port : Nat) : State :=
  if !s.running then s else noteAll s (noteAdj s (s.setSharelPort port {}) port)

/-! ### Addresses (R379) -/

/-- A claim of the present address leaves every port. -/
def floodClaim (s : State) : State :=
  s.upPorts.foldl (fun t p => t.sendControl p (.claim s.fabric.addr identityHash)) s

/-- A new tentative address from counter `c` on. Frames built from now on carry it, on streams opened anew. -/
def claimFrom (s : State) (c : Nat) : State :=
  let (a, n) := deriveAddr 255 c
  let s := { s with fabric := { s.fabric with
    addr := a, held := false, claims := n
    send := s.fabric.send.map fun (e : Nat × SendStream) => (e.1, { e.2 with opened := false }) } }
  s.floodClaim

/-- Address acquisition starts once an image runs, and starts anew after a reset (R379, R467). -/
def claimAddress (s : State) : State := if s.fabric.held || s.claimsOver then s else s.claimFrom s.fabric.claims

/-- CLAIM (R379): the lower identity hash keeps the address; at counter 255 the device stops claiming. -/
def claimFrame (s : State) (port addr : Nat) (hash : List (BitVec 8)) : State :=
  if !s.running || !(s.sharelPort port).up then s
  else
    let t := s.addObj 0x8052 port 1
    if !s.mgmtUp || addr ≠ s.fabric.addr || s.fabric.addr = 0 || hash = identityHash || s.claimsOver then t
    else if leNat identityHash < leNat hash then t.floodClaim
    else if 255 ≤ s.fabric.claims + 1 then
      let t := { t with fabric := { t.fabric with
        held := false, claims := 255
        ports := t.fabric.ports.map fun (e : Nat × SharelPort) => (e.1, { e.2 with adjs := [] }) } }
      (noteAll s t).raiseAs 5 3 0xFF 0x8001 4 0 255
    else noteAll s (t.claimFrom (s.fabric.claims + 1)).floodLsa

/-- ADDRESS_HELD (R379). -/
def addressHeld (s : State) : State :=
  if !s.mgmtUp || s.fabric.held || s.fabric.addr = 0 || s.claimsOver then s
  else
    let t := { s with fabric := { s.fabric with held := true } }
    (noteAll s t).pumpAll

/-- SHAREL_LINK_UP (R367, R368): an address still tentative is claimed on the port too. -/
def sharelUp (s : State) (port speed : Nat) : State :=
  if !s.running then s
  else
    let t := (s.setSharelPort port { up := true, speed := speed })
    let t := if t.mgmtUp && !t.fabric.held && t.fabric.addr != 0 && !t.claimsOver then
      t.sendControl port (.claim t.fabric.addr identityHash) else t
    noteAll s t

/-! ### Routes (R380, R381) -/

/-- LSA (R380): a newer one is stored and flooded on the ports with adjacencies other than the one it came from; beyond 16,384
devices it is dropped. -/
def lsaFrame (s : State) (port : Nat) (m : LsaMsg) : State :=
  if !s.running || !(s.sharelPort port).up then s
  else
    let t := s.addObj 0x8052 port 1
    let old := AMap.get? s.fabric.lsas m.addr
    if !s.mgmtUp || m.addr = s.fabric.addr || (old.any fun o => o.seq % 2 ^ 32 == m.seq || !seqAfter m.seq (o.seq % 2 ^ 32)) then t
    else if old.isNone && decide (16384 ≤ s.fabric.lsas.length) then t.countRaise 5 1 0xFF 0x8051 5 0
    else
      let t := { t with fabric := { t.fabric with lsas := AMap.set t.fabric.lsas m.addr m } }
      (t.upPorts.filter fun p => decide ((if p = port then 1 else 0) < (t.sharelPort p).adjs.length)).foldl
        (fun u p => u.sendControl p (.lsa m)) t

/-- LSA_REFRESH (R380). -/
def lsaRefresh (s : State) : State := s.floodLsa

/-- One round of distances to a destination: each device takes its best way over an allowed adjacency. -/
def relaxRound (g : List LsaMsg) (allowed : Nat → Bool) (dest : Nat) (d : AMap Nat) : AMap Nat :=
  g.foldl (fun m l =>
    if l.addr = dest then m
    else
      let ways := (l.adj.filter fun a => allowed a.2.2).filterMap fun a => (AMap.get? d a.1).map (· + a.2.1)
      match ways with
      | [] => m
      | w :: ws => AMap.set m l.addr (ws.foldl min w)) d

def distances (g : List LsaMsg) (allowed : Nat → Bool) (dest : Nat) : Nat → AMap Nat
  | 0 => [(dest, 0)]
  | n + 1 => relaxRound g allowed dest (distances g allowed dest n)

/-- The next hops towards a destination: the adjacencies of least cost, at most four; a pair of v2 devices uses v2
adjacencies alone (R380). -/
def nextHops (s : State) (g : List LsaMsg) (dest : LsaMsg) : List (Nat × Nat) :=
  let allowed := fun (v : Nat) => if flag dest.versions 2 then v == 2 else decide (1 ≤ v)
  let d := distances g allowed dest.addr g.length
  let ways := (List.range 6).flatMap fun p => ((s.sharelPort p).adjs.filter fun a => allowed a.version).filterMap fun (a : Adj) =>
    (AMap.get? d a.addr).map fun n => (n + s.linkCost p, (p, a.addr))
  match ways with
  | [] => []
  | w :: ws =>
    let best := ws.foldl (fun m x => min m x.1) w.1
    ((ways.filter fun x => x.1 == best).map (·.2)).take 4

/-- ROUTE_COMPUTE (R380, R393): a destination whose next hops change is a reroute. -/
def routeCompute (s : State) : State :=
  if !s.mgmtUp then s
  else
    let others := (s.fabric.lsas.map (·.2)).filter fun l => l.addr != s.fabric.addr
    let g := s.ownLsa :: others
    let table := others.foldl (fun (m : AMap (List (Nat × Nat))) l =>
      let h := s.nextHops g l
      if h.isEmpty then m else AMap.set m l.addr h) []
    let moved := s.fabric.routes.any fun e => AMap.getD table e.1 [] != e.2
    let t := { s with fabric := { s.fabric with routes := table } }
    (if moved then t.raiseAs 5 1 0xFF 0x8030 1 0 table.length else t).pumpAll

/-- PFC_FRAME (R373): honoured on the priorities of `pfc_mask`. -/
def pfcFrame (s : State) (port prio : Nat) (xoff : Bool) : State :=
  let x := s.sharelPort port
  if !s.running || !x.up || !flag (s.obj 0x8011 2) prio then s
  else if xoff then s.setSharelPort port { x with paused := insertNat prio x.paused }
  else ((s.setSharelPort port { x with paused := x.paused.filter (· != prio) }).releaseControl port).pumpAll

end State

/-! ### The commands -/

/-- WRITE_FRAME (R376). -/
def execWriteFrame (port : Nat) (f : Frame) (s : State) : Outcome State Fault Refusal := .next (s.arrive port { f := f } 0 (State.writeAct f))

/-- READ_REQ (R385). -/
def execReadReq (port : Nat) (f : Frame) (s : State) : Outcome State Fault Refusal := .next (s.arrive port { f := f } 1 (State.readAct f))

/-- READ_REPLY (R386). -/
def execReadReply (port : Nat) (f : Frame) (s : State) : Outcome State Fault Refusal := .next (s.arrive port { f := f } 2 (State.replyAct f))

/-- FENCE (R376). -/
def execFence (port : Nat) (f : Frame) (s : State) : Outcome State Fault Refusal := .next (s.arrive port { f := f } 5 (State.fenceAct f))

/-- ACK (R375). -/
def execAck (port : Nat) (f : Frame) (s : State) : Outcome State Fault Refusal := .next (s.arrive port { f := f } 6 (State.ackAct f))

/-- NAK (R377). -/
def execNak (port : Nat) (f : Frame) (s : State) : Outcome State Fault Refusal := .next (s.arrive port { f := f } 7 (State.nakAct f))

/-- HELLO (R378). -/
def execHello (port : Nat) (m : HelloMsg) (s : State) : Outcome State Fault Refusal := .next (s.helloFrame port m)

/-- CLAIM (R379). -/
def execClaim (port addr : Nat) (hash : List (BitVec 8)) (s : State) : Outcome State Fault Refusal :=
  .next (s.claimFrame port addr hash)

/-- LSA (R380). -/
def execLsa (port : Nat) (m : LsaMsg) (s : State) : Outcome State Fault Refusal := .next (s.lsaFrame port m)

/-- HELLO_SEND (R378). -/
def execHelloSend (s : State) : Outcome State Fault Refusal := .next s.helloSend

/-- ADJACENCY_TIMEOUT (R378). -/
def execAdjacencyTimeout (port addr : Nat) (s : State) : Outcome State Fault Refusal := .next (s.adjacencyTimeout port addr)

/-- SHAREL_LINK_FAULT (R378). -/
def execSharelLinkFault (port : Nat) (s : State) : Outcome State Fault Refusal := .next (s.sharelFault port)

/-- SHAREL_LINK_UP (R367). -/
def execSharelLinkUp (port speed : Nat) (s : State) : Outcome State Fault Refusal := .next (s.sharelUp port speed)

/-- ADDRESS_HELD (R379). -/
def execAddressHeld (s : State) : Outcome State Fault Refusal := .next s.addressHeld

/-- LSA_REFRESH (R380). -/
def execLsaRefresh (s : State) : Outcome State Fault Refusal := .next s.lsaRefresh

/-- ROUTE_COMPUTE (R380). -/
def execRouteCompute (s : State) : Outcome State Fault Refusal := .next s.routeCompute

/-- ACK_SEND (R375). -/
def execAckSend (peer cls : Nat) (s : State) : Outcome State Fault Refusal := .next (s.ackSend peer cls)

/-- RETRANSMIT_TIMEOUT (R375). -/
def execRetransmitTimeout (peer cls : Nat) (s : State) : Outcome State Fault Refusal :=
  .next (if s.running then s.resend peer cls else s)

/-- STREAM_IDLE_CLOSE (R374). -/
def execStreamIdleClose (peer cls : Nat) (s : State) : Outcome State Fault Refusal :=
  .next (if s.running then s.idleClose peer cls else s)

/-- FABRIC_TIMEOUT (R383). -/
def execFabricTimeout (peer cls : Nat) (s : State) : Outcome State Fault Refusal := .next (s.fabricTimeout peer cls)

/-- TRANSIT_FRAME (R381). -/
def execTransitFrame (port : Nat) (f : Frame) (s : State) : Outcome State Fault Refusal :=
  .next (if f.dst = s.fabric.addr then s else s.arrive port { f := f } f.type fun t => (t, true))

/-- PFC_FRAME (R373). -/
def execPfcFrame (port prio : Nat) (xoff : Bool) (s : State) : Outcome State Fault Refusal := .next (s.pfcFrame port prio xoff)

/-- FRAME_DISCARD (R369). -/
def execFrameDiscard (port _reason : Nat) (s : State) : Outcome State Fault Refusal :=
  .next (if s.running && (s.sharelPort port).up then s.addObj 0x8053 port 1 else s)

end Sys2Proof.Machine
end

