-- ==== Sys2Proof/Machine/Cxl.lean ====
section
/-! DEFINITION. The CXL port (18_host_and_cxl_ports.md, R411 to R418): links coming up and failing, events of expanders, and
the checks of a commit of decoders. -/

namespace Sys2Proof.Machine

open Host (Outcome)

namespace State

/-- `cxl_link` of a link (R412); every flit is a 256-byte flit (R411). -/
def cxlWord (s : State) (l : Nat) : Nat :=
  let x := s.cxlLink l
  if x.state = 2 then x.width * 256 + x.speed * 16 + 8 + x.state else x.state

/-- The far memory of a link is lost (R417). -/
def loseFar (s : State) (l : Nat) : State :=
  { s with
    far := s.far.filter fun c => c.1 / 2 ^ 52 != l
    farPoison := s.farPoison.filter fun x => x * 64 / 2 ^ 52 != l }

/-- A link fails: state 4, its contents lost, attention (R417). -/
def cxlFail (s : State) (l : Nat) : State :=
  let x := s.cxlLink l
  if x.state = 1 ∨ x.state = 2 then
    let t := (s.setCxlLink l { x with state := 4 }).loseFar l
    (noteAll s t).raiseAs 10 3 0xFF 0x9101 l 0 (t.cxlWord l)
  else s

/-- A link's enumeration ends (R412). -/
def cxlUp (s : State) (l width speed capacity decoders : Nat) (accepted : Bool) : State :=
  if (s.cxlLink l).state ≠ 1 then s
  else
    let t := s.setCxlLink l
      (if accepted then { state := 2, width := width, speed := speed, capacity := capacity, decoders := decoders }
       else { state := 3 })
    noteAll s t

/-! ### Decoders (R413 to R415) -/

/-- The link of each interleave position in force. -/
def decoderLinks (v : Nat) : List Nat := (List.range (decoderWays v)).map (decoderTarget v)

/-- Far addresses of two decoders overlap. -/
def decodersMeet (a b : Nat) : Bool :=
  flag a 63 && flag b 63 && decide (bits a 13 0 < bits b 13 0 + bits b 44 30) && decide (bits b 13 0 < bits a 13 0 + bits a 44 30)

/-- Use of link `l` by a list of decoder values, in units of 256 MiB, and how many name it. -/
def linkUse (vs : List Nat) (l : Nat) : Nat × Nat :=
  vs.foldl (fun x v => if flag v 63 && decoderNames v l then (x.1 + bits v 44 30 / decoderWays v, x.2 + 1) else x) (0, 0)

/-- The commit of eight decoder values is allowed (R415): `old` are those in force. -/
def decodersOk (s : State) (old new : List Nat) : Bool :=
  let distinct := fun (l : List Nat) => decide (l.eraseDups.length = l.length)
  (List.range 8).all (fun i => (List.range 8).all fun j => i == j || !decodersMeet (new.getD i 0) (new.getD j 0)) &&
  new.all (fun v => !flag v 63 ||
    (decide (bits v 13 0 + bits v 44 30 ≤ 16384) && decide (bits v 44 30 % decoderWays v = 0) && distinct (decoderLinks v) &&
      (decoderLinks v).all fun l => (s.cxlLink l).state == 2)) &&
  (List.range 4).all (fun l =>
    let u := linkUse new l
    u.2 == 0 || (decide (u.1 ≤ (s.cxlLink l).capacity) && decide (u.2 ≤ (s.cxlLink l).decoders))) &&
  (List.range 8).all fun i =>
    let a := old.getD i 0
    let b := new.getD i 0
    !flag a 63 || a == b || a == b + 2 ^ 63

/-- The HDM decoders of link `l`'s expander, as the firmware programs them: far address and bytes served there (R414). -/
def hdmOf (s : State) (l : Nat) : List (Nat × Nat) :=
  (List.range 8).filterMap fun d =>
    let v := s.obj 0x9110 d
    if flag v 63 && decoderNames v l then some (farBase + bits v 13 0 * 2 ^ 28, bits v 44 30 * 2 ^ 28) else none

/-- Programs the expanders after a commit of decoders. -/
def programExpanders (s : State) : State :=
  (List.range 4).foldl (fun t l => if (t.cxlLink l).state = 2 then t.send (.cxlProgram l (t.hdmOf l)) else t) s

end State

/-- CXL_LINK_FAIL (R417). -/
def execCxlLinkFail (link : Nat) (s : State) : Outcome State Fault Refusal :=
  .next (if s.running then s.cxlFail link else s)

/-- CXL_MEM_TIMEOUT (R417, R418). -/
def execCxlMemTimeout (link : Nat) (s : State) : Outcome State Fault Refusal :=
  .next (if s.running && (s.cxlLink link).state == 2 then (s.addObj 0x9123 link 1).cxlFail link else s)

/-- CXL_EVENT_RECORD (R416). DESIGN CHOICE (log entry 93): an event of poison or of an uncorrectable media error leaves the atom it names
poisoned in the expander, whose read responses then carry the indication. -/
def execCxlEventRecord (link : Nat) (severe : Bool) (dpa : Nat) (s : State) : Outcome State Fault Refusal :=
  .next (if s.mgmtUp && (s.cxlLink link).state == 2 then
    let t := if severe then { s with farPoison := State.insertNat (State.farKey link dpa / 64) s.farPoison } else s
    t.raiseAs 10 (if severe then 2 else 0) 0xFF 0x9101 link dpa (s.cxlWord link) else s)

/-- CXL_LINK_UP (R412). -/
def execCxlLinkUp (link width speed capacity decoders : Nat) (accepted : Bool) (s : State) : Outcome State Fault Refusal :=
  .next (if s.mgmtUp then s.cxlUp link width speed capacity decoders accepted else s)

end Sys2Proof.Machine
end

