-- ==== Sys2Proof/Machine/Firmware.lean ====
section
/-! DEFINITION. The management core (20_firmware_and_trust.md): images and their checks, fuses and keys, the ROM, live update,
watchdog and fallback, and attestation reports. The actions' replies are in Amiso.lean. -/

namespace Sys2Proof.Machine

open Host (Outcome)

/-! ### Images (R448) -/

namespace Image

/-- The 128-byte header as a number. -/
def head (img : List (BitVec 8)) : Nat := leNat (img.take 128)

def svn (h : Nat) : Nat := bits h 55 48

def version (h : Nat) : Nat := bits h 191 160

def recMin (h : Nat) : Nat := bits h 207 192

def recMax (h : Nat) : Nat := bits h 223 208

def sig (img : List (BitVec 8)) : List (BitVec 8) := (img.drop 128).take 29792

def body (img : List (BitVec 8)) : List (BitVec 8) := img.drop 29920

/-- The first check of R449: marker, format, reserved fields and ranges, and an image as long as its header says. -/
def formOk (img : List (BitVec 8)) : Bool :=
  let h := head img
  let bodyLen := bits h 95 64
  let sram := bits h 159 128
  decide (29920 ≤ img.length) && bits h 31 0 == 0x4A504657 && bits h 39 32 == 1 && bits h 63 56 == 0 &&
    bits h 255 224 == 0 && decide (bits h 47 40 ≤ 3) && decide (svn h ≤ 64) && bits h 127 96 % 4 == 0 &&
    decide (bits h 127 96 < sram) && sram % 4096 == 0 && decide (4096 ≤ sram) && decide (sram ≤ 1572864) &&
    bodyLen % 4096 == 0 && decide (sram ≤ bodyLen) && decide (bodyLen ≤ 4063232) && decide (img.length = 29920 + bodyLen)

end Image

namespace State

/-- The image in a region; empty where there is none. -/
def regionImage (s : State) (r : Nat) : List (BitVec 8) := AMap.getD s.fw.regions r []

/-- The header of the running image. -/
def runningHead (s : State) : Nat := Image.head (s.regionImage s.fw.region)

/-- The header of the staging region's image. -/
def stagedHead (s : State) : Nat := Image.head (s.regionImage (1 - s.fw.region))

/-- `fw_state` (R456). -/
def fwState (s : State) : Nat := s.fw.stage + s.fw.result * 2 ^ 8 + s.fw.region * 2 ^ 16

/-- `key_state` (R451). -/
def keyState (s : State) : Nat :=
  (List.range 4).foldl (fun v n =>
    v + b2n (AMap.get? s.fuses.keySlots n).isSome * 2 ^ n + b2n (s.fuses.revoked.contains n) * 2 ^ (n + 4)) 0

/-- The hash in key slot `n`; zero when blank (R451). -/
def keyHash (s : State) (n : Nat) : List (BitVec 8) := AMap.getD s.fuses.keySlots n (List.replicate 32 0)

/-- `owner_key_hash` (R440, R452): the last bank fused. -/
def ownerHash (s : State) : List (BitVec 8) := s.fuses.owners.getLast?.getD (List.replicate 32 0)

/-- The result of the checks of R449; 0 where the image is acceptable. -/
def acceptCode (s : State) (img : List (BitVec 8)) : Nat :=
  let h := Image.head img
  let slot := bits h 47 40
  let pk := (img.drop 32).take 64
  if !Image.formOk img then 1
  else if (AMap.get? s.fuses.keySlots slot).isNone || s.fuses.revoked.contains slot then 2
  else if shake256 pk 32 != s.keyHash slot then 3
  else if shake256 (Image.body img) 32 != (img.drop 96).take 32 then 4
  else if !Config.slhVerify pk (img.take 128) (Image.sig img) then 5
  else if Image.svn h < s.fuses.floor then 6
  else 0

/-- The result field of `fw_state`. -/
def setResult (s : State) (code : Nat) : State := { s with fw := { s.fw with result := code } }

/-- An image rejected under R449: its code, and attention. -/
def rejectImage (s : State) (code : Nat) : State :=
  let s := s.setResult code
  s.raiseAs 9 2 0xFF 0xC020 3 0 s.fwState

/-- The persistent record cleared, as after power-on (R454, R459): sessions, keys and what waits. -/
def clearRecord (s : State) : State := { s with amiso := {} }

/-- The session part of the record cleared: what R436 says a watchdog restart loses (R458). -/
def clearSessions (s : State) : State := { s with amiso := { opKeys := s.amiso.opKeys } }

/-- The image of a region starts: it has not yet reported alive, and enters the image history (R454, R457, R463). -/
def startImage (s : State) (region : Nat) : State :=
  let h := shake256 (s.fw.history ++ shake256 ((s.regionImage region).take 128) 32) 32
  { s with fw := { s.fw with region := region, alive := false, history := h } }

/-- The ROM announces and waits for an image (step 3 of R454). -/
def romStage (s : State) : State :=
  { s with fw := { s.fw with stage := 0, alive := false, staged := false, handover := false } }

/-- The stage after a restart: a verified image stays staged. -/
def idleStage (s : State) : Nat := if s.fw.staged then 3 else 1

/-- The running image is started again after its checks, or the ROM waits for a new one (R458, R459). -/
def reloadImage (s : State) : State :=
  let code := s.acceptCode (s.regionImage s.fw.region)
  if code = 0 then
    { s.startImage s.fw.region with fw := { (s.startImage s.fw.region).fw with stage := s.idleStage, handover := false } }
  else (s.rejectImage code).romStage

/-- The ROM falls back to the image of the other region (R459); where that image is not acceptable, the present one is
started again if it is. -/
def fallback (s : State) : State :=
  let other := 1 - s.fw.region
  let code := s.acceptCode (s.regionImage other)
  if code ≠ 0 then (s.rejectImage code).reloadImage
  else
    let h := Image.head (s.regionImage other)
    let s := if Image.recMin h ≤ s.fw.recFormat ∧ s.fw.recFormat ≤ Image.recMax h then s else s.clearRecord
    let s := s.startImage other
    let s := { s with fw := { s.fw with stage := 1, result := 9, staged := false, handover := false, restarts := 0 } }
    s.countRaise 8 2 0xFF 0xC040 3 0

/-- The management core restarts without a reset (R458): the running image is reloaded, or from the third restart on the
ROM falls back where the three lie within 10 minutes, which the model does not time. Between steps 4 and 6 of R457 the old
image starts with the record written at step 4 (R460). -/
def mgmtRestart (s : State) : State :=
  let s := (s.countRaise 8 1 0xFF 0xC040 2 0).sparingRestart
  if s.fw.handover then
    let old := 1 - s.fw.region
    { s.startImage old with fw := { (s.startImage old).fw with stage := 1, handover := false } }
  else
    let n := s.fw.restarts + 1
    let s := { s.clearSessions with fw := { s.fw with restarts := n } }
    if n < 3 then s.reloadImage
    else
      let (x, s) := s.draw
      if x % 2 = 1 then s.fallback else s.reloadImage

/-! ### Staging and activation (R454, R457) -/

/-- A whole image in the ROM stage: region A, checked; an acceptable one starts with a cleared record. Whether it was. -/
def romLoad (s : State) (img : List (BitVec 8)) : Bool × State :=
  let s := { s with fw := { s.fw with region := 0, regions := AMap.set s.fw.regions 0 img } }
  let code := s.acceptCode img
  if code ≠ 0 then (false, s.rejectImage code)
  else
    let s := s.clearRecord.startImage 0
    (true, { s with fw := { s.fw with stage := 1, result := 0, staged := false, restarts := 0, recFormat := Image.recMax (Image.head img) } })

/-- A whole image while firmware runs: the staging region, checked. Whether it is verified. -/
def stageImage (s : State) (img : List (BitVec 8)) : Bool × State :=
  let s := { s with fw := { s.fw with regions := AMap.set s.fw.regions (1 - s.fw.region) img } }
  let code := s.acceptCode img
  if code ≠ 0 then
    let s := s.rejectImage code
    (false, { s with fw := { s.fw with stage := 1, staged := false } })
  else (true, { s with fw := { s.fw with stage := 3, result := 0, staged := true } })

/-- A transfer into the staging region begins: the image staged before is discarded (R457). -/
def beginStaging (s : State) : State :=
  if s.fw.stage = 0 then s
  else { s with fw := { s.fw with stage := 2, staged := false, regions := AMap.erase s.fw.regions (1 - s.fw.region) } }

/-- A write of `fw_activate` (steps 1 and 2 of R457). -/
def fwActivate (s : State) (v : Nat) : ActResult :=
  let h := s.stagedHead
  if s.fw.stage = 4 then { state := s, status := 0x0206 }
  else if !s.fw.staged || v != Image.version h then { state := s.setResult 0x0A, status := 0x0206 }
  else
    let code := s.acceptCode (s.regionImage (1 - s.fw.region))
    let old := Image.recMax s.runningHead
    if code ≠ 0 then { state := s.rejectImage code, status := 0x0206 }
    else if old < Image.recMin h ∨ Image.recMax h < old then { state := s.setResult 7, status := 0x0206 }
    else { state := { s with fw := { s.fw with stage := 4 } } }

/-- A quiescent point (step 3 of R457): no commit at step 5, no cluster sparing at step 1 or 6, no channel sparing. -/
def quiescent (s : State) : Bool :=
  !(s.amiso.answers.any (·.commit)) && !(s.sparing.active.any fun x => x.2.2 == 1) && s.sparing.recordsDue == 0 &&
    s.tiers.chanSparing.isEmpty

/-- Steps 4 and 5 of R457: the record is written, the regions swap roles, the new image starts. -/
def handOver (s : State) : State :=
  if !s.mgmtUp || s.fw.stage ≠ 4 || !s.quiescent then s
  else
    let s := { s with fw := { s.fw with recFormat := Image.recMax s.runningHead, staged := false, handover := true } }
    s.startImage (1 - s.fw.region)

/-- A running image reports alive (step 6 of R457, R458): the management core serves again, and a device-wide reset ends. -/
def reportAlive (s : State) : State :=
  { s with
    board := { s.board with inReset := false }
    fw := { s.fw with
      alive := true, handover := false, stage := s.idleStage
      result := if s.fw.handover then 0 else s.fw.result
      restarts := if s.fw.handover then 0 else s.fw.restarts
      recFormat := Image.recMax s.runningHead } }

/-! ### Fuses (R450 to R452) -/

/-- A write of `key_provision`. -/
def keyProvision (s : State) (v : List (BitVec 8)) : ActResult :=
  let slot := leNat (v.take 1)
  if slot = 0 ∨ 3 < slot then { state := s, status := 0x0205 }
  else if (AMap.get? s.fuses.keySlots slot).isSome then { state := s, status := 0x0206 }
  else { state := { s with fuses := { s.fuses with keySlots := AMap.set s.fuses.keySlots slot (v.drop 1) } } }

/-- A write of `key_revoke`: not the running image's slot, and not the last slot provisioned and unrevoked. -/
def keyRevoke (s : State) (slot : Nat) : ActResult :=
  let rest := (List.range 4).any fun n =>
    n != slot && (AMap.get? s.fuses.keySlots n).isSome && !s.fuses.revoked.contains n
  if slot = bits s.runningHead 47 40 ∨ rest = false then { state := s, status := 0x0206 }
  else { state := { s with fuses := { s.fuses with revoked := insertNat slot s.fuses.revoked } } }

/-- A write of `rollback_raise`. -/
def rollbackRaise (s : State) (v : Nat) : ActResult :=
  if v ≤ s.fuses.floor ∨ Image.svn s.runningHead < v then { state := s, status := 0x0206 }
  else { state := { s with fuses := { s.fuses with floor := v } } }

/-- `owner_enroll` where the caller has checked who may: the next blank bank is fused (R452). -/
def ownerEnroll (s : State) (hash : List (BitVec 8)) : ActResult :=
  if 4 ≤ s.fuses.owners.length then { state := s, status := 0x0206 }
  else { state := { s with fuses := { s.fuses with owners := s.fuses.owners ++ [hash] } } }

/-! ### Attestation (R461 to R463) -/

/-- The committed values of measurement 6: 0x3000, 0x3001, 0x8040, 0x9010 and 0x9061. -/
def committedBytes (s : State) : List (BitVec 8) :=
  (List.range 8).flatMap (fun i => leBytes 8 (s.obj 0x3000 i)) ++ (List.range 64).flatMap (fun i => leBytes 1 (s.obj 0x3001 i)) ++
    (List.range 8).flatMap (fun i => leBytes 16 (s.obj 0x8040 i)) ++ (List.range 16).flatMap (fun i => leBytes 16 (s.obj 0x9010 i)) ++
    (List.range 8).flatMap (fun i => leBytes 1 (s.obj 0x9061 i))

/-- The measurements of R463. -/
def measurements (s : State) : List (List (BitVec 8)) :=
  let img := s.regionImage s.fw.region
  let fuses := (List.range 4).flatMap s.keyHash ++ leBytes 1 s.keyState ++ leBytes 1 s.fuses.floor ++ s.ownerHash
  let keys := (List.range 8).flatMap fun n =>
    let k := AMap.getD s.amiso.opKeys n (0, List.replicate 32 0)
    leBytes 1 k.1 ++ shake256 k.2 32
  [Config.romDigest, shake256 fuses 32, shake256 (img.take 128) 32, shake256 (Image.body img) 32, s.fw.history,
    shake256 keys 32, shake256 s.committedBytes 32]

/-- The signed bytes of a report (R463). -/
def reportBytes (s : State) (nonce : List (BitVec 8)) : List (BitVec 8) :=
  leBytes 2 1 ++ leBytes 2 7 ++ leBytes 4 (s.obj 0x1000 2) ++ identityHash ++ nonce ++ leBytes 4 (s.obj 0x1030 1) ++
    leBytes 4 (Image.version s.runningHead) ++
    (s.measurements.zipIdx).flatMap fun (m : List (BitVec 8) × Nat) => leBytes 2 m.2 ++ List.replicate 6 0 ++ m.1

/-- A write of `attest_nonce`: a report for the writer, in place of any earlier one, to be signed (R463). -/
def attestNonce (s : State) (p : Party) (nonce : List (BitVec 8)) : ActResult :=
  let rest := s.amiso.reports.filter fun x => x.1 != p
  { state := { s with amiso := { s.amiso with reports := (p, s.reportBytes nonce, none) :: rest } } }

/-- Signing ends: `commit_seq` is that at signing. -/
def attestSigned (s : State) (p : Party) : State :=
  let signed := fun (b : List (BitVec 8)) =>
    let c := b.take 72 ++ leBytes 4 (s.obj 0x1030 1) ++ b.drop 76
    (c, some (Config.identitySign c))
  { s with amiso := { s.amiso with reports := s.amiso.reports.map fun (x : Party × List (BitVec 8) × Option (List (BitVec 8))) =>
      if x.1 = p ∧ x.2.2.isNone then (x.1, signed x.2.1) else x } }

/-- The ROM's announcement (step 3 of R454): an unsolicited READ reply with the six objects. -/
def announcement (s : State) : List (BitVec 8) :=
  let item := fun (index sub ty : Nat) (v : List (BitVec 8)) =>
    leBytes 2 index ++ leBytes 1 sub ++ leBytes 1 ty ++ leBytes 2 0 ++ leBytes 2 v.length ++ v ++
      List.replicate ((4 - v.length % 4) % 4) 0
  let body := item 0x1000 1 7 (ascii "JP-7416") ++ item 0x1000 2 2 (leBytes 2 0xB1) ++ item 0x8001 3 8 identityHash ++
    item 0xC002 1 1 (leBytes 1 s.keyState) ++ item 0xC002 2 1 (leBytes 1 s.fuses.floor) ++ item 0xC020 3 3 (leBytes 4 s.fwState)
  leBytes 1 4 ++ leBytes 1 0x81 ++ leBytes 2 0 ++ leBytes 4 0xFFFFFFFF ++ leBytes 2 (s.statusWord 16) ++
    leBytes 2 body.length ++ leBytes 4 0 ++ body

end State

/-- WATCHDOG_EXPIRY (R458). -/
def execWatchdogExpiry (s : State) : Outcome State Fault Refusal :=
  .next (if s.running && decide (1 ≤ s.fw.stage) then State.noteAll s s.mgmtRestart else s)

/-- FW_QUIESCENT_POINT (R457). -/
def execFwQuiescentPoint (s : State) : Outcome State Fault Refusal := .next (State.noteAll s s.handOver)

/-- FW_QUIESCE_TIMEOUT (step 3 of R457). -/
def execFwQuiesceTimeout (s : State) : Outcome State Fault Refusal :=
  .next (if s.mgmtUp && s.fw.stage == 4 then { s with fw := { s.fw with stage := 3, result := 8 } } else s)

/-- FW_ALIVE_TIMEOUT (R459): a new image has not reported alive in time. -/
def execFwAliveTimeout (s : State) : Outcome State Fault Refusal :=
  .next (if s.running && s.fw.handover && !s.fw.alive then s.fallback else s)

/-- ROM_ANNOUNCE (step 3 of R454). -/
def execRomAnnounce (s : State) : Outcome State Fault Refusal :=
  .next (if s.running && s.fw.stage == 0 then s.send (.announce s.announcement) else s)

/-- ATTEST_SIGN_COMPLETE (R463). -/
def execAttestSignComplete (r : Requester) (s : State) : Outcome State Fault Refusal :=
  .next (if s.mgmtUp then s.attestSigned (State.partyOf r) else s)

end Sys2Proof.Machine
end

