-- ==== Sys2Proof/Machine/Board.lean ====
section
/-! DEFINITION. Power-on, resets and bring-up (21_bring_up_and_reset.md), and the pins of the package (23_package_and_electrical.md). -/

namespace Sys2Proof.Machine

open Host (Outcome)

namespace State

/-! ### Device-wide resets (R469 to R474) -/

/-- The counters that their rules count from power-on, past every other reset (R171, R249, R345, R363, R393, R395, R418; DEDUCED, log
entry 29). -/
def sincePowerOn (k : Nat) : Bool :=
  let i := k / 256
  [0x4060, 0x5030, 0x5031, 0x5032, 0x5033, 0x5034, 0x5036, 0x5037, 0x6020, 0x6021, 0x6022, 0x6023, 0x6024, 0x6025, 0x6040, 0x7020,
    0x7021, 0x7022, 0x8050, 0x8051, 0x8052, 0x8053, 0x8054, 0x9030, 0x9031, 0x9032, 0x9033, 0x9034, 0x9120, 0x9121, 0x9122,
    0x9123].contains i || k == objKey 0xB001 2

/-- The dictionary objects a reset of a kind keeps (R470): the maps, the repair count, the
counters from power-on, with memory retained the withdrawn
units and the remap counts, and on a warm reset the CXL decoders and the host ports' readiness. -/
def keptObj (kind k : Nat) : Bool :=
  let i := k / 256
  i == 0x5002 || i == 0x4010 || i == 0x5060 || sincePowerOn k || (decide (2 ≤ kind) && (i == 0x9110 || i == 0x2001)) ||
    (kind == 3 && (i == 0x4055 || i == 0x4056 || i == 0x4062 || i == 0x4012))

/-- The `cluster_map` that power-on gives: as the repair records have it, with every physical cluster that the fuses mark bad
skipped, the lowest that is neither in use nor bad in its place (R11, R348, R466; DEDUCED, log entry 89). -/
def skipBad (bad : List Nat) (maps : AMap Nat) : AMap Nat :=
  let phys := fun (m : AMap Nat) (c : Nat) => (AMap.get? m (objKey 0x5002 c)).getD c
  (List.range 64).foldl (fun m c =>
    if bad.contains (phys m c) then
      match (List.range 66).find? fun p => !bad.contains p && !(List.range 64).any (fun d => phys m d == p) with
      | some p => AMap.set m (objKey 0x5002 c) p
      | none => m
    else m) maps

/-- The objects after a reset: those kept, or at power-on the maps of the fuses; and `last_reset` (R470, R472). A channel
that was being spared is in service again (R353). -/
def resetObjs (s : State) (kind : Nat) : AMap Nat :=
  let old := if kind = 0 then skipBad s.fuses.badClusters s.fuses.maps else s.objs.filter fun e => keptObj kind e.1 && !(e.1 / 256 == 0x4012 && e.2 == 1)
  AMap.put 0 old (objKey 0x2000 2) (if kind = 3 then 0x83 else kind)

/-- Cells that a retained reset keeps: every tier but the cluster stores (R470). -/
def keptAddr (a : Nat) : Bool := decide (a < storeBase) || decide (farBase ≤ a)

/-- The links of a bifurcation (R412), training. -/
def trainCxl (split : Nat) : AMap CxlLink :=
  (List.range (2 ^ split)).map fun l => (l, { state := 1 })

/-- The Sharel side after a reset: with memory retained the links stay and the claim counter is kept (R467, R470). -/
def resetFabric (s : State) (kind : Nat) : Fabric :=
  if kind = 3 then
    { claims := s.fabric.claims
      ports := s.fabric.ports.map fun (e : Nat × SharelPort) => (e.1, { up := e.2.up, speed := e.2.speed }) }
  else {}

/-- The tiers' state after a reset: remap entries and back-records stay with retained memory (R142, R470). -/
def resetTiers (s : State) (kind : Nat) : Tiers :=
  if kind = 3 then
    { remaps := s.tiers.remaps, homes := s.tiers.homes }
  else {}

/-- The firmware after a reset: the running image is reloaded where memory is retained, otherwise the ROM boots (R470). The
image history counts from power-on (R463). -/
def resetFw (s : State) (kind : Nat) : Firmware :=
  match kind with
  | 0 => {}
  | 3 => { s.fw with staged := false, alive := false, handover := false, result := 0, restarts := 0 }
  | _ => { history := s.fw.history }

/-- Sparing state after a reset: what is marked bad stays marked; a sparing before its step 5 is dropped (R353, R470). -/
def resetSparing (s : State) (kind : Nat) : Sparing :=
  if kind = 0 then { badClusters := s.fuses.badClusters, badChannels := s.fuses.badChannels }
  else { badClusters := s.sparing.badClusters, badChannels := s.sparing.badChannels, recordsDue := s.sparing.recordsDue }

/-- A device-wide reset of kind 0 to 3: every unit of its scope at its default, and what R470 keeps. Every context ends
without records. -/
def deviceReset (s : State) (kind : Nat) : State :=
  let warm := decide (2 ≤ kind)
  let split := if kind = 0 then 0 else s.obj 0x9100 1
  { pending := s.pending, free := s.free, out := s.out
    objs := s.resetObjs kind
    mem := if kind = 3 then s.mem.filter fun c => keptAddr c.1 else []
    poison := if kind = 3 then s.poison.filter fun x => keptAddr (x * 64) else []
    far := if warm then s.far else []
    farPoison := if warm then s.farPoison else []
    engines := if kind = 0 then [] else
      (s.engines.filter fun e => e.2.recordDue).map fun (e : Nat × Engine) => (e.1, { recordDue := true })
    lanes := if kind = 0 then s.fuses.lanes else s.lanes
    attn := if kind = 3 then s.attn else {}
    amiso := if kind = 3 then { opKeys := s.amiso.opKeys } else {}
    fns := if warm then s.fns else []
    hostPorts := if warm then s.hostPorts else []
    fabric := s.resetFabric kind
    cxl := if warm then s.cxl else trainCxl split
    tiers := s.resetTiers kind
    sparing := s.resetSparing kind
    fw := s.resetFw kind
    fuses := s.fuses
    power := if kind = 0 then {} else { mv := s.power.mv, asked := s.power.mv }
    board := { s.board with
      warm := none, inReset := decide (1 ≤ kind), retained := kind == 3
      mtu := 1280, prefix64 := 0, i3cDynamic := 0, eids := [] } }

/-- Bring-up starts (R454, R464, R466): every tier, cluster and, unless it is up already, host port starts; the ROM reloads a
retained image. -/
def bringUp (s : State) : State :=
  let start := fun (t : State) (x : Nat × Nat) => (List.range x.2).foldl (fun u i => u.setObj x.1 i 1) t
  let s := [(0x2002, 64), (0x2003, 2), (0x2004, 6)].foldl start s
  let s := (List.range 2).foldl (fun u p => if u.obj 0x2001 p = 0 then u.setObj 0x2001 p 1 else u) s
  if s.fw.stage = 0 then s else s.reloadImage

/-- POWER_ON (R469, R497): a supply ramp; DEV_RESET_N is low. -/
def powerOn (s : State) (straps : Nat) : State :=
  let s := s.deviceReset 0
  { s with board := { powered := true, straps := straps % 4 } }

/-- DEV_RESET_N goes low (R469, R499): a board reset, stretched to 1 ms, that takes over from any warm reset. A device that has
reset for a low rail only waits for its sequence again. -/
def boardReset (s : State) : State :=
  if !s.board.powered || !s.board.resetN || s.board.thermTrip then s
  else
    let s := if s.board.clocksStopped then s else s.deviceReset 1
    { s with board := { s.board with resetN := false, stretching := true, clocksStopped := false } }

/-- The internal stretch ends; bring-up starts if DEV_RESET_N is high again and the clocks run (R488, R499). -/
def stretchEnd (s : State) : State :=
  if !s.board.stretching then s
  else
    let s := { s with board := { s.board with stretching := false } }
    if s.board.resetN && !s.board.clocksStopped then s.bringUp else s

/-- DEV_RESET_N is released: the straps are sampled, and bring-up starts unless the stretch still runs (R497, R499, R502). -/
def resetRelease (s : State) (straps : Nat) : State :=
  if !s.board.powered || s.board.resetN || s.board.clocksStopped then s
  else
    let s := { s with board := { s.board with resetN := true, straps := straps % 4 } }
    let s := s.setObj 0x1040 1 (0x2C + straps % 4)
    if s.board.stretching then s else s.bringUp

/-- A rail stays low for 5 µs while DEV_RESET_N is high (R499): reset as at power-on, and clocks stop until the board sequences
again. -/
def undervoltage (s : State) : State :=
  if !s.board.powered || !s.board.resetN || s.board.clocksStopped then s
  else
    let s := s.deviceReset 0
    { s with board := { s.board with clocksStopped := true, inReset := false, stretching := false } }

/-- A write of `warm_reset`: answered, and due 1 ms later (R469). -/
def warmReset (s : State) (retain : Nat) : ActResult :=
  { state := { s with board := { s.board with warm := some (2 + retain % 2) } } }

/-- DEVICE_RESET_BEGIN (R471): the reset that was answered begins; attention follows it (R470). -/
def resetBegin (s : State) : State :=
  match s.board.warm with
  | some k => if s.running then (s.deviceReset k).bringUp.raise 8 2 0xFF 0x2000 2 0 else s
  | none => s

/-! ### Cluster reset (R473) -/

/-- The units of a logical cluster, stopped and cleared; its pinned translations and lane maps stay. -/
def resetUnits (s : State) (c : Nat) : State :=
  { s with
    cores := s.cores.filter fun e => e.1 / 4 != c
    engines := s.engines.map fun (e : Nat × Engine) =>
      if e.1 / 2 = c then (e.1, { e.2 with bufs := [], foreign := [], ramp := .dark }) else e
    power := { s.power with waiting := s.power.waiting.filter fun n => n / 2 != c } }

/-- A write of `cluster_reset`: refused while the cluster is spared or moved; otherwise its slices stop, its store is zeroed and
its self-test begins (steps 1 to 3). -/
def clusterReset (s : State) (c : Nat) : ActResult :=
  let x := s.cluster c
  if x.moving || x.mode == .handover || (s.sparing.active.any fun a => a.1 == c) then { state := s, status := 0x0206 }
  else
    let s := s.returnSlices c fun _ => true
    let s := (s.killSlices c (fun _ => true) Status.internal 0x33).resetUnits c
    let s := s.zeroRange (storeAddr c 0) 0x300000
    let keep := x.resident.filter fun n => (s.ctx n).cls == 0
    let s := s.setCluster c { s.cluster c with mode := .resetting, resident := keep, devArea := none, history := [], canaryDue := [], storeFailed := false }
    { state := s.setObj 0x2002 c 1 }

/-! ### Self-tests and training (R464, R466, R467) -/

/-- The logical cluster a physical one serves. -/
def logicalOf (s : State) (p : Nat) : Option Nat := (List.range 64).find? fun c => s.physOf c == p

/-- A logical cluster's self-test has passed: its store is zero, and it serves. -/
def clusterReady (s : State) (c : Nat) : State :=
  let s := s.zeroRange (storeAddr c 0) 0x300000
  let x := s.cluster c
  let s := if x.mode = .resetting then s.setCluster c { x with mode := .serving } else s
  s.setReady 0x2002 c 2

/-- A logical cluster whose physical cluster failed at bring-up is mapped to the lowest spare, or retired (R466). -/
def mapSpare (s : State) (c p : Nat) : State :=
  let s : State := { s with sparing := { s.sparing with
    badClusters := insertNat p s.sparing.badClusters, tested := s.sparing.tested.filter (· != p) } }
  match s.sparePhys.head? with
  | none => ((s.setReady 0x2002 c 3).setObj 0x5003 c 3).raise 2 2 0xFF 0x5003 c 0
  | some q =>
    let s := (s.setObj 0x5002 c q).oweRecord
    if s.sparing.tested.contains q then s.clusterReady c else s

/-- CLUSTER_SELF_TEST_COMPLETE: of a cluster in use, or of a spare tested with the others at bring-up. -/
def selfTested (s : State) (p : Nat) (pass : Bool) : State :=
  if !s.running then s
  else
    match s.logicalOf p with
    | none =>
      if s.sparing.badClusters.contains p then s
      else if pass then { s with sparing := { s.sparing with tested := insertNat p s.sparing.tested } }
      else { s with sparing := { s.sparing with badClusters := insertNat p s.sparing.badClusters } }
    | some c =>
      if s.obj 0x2002 c ≠ 1 then s
      else if pass then s.clusterReady c
      else if (s.cluster c).mode = .resetting then
        ((s.setCluster c { s.cluster c with mode := .serving, storeFailed := true }).setReady 0x2002 c 3).triggerSparing c
      else s.mapSpare c p

/-- The units of a tier: a layer's 64 channels or a stack's four groups, and the object that withdraws one. -/
def tierUnits (unit : Nat) : List Nat :=
  if unit < 2 then (List.range 64).map fun i => 64 * unit + i else (List.range 4).map fun i => 4 * (unit - 2) + i

/-- A unit of a tier that trained is in service; one that did not is withdrawn (R356, R466). -/
def unitTrained (s : State) (unit n : Nat) (failed : Bool) : State :=
  if failed then (if unit < 2 then s.withdrawChan n else s.withdrawGroup n)
  else if s.board.retained then s
  else s.setObj (if unit < 2 then 0x4012 else 0x4062) n 0

/-- MEMORY_TRAINING_COMPLETE: cover layer 0 or 1 (units 0 and 1) or stack 0 to 5 (units 2 to 7), with the channels of the layer
or groups of the stack that failed. -/
def memoryTrained (s : State) (unit : Nat) (failed : List Nat) : State :=
  let obj := if unit < 2 then 0x2003 else 0x2004
  let sub := if unit < 2 then unit else unit - 2
  if !s.running || 7 < unit || s.obj obj sub ≠ 1 then s
  else
    let us := tierUnits unit
    let t := us.foldl (fun t n => t.unitTrained unit n (failed.contains (n % us.length))) s
    let all := (List.range us.length).all failed.contains
    noteAll s (t.setReady obj sub (if all then 3 else 2))

/-! ### Pins, I3C, the management port -/

/-- THERM_TRIP (R488, R504): every clock stops, THERM_TRIP_N asserts. -/
def trip (s : State) : State :=
  if s.board.powered then { s with board := { s.board with thermTrip := true, clocksStopped := true } } else s

/-- POWER_DOWN (R498, R504): the rails go while DEV_RESET_N is low or after a thermal trip, and THERM_TRIP_N is released. -/
def powerDown (s : State) : State :=
  if s.board.resetN && !s.board.thermTrip then s
  else
    let s := s.deviceReset 0
    { s with board := { powered := false } }

/-- ROUTER_ADVERTISEMENT (R431): the link MTU, 1,280 at least, and an address prefix. -/
def routerAdvertisement (s : State) (mtu prefix64 : Nat) : State :=
  if s.running then { s with board := { s.board with mtu := max 1280 mtu, prefix64 := prefix64 % 2 ^ 64 } } else s

/-- The carrier of MCTP on a path: 0 I3C, 1 and 2 PCIe VDM of port A and B; the management network carries none. -/
def mctpCarrier (p : Path) : Option Nat :=
  match p with
  | .mgmt => none
  | .i3c => some 0
  | .hostA => some 1
  | .hostB => some 2

/-- MCTP_CONTROL_MESSAGE (R432): answered as DSP0236 requires of an endpoint. Set Endpoint ID (1) takes the ID, Get Endpoint ID
(2) reports it, Get Version Support (4) and Get Message Type Support (5) report type 0x7E, any other command is not supported
(log entry 19). -/
def mctpControl (s : State) (p : Path) (command arg : Nat) : State :=
  match mctpCarrier p with
  | none => s
  | some c =>
    if !s.mgmtUp then s
    else
      let eid := AMap.getD s.board.eids c 0
      match command with
      | 1 =>
        if arg = 0 ∨ 255 ≤ arg then s.send (.mctp p [1, 2])
        else
          ({ s with board := { s.board with eids := AMap.put 0 s.board.eids c arg } }).send
            (.mctp p ([1, 0, 0] ++ leBytes 1 arg ++ [0]))
      | 2 => s.send (.mctp p ([2, 0] ++ leBytes 1 eid ++ [0, 0]))
      | 4 => s.send (.mctp p [4, 0, 1, 0xF1, 0xF3, 0xF1, 0])
      | 5 => s.send (.mctp p [5, 0, 1, 0x7E])
      | _ => s.send (.mctp p (leBytes 1 command ++ [5]))

end State

/-- POWER_ON (R469, R497). -/
def execPowerOn (straps : Nat) (s : State) : Outcome State Fault Refusal := .next (s.powerOn straps)

/-- BOARD_RESET (R499). -/
def execBoardReset (s : State) : Outcome State Fault Refusal := .next s.boardReset

/-- RESET_STRETCH_END (R499). -/
def execResetStretchEnd (s : State) : Outcome State Fault Refusal := .next s.stretchEnd

/-- DEV_RESET_N_RELEASE (R497, R502). -/
def execDevResetNRelease (straps : Nat) (s : State) : Outcome State Fault Refusal := .next (s.resetRelease straps)

/-- RAIL_UNDERVOLTAGE (R499). -/
def execRailUndervoltage (s : State) : Outcome State Fault Refusal := .next s.undervoltage

/-- DEVICE_RESET_BEGIN (R471). -/
def execDeviceResetBegin (s : State) : Outcome State Fault Refusal := .next s.resetBegin

/-- CLUSTER_SELF_TEST_COMPLETE (R466). -/
def execClusterSelfTestComplete (phys : Nat) (pass : Bool) (s : State) : Outcome State Fault Refusal :=
  .next (s.selfTested phys pass)

/-- MEMORY_TRAINING_COMPLETE (R467). -/
def execMemoryTrainingComplete (unit : Nat) (failed : List Nat) (s : State) : Outcome State Fault Refusal :=
  .next (s.memoryTrained unit failed)

/-- THERM_TRIP (R488). -/
def execThermTrip (s : State) : Outcome State Fault Refusal := .next s.trip

/-- POWER_DOWN (R498). -/
def execPowerDown (s : State) : Outcome State Fault Refusal := .next s.powerDown

/-- ROUTER_ADVERTISEMENT (R431). -/
def execRouterAdvertisement (mtu prefix64 : Nat) (s : State) : Outcome State Fault Refusal :=
  .next (s.routerAdvertisement mtu prefix64)

/-- I3C_DYNAMIC_ADDRESS (R502). -/
def execI3cDynamicAddress (addr : Nat) (s : State) : Outcome State Fault Refusal :=
  .next (if s.running then { s with board := { s.board with i3cDynamic := addr } } else s)

/-- MCTP_CONTROL_MESSAGE (R432). -/
def execMctpControlMessage (path : Path) (command arg : Nat) (s : State) : Outcome State Fault Refusal :=
  .next (s.mctpControl path command arg)

end Sys2Proof.Machine
end

