-- ==== Sys2Proof/Machine/Power.lean ====
section
/-! DEFINITION. Clock islands, power and heat (22_power_clocks_thermal.md, R143 to R145, R496). -/

namespace Sys2Proof.Machine

open Host (Outcome)

namespace State

/-- The demands of logical cluster `c`. -/
def demand (s : State) (c : Nat) : Demand := AMap.getD s.power.demands c {}

def setDemand (s : State) (c : Nat) (d : Demand) : State :=
  { s with power := { s.power with demands := AMap.put {} s.power.demands c d } }

/-- The five demands in the order of `clk_limiter`'s codes: operator, power, cover thermal, die thermal, backstop (R479). -/
def demandList (s : State) (c : Nat) : List Nat :=
  let d := s.demand c
  [s.obj 0xB010 c, d.power, d.cover, d.die, d.backstop]

/-- The lowest demand. -/
def targetStep (s : State) (c : Nat) : Nat := (s.demandList c).foldl min 24

/-- The highest step the present voltage allows (R480, R496). -/
def voltStep (s : State) : Nat := (List.range 25).foldl (fun m n => if Config.vfTable n ≤ s.power.mv then n else m) 0

/-- `clk_step`: the lowest demand, and no step above the one the voltage allows. -/
def clkStep (s : State) (c : Nat) : Nat := min (s.targetStep c) s.voltStep

/-- `clk_limiter`: the lowest code among the demands that set the step; 0 where none does (R479). -/
def clkLimiter (s : State) (c : Nat) : Nat :=
  let t := s.targetStep c
  if t = 24 then 0 else ((s.demandList c).findIdx (· == t)) + 1

/-- `me_cap` (R483, R486). -/
def meCap (s : State) (c : Nat) : Nat := min (s.demand c).cap s.power.backstopCap

/-- The power manager asks the rail for the voltage of the highest step any island will run (R480). -/
def retune (s : State) : State :=
  let top := (List.range 64).foldl (fun m c => max m (s.targetStep c)) 0
  let want := Config.vfTable top
  if !s.mgmtUp || (want = s.power.asked && !s.power.avsHeld) then s
  else ({ s with power := { s.power with asked := want, avsHeld := false } }).send (.avs want)

/-! ### The ladder (R482) -/

/-- Times a rung has been taken. -/
def rungs (l : List Nat) (r : Nat) : Nat := (l.filter (· == r)).length

/-- Unassigned and retired clusters stay at step 0 and cap 4. -/
def parked (s : State) (c : Nat) : Bool := s.clusterPart c == 15 || s.obj 0x5003 c == 3

/-- The power manager's step of a cluster under a ladder. -/
def ladderStep (s : State) (l : List Nat) (c : Nat) : Nat :=
  if s.parked c then 0
  else if s.clusterReserved c then max (min 24 (s.obj 0xB000 4)) (24 - rungs l 3) - rungs l 4
  else if s.partValid (s.clusterPart c) then 24 - rungs l 1
  else 24

/-- The power manager's cap of a cluster under a ladder. -/
def ladderCap (s : State) (l : List Nat) (c : Nat) : Nat :=
  if s.parked c then 4
  else if s.clusterReserved c then max 4 (16 - 2 * rungs l 5)
  else max 4 (16 - 2 * rungs l 2 - 2 * rungs l 5)

/-- Rung `r` still has room: taking it changes some cluster. -/
def hasRoom (s : State) (r : Nat) : Bool :=
  let l := s.power.ladder
  (List.range 64).any fun c => s.ladderStep (r :: l) c != s.ladderStep l c || s.ladderCap (r :: l) c != s.ladderCap l c

/-- Every cluster's demands as the ladder now gives them. -/
def applyLadder (s : State) : State :=
  (List.range 64).foldl (fun t c =>
    t.setDemand c { t.demand c with power := s.ladderStep s.power.ladder c, cap := s.ladderCap s.power.ladder c }) s

/-- One rung down: rungs 4 and 5 raise attention once. With every rung exhausted, 0.1 ms more over the limit (R482). -/
def takeRung (s : State) : State :=
  match [1, 2, 3, 4, 5].find? s.hasRoom with
  | some r =>
    let first := rungs s.power.ladder r == 0
    let s := { s with power := { s.power with ladder := r :: s.power.ladder } }
    if r = 4 ∧ first then s.raise 7 1 0xFF 0xB001 1 0
    else if r = 5 ∧ first then s.raise 7 2 0xFF 0xB001 1 0
    else s
  | none =>
    let n := s.power.overTenths + 1
    if n < 10 then { s with power := { s.power with overTenths := n } }
    else ({ s with power := { s.power with overTenths := 0 } }).addObj 0xB001 3 1

/-- POWER_SAMPLE: the sample, and at most one rung (R481, R482). -/
def powerSample (s : State) (watts joules : Nat) : State :=
  if !s.running then s
  else
    let s := (s.setObj 0xB001 1 (watts % 65536)).addObj 0xB001 2 joules
    if !s.mgmtUp then s
    else
      let limit := s.obj 0xB000 1
      let s :=
        if limit < watts then s.takeRung
        else if watts + s.obj 0xB000 3 < limit then { s with power := { s.power with ladder := s.power.ladder.tail } }
        else s
      s.applyLadder.retune

/-! ### Heat (R143 to R145, R487) -/

/-- A demand one step up; 24 once it no longer binds beside the lowest other demand. -/
def stepUp (d others : Nat) : Nat := if others ≤ d + 1 then 24 else d + 1

/-- The lowest demand of a cluster with one of them left out, by its place in the list of demands. -/
def otherMin (s : State) (c i : Nat) : Nat := ((s.demandList c).eraseIdx i).foldl min 24

/-- The cover-tier loop of one cluster: at 95 °C step 0 at once; from the start temperature on a step down from the step in
force; below the start by the hysteresis a step up (R144, R145). -/
def coverLoop (s : State) (c : Nat) (reading : Int) : State :=
  let old := toSigned 32 (s.obj 0xB040 c)
  let start : Int := s.obj 0xB041 1
  let hyst : Int := s.obj 0xB041 2
  let d := s.demand c
  let s := s.setObj 0xB040 c (ofSigned 32 reading)
  let s := if reading < start then
    { s with tiers := { s.tiers with capped := s.tiers.capped.filter fun n => n % 64 != c } } else s
  if 95 ≤ reading then
    let s := s.setDemand c { d with cover := 0 }
    if old < 95 then s.raise 7 1 0xFF 0xB040 c 0 else s
  else if start ≤ reading then s.setDemand c { d with cover := min d.cover (s.clkStep c) - 1 }
  else if reading < start - hyst then s.setDemand c { d with cover := stepUp d.cover (s.otherMin c 2) }
  else s

/-- The die loop of one cluster: at 105 °C step 0 at once; from the throttle temperature on a step down; below it by the hysteresis a step
up (R487). -/
def dieLoop (s : State) (c : Nat) (reading : Int) : State :=
  let old := toSigned 32 (s.obj 0xB042 c)
  let limit : Int := s.obj 0xB043 1
  let hyst : Int := s.obj 0xB041 2
  let d := s.demand c
  let s := s.setObj 0xB042 c (ofSigned 32 reading)
  if 105 ≤ reading then
    let s := s.setDemand c { d with die := 0 }
    if old < 105 then s.raise 7 1 0xFF 0xB042 c 0 else s
  else if limit ≤ reading then s.setDemand c { d with die := d.die - 1 }
  else if reading < limit - hyst then s.setDemand c { d with die := stepUp d.die (s.otherMin c 3) }
  else s

/-- THERMAL_LOOP_TICK: each island against its own cover and die readings, as 32-bit two's complement numbers by logical
cluster; a cluster beyond a list keeps its last reading. -/
def thermalTick (s : State) (cover die : List Nat) : State :=
  if !s.running then s
  else (List.range 64).foldl (fun t c =>
    (t.coverLoop c (toSigned 32 (cover.getD c (t.obj 0xB040 c)))).dieLoop c (toSigned 32 (die.getD c (t.obj 0xB042 c)))) s

/-- DIE_TEMP_LIMIT: a reading of 105 °C drops the island at once (R487). -/
def dieLimit (s : State) (c : Nat) : State :=
  if !s.running then s
  else ((s.setObj 0xB042 c 105).setDemand c { s.demand c with die := 0 }).raise 7 1 0xFF 0xB042 c 0

/-! ### The backstop (R486) -/

/-- CORE_CURRENT_TRIP. -/
def coreTrip (s : State) : State :=
  if !s.running then s
  else
    let t := (List.range 64).foldl (fun t c => t.setDemand c { t.demand c with backstop := s.clkStep c - 4 }) s
    ({ t with power := { t.power with backstopCap := 8 } }).countRaise 7 1 0xFF 0xB000 6 0

/-- BACKSTOP_LIFT: one step and cap 2, until they no longer bind. -/
def backstopLift (s : State) : State :=
  if !s.running then s
  else
    let t := (List.range 64).foldl (fun t c =>
      t.setDemand c { t.demand c with backstop := stepUp (t.demand c).backstop (s.otherMin c 4) }) s
    { t with power := { t.power with backstopCap := min 16 (t.power.backstopCap + 2) } }

/-! ### The rail (R480, R496) -/

/-- VOLTAGE_RAIL_REPORT. -/
def railReport (s : State) (mv : Nat) : State :=
  if s.running then { s with power := { s.power with mv := mv, avsHeld := false } } else s

/-- AVS_TIMEOUT: a command that asked for another voltage is unanswered; the voltage stays as it was. -/
def avsTimeout (s : State) : State :=
  if !s.running || s.power.asked = s.power.mv then s
  else ({ s with power := { s.power with asked := s.power.mv, avsHeld := true } }).raise 7 2 0xFF 0xB012 0 0

end State

/-- THERMAL_LOOP_TICK (R144, R487). -/
def execThermalLoopTick (cover die : List Nat) (s : State) : Outcome State Fault Refusal := .next (s.thermalTick cover die)

/-- DIE_TEMP_LIMIT (R487). -/
def execDieTempLimit (cc : Nat) (s : State) : Outcome State Fault Refusal := .next (s.dieLimit cc)

/-- POWER_SAMPLE (R482). -/
def execPowerSample (watts joules : Nat) (s : State) : Outcome State Fault Refusal := .next (s.powerSample watts joules)

/-- CORE_CURRENT_TRIP (R486). -/
def execCoreCurrentTrip (s : State) : Outcome State Fault Refusal := .next s.coreTrip

/-- BACKSTOP_LIFT (R486). -/
def execBackstopLift (s : State) : Outcome State Fault Refusal := .next s.backstopLift

/-- VOLTAGE_RAIL_REPORT (R480). -/
def execVoltageRailReport (mv : Nat) (s : State) : Outcome State Fault Refusal := .next (s.railReport mv)

/-- AVS_TIMEOUT (R496). -/
def execAvsTimeout (s : State) : Outcome State Fault Refusal := .next s.avsTimeout

end Sys2Proof.Machine
end

