-- ==== Sys2Proof/Machine/Objects.lean ====
section
/-! DEFINITION. Reading the dictionary (19_amiso_dictionary.md): the value of every object, stored or reported, and the rights
that guard it (R419 to R425). -/

namespace Sys2Proof.Machine

namespace State

/-! ### Reported values -/

/-- `ctx_info` of context `n` (R317). -/
def ctxInfo (s : State) (n : Nat) : Nat :=
  let c := s.ctx n
  match c.phase with
  | .closed => 0
  | p =>
    let state := if p = .tearing then 3 else if s.ctxBusy n then 2 else 1
    c.root / 4096 % 2 ^ 40 + c.verMbox % 16 * 2 ^ 40 + c.verCpl % 16 * 2 ^ 44 + c.verQuire % 16 * 2 ^ 48 +
      b2n c.placeRight * 2 ^ 54 + b2n c.readback * 2 ^ 55 + b2n c.shared * 2 ^ 56 + c.cls % 4 * 2 ^ 57 +
      c.partition % 8 * 2 ^ 59 + state * 2 ^ 62

/-- `graph_gen` of handle `h`; 0 where it is not bound (R271). -/
def graphGen (s : State) (h : Nat) : Nat :=
  match AMap.get? s.graphs h with
  | some g => if g.unbound then 0 else g.current
  | none => 0

/-- `link_status` of host port `p` (R395). -/
def linkStatus (s : State) (p : Nat) : Nat :=
  let x := s.hostPort p
  if x.link = 2 then x.width * 256 + x.speed * 16 + b2n x.flit * 8 + 2 else x.link

/-- `tag_root` of tag `t` (R209). -/
def tagRoot (s : State) (t : Nat) : Nat := ((s.tag t).root.getD 0) / 65536 * 65536

/-- `me_lane_out` of engine `2 c + e`; 0xFF for none (R54). -/
def laneOutObj (s : State) (n : Nat) : Nat := AMap.getD s.lanes (2 * s.physOf (n / 2) + n % 2) 0xFF

/-- `gpio_in` (R503): outputs read their level, inputs, GPIO0 and GPIO1 among them, what the board drives. -/
def gpioIn (s : State) (pins : Nat) : Nat :=
  let dir := s.obj 0xD020 1
  (dir &&& s.obj 0xD020 2) ||| (pins % 256 &&& (255 - dir % 256))

/-- The value of a scalar or record object: what the device reports, or the stored value. -/
def objValue (s : State) (index sub : Nat) : Nat :=
  match index with
  | 0x2000 => if sub = 1 then s.rdySummary else s.obj index sub
  | 0x2005 => s.ready? index sub
  | 0x2006 => s.ready? index sub
  | 0x2007 => s.ready? index sub
  | 0x2008 => s.rdyMgmt
  | 0x3002 => if sub = 1 then b2n s.movePending else s.obj index sub
  | 0x3010 => s.ctxInfo sub
  | 0x3011 => s.ctxInfo (256 + sub)
  | 0x3012 => s.ctxInfo (512 + sub)
  | 0x3013 => s.ctxInfo (768 + sub)
  | 0x3031 => s.swapFree sub
  | 0x3090 => if sub = 1 then s.heldCount else s.obj index sub
  | 0x3100 => s.tagState sub
  | 0x3101 => s.tagRoot sub
  | 0x3106 => (List.range 8).foldl (fun v nn => v + b2n (s.pinPending nn) * 2 ^ nn) 0
  | 0x4011 => (s.freeChans sub).length
  | 0x4020 => s.nearCover sub
  | 0x4021 => nearStackOf (s.physOf sub)
  | 0x4101 => b2n (s.tiers.placementWait.any fun w => bits w.2 215 210 == sub && decide (bits w.2 209 207 < 4))
  | 0x5006 => s.spareClusters
  | 0x5020 => s.laneOutObj sub
  | 0x6110 =>
    if sub = 3 then (s.weevils.hive.filter (·.2.valid)).length
    else if sub = 4 then (s.weevils.hive.filter fun e => !e.2.valid).length
    else s.obj index sub
  | 0x6201 => s.weevils.latched.foldl (fun n e => if shardGroup e.1 = sub then n + e.2 else n) 0
  | 0x7001 => b2n s.arbPending
  | 0x8001 =>
    match sub with
    | 2 => s.fabric.addr
    | 4 => s.fabric.claims
    | _ => s.obj index sub
  | 0x8002 => s.portState sub
  | 0x8003 => if (s.sharelPort sub).up then (s.sharelPort sub).speed else 0
  | 0x8030 => s.fabric.routes.length
  | 0x9001 => Config.subsystemId % 65536
  | 0x9002 => s.linkStatus sub
  | 0x9070 => s.ctxOwner sub
  | 0x9071 => s.ctxOwner (256 + sub)
  | 0x9072 => s.ctxOwner (512 + sub)
  | 0x9073 => s.ctxOwner (768 + sub)
  | 0x9101 => s.cxlWord sub
  | 0x9102 => (s.cxlLink sub).capacity
  | 0xA000 => ((s.attn.log.getLast?).map (·.seq)).getD 0
  | 0xA030 => s.statusWord sub
  | 0xB011 => s.clkStep sub
  | 0xB012 => Config.vfTable sub
  | 0xB013 => s.clkLimiter sub
  | 0xB014 => s.meCap sub
  | 0xC002 => if sub = 1 then s.keyState else if sub = 2 then s.fuses.floor else 0
  | 0xC010 => if sub = 5 then s.amiso.sessions.length else s.obj index sub
  | 0xC012 => if sub = 4 then 4 - s.fuses.owners.length else 0
  | 0xC020 =>
    match sub with
    | 3 => s.fwState
    | 4 => if s.fw.stage = 0 then 0 else Image.version s.runningHead
    | 5 => if s.fw.stage = 0 then 0 else Image.svn s.runningHead
    | 6 => if s.fw.staged then Image.version s.stagedHead else 0
    | _ => s.obj index sub
  | _ => if 0x3050 ≤ index ∧ index ≤ 0x305F then s.graphGen ((index - 0x3050) * 256 + sub) else s.obj index sub

/-- The 32 bytes of an attention entry (R298). -/
def entryBytes (e : Event) : List (BitVec 8) :=
  leBytes 32 (e.seq + e.source * 2 ^ 32 + e.severity * 2 ^ 37 + e.parts * 2 ^ 40 + e.code * 2 ^ 48 + e.sub * 2 ^ 64 +
    e.value * 2 ^ 72 + e.addr % 2 ^ 64 * 2 ^ 128 + e.stamp * 2 ^ 192)

/-- `attn_log` (R298): the entry of sequence s at position s modulo 1,024. -/
def attnLog (s : State) : List (BitVec 8) :=
  (List.range 1024).flatMap fun i =>
    match s.attn.log.reverse.find? fun e => e.seq % 1024 == i with
    | some e => entryBytes e
    | none => List.replicate 32 0

/-- `canary_suspect` of cluster `c` (R342). -/
def suspectReport (s : State) (c : Nat) : List (BitVec 8) :=
  (s.cluster c).report.flatMap fun (x : Suspect) =>
    leBytes 16 (x.last * 2 ^ 32 + x.first * 2 ^ 48 + x.core * 2 ^ 72 + x.ctx * 2 ^ 74 + x.op * 2 ^ 84 + x.seq * 2 ^ 96)

/-- `shard_counts` of Weevil `w` (R193). -/
def shardCounts (s : State) (w : Nat) : List (BitVec 8) :=
  (List.range 6144).flatMap fun i => leBytes 4 (AMap.getD s.weevils.latched (bulkBase / 2 ^ 21 + 6144 * w + i) 0)

/-- The report of a party (R463); none while its signature is being made. -/
def reportOf (s : State) (p : Party) : Option (List (BitVec 8)) :=
  match s.amiso.reports.find? fun x => x.1 == p with
  | none => some []
  | some (_, b, some sig) => some (b ++ sig)
  | some _ => none

/-- The bytes of a BLOB or STR object; none where the object is busy. -/
def objBlob (s : State) (p : Party) (index sub : Nat) : Option (List (BitVec 8)) :=
  match index with
  | 0x1000 => some (ascii "JP-7416")
  | 0x1020 => some Catalog.blob
  | 0x5050 => some (s.suspectReport sub)
  | 0x6200 => some (s.shardCounts sub)
  | 0x8001 => some identityHash
  | 0xA010 => some s.attnLog
  | 0xC001 => some (s.keyHash sub)
  | 0xC012 => some s.ownerHash
  | 0xC050 =>
    match sub with
    | 1 => some Config.identityPk
    | 2 => some Config.identityCert
    | _ => s.reportOf p
  | _ => some []

/-- The bytes of an object's value. `gpio_in` reads pins whose level the board sets, and a read of `sess_challenge` issues a
challenge (R440): these two draw what they answer. -/
def readObj (s : State) (r : Requester) (d : ObjDef) (sub : Nat) : Option (List (BitVec 8)) × State :=
  if d.index = 0xD020 ∧ sub = 3 then
    let (x, t) := s.draw
    (some (leBytes 1 (t.gpioIn x)), t)
  else if d.index = 0xC010 ∧ sub = 1 then
    let (x, t) := s.draw
    let c := leBytes 32 x
    (some c, { t with amiso := { t.amiso with challenges := (r.path, r.ident, c) :: t.amiso.challenges } })
  else if d.ty = 7 ∨ d.ty = 8 then (s.objBlob (partyOf r) d.index sub, s)
  else (some (leBytes (Catalog.bytesOf d) (s.objValue d.index sub)), s)

/-! ### Rights (R424, R425) -/

/-- The session a request names, when it is one of this path and requester. -/
def sessionOf (s : State) (r : Requester) : Option Session :=
  if r.session = 0 then none
  else s.amiso.sessions.find? fun x => x.n == r.session && x.path == r.path && x.ident == r.ident

/-- The session's owner grant covers an index (R443). -/
def grantCovers (g : OwnerGrant) (index : Nat) : Bool :=
  g.uses != some 0 && g.ranges.any fun x => decide (x.1 ≤ index) && decide (index ≤ x.2)

/-- The owner rule for an index. -/
def ownerOf (s : State) (r : Requester) (index : Nat) : Bool :=
  match s.sessionOf r with
  | some x => x.grant.any fun g => grantCovers g index
  | none => false

/-- The operator rule for an index; owner includes operator. -/
def operatorOf (s : State) (r : Requester) (index : Nat) : Bool :=
  match s.sessionOf r with
  | some x => decide (2 ≤ x.role) || s.ownerOf r index
  | none => false

/-- Partition `p` is the function's own (R425). -/
def ownsPart (s : State) (f p : Nat) : Bool := s.partValid p && s.partFn p == f

/-- Object `index.sub` is in function `f`'s scope (R425). -/
def fnScope (s : State) (f : Nat) (d : ObjDef) (sub : Nat) : Bool :=
  match d.scope with
  | .device => true
  | .partition => s.ownsPart f sub
  | .cluster => s.ownsPart f (s.clusterPart sub)
  | .engine => s.ownsPart f (s.clusterPart (sub / 2))
  | .context => s.ownsPart f (s.ctx (d.index % 4 * 256 + sub)).partition && (s.ctx (d.index % 4 * 256 + sub)).phase != .closed
  | .fn => sub == f || (f % 8 == 0 && sub / 8 == f / 8)
  | .slot => f % 8 == 0 && sub / 32 == f / 8
  | .reader => sub == f
  | .hostPort => f == 8 * sub

/-- Rule code `code` of R424 is met. -/
def meetsRule (s : State) (r : Requester) (d : ObjDef) (sub code : Nat) : Bool :=
  match code with
  | 1 => true
  | 2 =>
    (match hostFnOf r with
      | some f => s.fnScope f d sub
      | none => false) || s.operatorOf r d.index
  | 3 => s.operatorOf r d.index
  | 4 => s.ownerOf r d.index
  | _ => false

/-- The number of a path (R422). -/
def pathNum (p : Path) : Nat :=
  match p with
  | .mgmt => 0
  | .i3c => 1
  | .hostA => 2
  | .hostB => 3

/-- The read rule of an object is met. -/
def mayRead (s : State) (r : Requester) (d : ObjDef) (sub : Nat) : Bool :=
  s.meetsRule r d sub (Catalog.rights d (pathNum r.path) % 8)

/-- Every operator key slot reads disabled (R453). -/
def noOpKeys (s : State) : Bool := s.amiso.opKeys.all fun e => e.2.1 == 0

/-- The write rule of an object is met, with what its own rule adds: operator keys by the board controller while none is
enabled (R453); images while no firmware runs (R454); the first owner by the board controller and later ones under a grant
(R452); acknowledgements on the reader's own path (R299); grants within a session; resets by an operator on the management
network or I3C (R469). -/
def mayWrite (s : State) (r : Requester) (d : ObjDef) (sub : Nat) : Bool :=
  let rule := s.meetsRule r d sub (Catalog.rights d (pathNum r.path) / 8)
  if d.index = 0xC011 then rule || (r.path == .i3c && s.noOpKeys)
  else if d.index = 0xC020 ∧ sub = 1 then (if s.fw.stage = 0 then r.path != .i3c && r.session == 0 else rule)
  else if d.index = 0xC012 ∧ sub = 3 then
    (if s.fuses.owners.isEmpty then r.path == .i3c else s.ownerOf r 0xC012)
  else if d.index = 0xC012 ∧ sub = 1 then (s.sessionOf r).isSome
  else if d.index = 0xA020 then rule && sub == readerOf r
  else if d.index = 0x2010 then rule && (r.path == .mgmt || r.path == .i3c)
  else if d.index = 0x9060 then (hostFnOf r).isSome
  else if d.index = 0x9010 then hostFnOf r == some (sub / 8 * 8) || s.operatorOf r d.index
  else if d.index = 0x3020 then (hostFnOf r).isSome || s.operatorOf r d.index
  else rule

/-- The index is present: in the ROM stage only what R454 names. -/
def present (s : State) (index sub : Nat) : Option ObjDef :=
  let rom := [(0x1000, 1), (0x1000, 2), (0x8001, 3), (0xC002, 1), (0xC002, 2), (0xC020, 3), (0xC020, 1), (0xC050, 1), (0xC050, 2)]
  if s.fw.stage = 0 ∧ (rom.contains (index, sub)) = false then none else Catalog.find index sub

end State

end Sys2Proof.Machine
end

