-- ==== Sys2Proof/Machine/Commit.lean ====
section
/-! DEFINITION. Staging and commit (R434, R435): the rules a commit checks over the committed values and the stage set together,
and what it does when they hold. -/

namespace Sys2Proof.Machine

namespace State

/-- The value of an object in the committed values with a stage set over them. -/
def viewOf (s : State) (st : AMap Nat) (index sub : Nat) : Nat := (AMap.get? st (objKey index sub)).getD (s.obj index sub)

/-- A function that may be one or none per index: whether `p` holds of every pair of different subindices. -/
def eachOther (n i : Nat) (p : Nat → Bool) : Bool := (List.range n).all fun j => i == j || p j

/-! ### Rules over several objects (step 2 of R435) -/

/-- R312: no two valid partitions of one function; a partition valid before and after keeps port, function and `ws_len`. -/
def partCfgOk (s : State) (st : AMap Nat) (p : Nat) : Bool :=
  let new := s.viewOf st 0x3000 p
  let old := s.obj 0x3000 p
  !flag new 63 ||
    (eachOther 8 p (fun q => !flag (s.viewOf st 0x3000 q) 63 || bits (s.viewOf st 0x3000 q) 62 59 != bits new 62 59) &&
      (!flag old 63 || bits new 62 53 == bits old 62 53))

/-- R328: a move needs a new partition that is valid, no move pending, and no open class-0 context on the cluster, which a
teardown of the old partition in the same commit ends first. -/
def clusterPartOk (s : State) (st : AMap Nat) (c : Nat) : Bool :=
  let new := s.viewOf st 0x3001 c
  let old := s.obj 0x3001 c
  let p := bits old 3 0
  if bits new 4 0 = bits old 4 0 ∨ s.partValid p = false then true
  else
    decide (bits new 3 0 < 8) && flag (s.viewOf st 0x3000 (bits new 3 0)) 63 && !s.movePending &&
      (!s.heldC0 c || !flag (s.viewOf st 0x3000 p) 63)

/-- Bytes `[a, b)` lie within one valid private region of partition `p` (R118). -/
def inPrivate (s : State) (st : AMap Nat) (p a b : Nat) : Bool :=
  (List.range 64).any fun n =>
    let v := s.viewOf st 0x4030 n
    flag v 63 && bits v 62 60 == p && decide (bits v 18 0 * 65536 ≤ a) &&
      decide (b ≤ (bits v 18 0 + bits v 38 19) * 65536)

/-- R314. -/
def swapPoolOk (s : State) (st : AMap Nat) (p : Nat) : Bool :=
  let new := s.viewOf st 0x3030 p
  let old := s.obj 0x3030 p
  (!flag new 63 || s.inPrivate st p (bits new 12 0 * 2 ^ 22) ((bits new 12 0 + bits new 45 32) * 2 ^ 22)) &&
    ((s.slotsUsed p).isEmpty ||
      (flag new 63 && bits new 12 0 == bits old 12 0 && decide (bits old 45 32 ≤ bits new 45 32)))

/-- R270. -/
def graphStoreOk (s : State) (st : AMap Nat) (p : Nat) : Bool :=
  let new := s.viewOf st 0x3040 p
  (!flag new 63 || s.inPrivate st p (bits new 18 0 * 65536) ((bits new 18 0 + bits new 38 19) * 65536)) &&
    (new == s.obj 0x3040 p || !s.graphs.any fun g => g.2.part == p && !g.2.gens.isEmpty)

/-- R285. -/
def fenceRangeOk (s : State) (st : AMap Nat) (p : Nat) : Bool :=
  let f := fun (q : Nat) => bits (s.viewOf st 0x3070 q) 11 0
  let n := fun (q : Nat) => bits (s.viewOf st 0x3070 q) 24 12
  decide (f p + n p ≤ 4096) &&
    eachOther 8 p fun q => n p == 0 || n q == 0 || decide (f p + n p ≤ f q) || decide (f q + n q ≤ f p)

/-- R211. -/
def pinSpaceOk (s : State) (st : AMap Nat) (nn : Nat) : Bool :=
  let v := s.viewOf st 0x3104 nn
  bits v 15 12 == 0 && (!flag v 0 || eachOther 8 nn fun m => !flag (s.viewOf st 0x3104 m) 0 || bits (s.viewOf st 0x3104 m) 51 16 != bits v 51 16)

/-- Replica range of cluster `c` for a limit in MiB (R168): its first byte and the byte after its last. -/
def hiveSpan (limit c : Nat) : Nat × Nat :=
  let n := 64 * (c % 2) + c
  let top := if n = 127 then coverTop else (n + 1) * 2 ^ 28
  (top - limit * 2 ^ 20, top)

/-- A private region meets a replica range. -/
def meetsHive (limit v : Nat) : Bool :=
  limit != 0 && flag v 63 && (List.range 64).any fun c =>
    decide (bits v 18 0 * 65536 < (hiveSpan limit c).2) && decide ((hiveSpan limit c).1 < (bits v 18 0 + bits v 38 19) * 65536)

/-- R118. -/
def privateOk (s : State) (st : AMap Nat) (n : Nat) : Bool :=
  let v := s.viewOf st 0x4030 n
  let lo := bits v 18 0
  let hi := lo + bits v 38 19
  !flag v 63 ||
    (decide (hi * 65536 ≤ coverTop) && !meetsHive (s.viewOf st 0x6110 2) v &&
      eachOther 64 n fun m =>
        let w := s.viewOf st 0x4030 m
        !flag w 63 || decide (hi ≤ bits w 18 0) || decide (bits w 18 0 + bits w 38 19 ≤ lo))

/-- R168. -/
def hiveLimitOk (s : State) (st : AMap Nat) : Bool :=
  let limit := s.viewOf st 0x6110 2
  !(s.weevils.hive.any fun e => e.2.valid) && (List.range 64).all fun n => !meetsHive limit (s.viewOf st 0x4030 n)

/-- R231. -/
def splitOk (v : Nat) : Bool := bits v 23 16 + bits v 15 8 + bits v 7 0 == 64

/-- R384 and R405: a valid value names a partition that is valid. -/
def namesValid (s : State) (st : AMap Nat) (valid : Bool) (p : Nat) : Bool := !valid || flag (s.viewOf st 0x3000 p) 63

/-- The rule of one object over the view. -/
def commitRule (s : State) (st : AMap Nat) (index sub : Nat) : Bool :=
  match index with
  | 0x3000 => s.partCfgOk st sub
  | 0x3001 => s.clusterPartOk st sub
  | 0x3030 => s.swapPoolOk st sub
  | 0x3040 => s.graphStoreOk st sub
  | 0x3070 => s.fenceRangeOk st sub
  | 0x3104 => s.pinSpaceOk st sub
  | 0x4030 => s.privateOk st sub
  | 0x6110 => s.hiveLimitOk st
  | 0x7100 => splitOk (s.viewOf st index sub)
  | 0x8040 => s.namesValid st (flag (s.viewOf st index sub) 0) (bits (s.viewOf st index sub) 3 1)
  | 0x9061 => s.namesValid st (flag (s.viewOf st index sub) 7) sub
  | 0x9110 => s.decodersOk ((List.range 8).map (s.obj 0x9110)) ((List.range 8).map (s.viewOf st 0x9110))
  | _ => true

/-- The objects whose rules a stage set touches: its own, and with a private region the pools and stores that lie in one
(R270, R314). -/
def touched (st : AMap Nat) : List Nat :=
  let more := if st.any fun e => e.1 / 256 == 0x4030 then
    (List.range 8).map (objKey 0x3030) ++ (List.range 8).map (objKey 0x3040) else []
  more.foldl (fun l k => insertNat k l) (st.map (·.1))

/-- The lowest object whose rule fails (step 3 of R435). -/
def refusing (s : State) (st : AMap Nat) : Option Nat :=
  (touched st).find? fun k => !s.commitRule st (k / 256) (k % 256)

/-! ### Effects (steps 4 and 5 of R435) -/

/-- A partition is set up (R312): its fences and counters at 0, its split latched. -/
def setUpPart (s : State) (p : Nat) : State :=
  let r := s.obj 0x3070 p
  let out := fun (f : Nat) => decide (f < bits r 11 0) || decide (bits r 11 0 + bits r 24 12 ≤ f)
  let s : State := { s with
    fences := s.fences.filter fun e => out e.1
    fencePoison := s.fencePoison.filter out
    splits := AMap.set s.splits p (s.obj 0x7100 p) }
  ((s.setObj 0x3060 p 0).setObj 0x3061 p 0).setObj 0x3062 p 0

/-- The contexts of a partition that are not closed. -/
def ctxsOfPart (s : State) (p : Nat) : List Nat :=
  (s.ctxs.filter fun e => e.2.phase != .closed && e.2.partition == p).map (·.1)

/-- A partition's `valid` goes to 0 (R312, R384): every context is torn down, and no sub-window of it stays in force. -/
def tearDownPart (s : State) (p : Nat) : State :=
  let s := (s.ctxsOfPart p).foldl (fun t n => t.beginTeardown n true) s
  (List.range 8).foldl (fun t k =>
    let v := t.obj 0x8040 k
    if flag v 0 && bits v 3 1 == p then t.setObj 0x8040 k (v - 1) else t) s

/-- A cluster whose `cluster_part` changed, from the value `old`: a move when the old partition was valid, otherwise it is
cleared at once (R328). A cluster that still moves goes to the value committed last. -/
def changeCluster (before s : State) (c old : Nat) : State :=
  if bits old 4 0 = bits (s.obj 0x3001 c) 4 0 ∨ (s.cluster c).moving = true then s
  else if before.partValid (bits old 3 0) then s.beginMove c old
  else s.adoptCluster c

/-- A `pin_space` entry whose value changed: the old root is unpinned (R211). -/
def changePin (before s : State) (nn : Nat) : State :=
  let old := before.obj 0x3104 nn
  let keep := flag (s.obj 0x3104 nn) 0 && bits (s.obj 0x3104 nn) 51 16 == bits old 51 16
  if flag old 0 && !keep then s.unpinRoot (bits old 51 16 * 65536) else s

/-- What a commit does once its values are committed, and the contexts its answer waits for. -/
def commitEffects (before s : State) (st : AMap Nat) : State × List Nat :=
  let has := fun (i : Nat) => st.any fun e => e.1 / 256 == i
  let subs := fun (i : Nat) => (st.filter fun e => e.1 / 256 == i).map fun e => e.1 % 256
  let going := (subs 0x3000).filter fun p => before.partValid p && !s.partValid p
  let coming := (subs 0x3000).filter fun p => !before.partValid p && s.partValid p
  let waits := going.flatMap s.ctxsOfPart
  let s := going.foldl tearDownPart s
  let s := coming.foldl setUpPart s
  let s := (subs 0x3001).foldl (fun t c => changeCluster before t c (before.obj 0x3001 c)) s
  let s := ((subs 0x3104).foldl (fun t nn => changePin before t nn) s).bindPins
  let s := (List.range 6).foldl (fun t kk => if has (0x7010 + kk) then t.staleArbs kk else t) s
  let s := if has 0x9110 then s.programExpanders else s
  (s, waits)

/-- The values of a stage set made committed at once (step 4). -/
def putAll (s : State) (st : AMap Nat) : State := st.foldl (fun t e => t.setObj (e.1 / 256) (e.1 % 256) e.2) s

/-- A stage set committed: refused with the object named, or committed with the contexts the answer waits for. -/
def commitSet (s : State) (st : AMap Nat) : Except Nat (State × List Nat) :=
  if st.isEmpty then .ok (s, [])
  else
    match s.refusing st with
    | some k => .error k
    | none => .ok (commitEffects s ((s.putAll st).addObj 0x1030 1 1) st)

end State

end Sys2Proof.Machine
end

