-- ==== Sys2Proof/Machine/Sessions.lean ====
section
/-! DEFINITION. Sessions, owner grants and operator keys (R440 to R443, R453), bulk transfers' ends, and the actions behind the
write-only objects of the dictionary. -/

namespace Sys2Proof.Machine

namespace State

/-! ### Ends of transfers and sessions -/

/-- Bulk transfers that meet a condition are dropped; a firmware transfer leaves the stage of receiving (R438, R456). -/
def dropBulks (s : State) (p : Bulk → Bool) : State :=
  let fw := s.amiso.bulks.any fun b => p b && b.index == 0xC020
  let s := { s with amiso := { s.amiso with bulks := s.amiso.bulks.filter fun b => !p b } }
  if fw ∧ s.fw.stage = 2 then { s with fw := { s.fw with stage := 1 } } else s

/-- A session ends: its stage set, transfers, snapshots and kept replies go with it (R434, R438, R440). -/
def endSession (s : State) (n : Nat) : State :=
  let p := Party.session n
  let s := s.dropBulks fun b => b.party == p
  { s with amiso := { s.amiso with
    sessions := s.amiso.sessions.filter fun x => x.n != n
    stages := s.amiso.stages.filter fun x => x.1 != p
    snapshots := s.amiso.snapshots.filter fun x => x.party != p
    kept := s.amiso.kept.filter fun x => x.1 != p
    reports := s.amiso.reports.filter fun x => x.1 != p } }

/-! ### Opening a session (R441) -/

/-- The fields of a `sess_open` value: challenge, key slot, role, version, reserved bytes, nonce, response. -/
def openChallenge (v : List (BitVec 8)) : List (BitVec 8) := v.take 32

def openByte (v : List (BitVec 8)) (i : Nat) : Nat := leNat ((v.drop i).take 1)

def openNonce (v : List (BitVec 8)) : List (BitVec 8) := (v.drop 40).take 16

def openResponse (v : List (BitVec 8)) : List (BitVec 8) := (v.drop 56).take 32

/-- The response that the key calls for. -/
def openAnswer (key v : List (BitVec 8)) (path : Path) (role : Nat) : List (BitVec 8) :=
  kmac256 key (openChallenge v ++ openNonce v ++ leBytes 1 (pathNum path) ++ leBytes 1 role) 256 "AMISO SESSION"

/-- The challenge was issued to this requester and is unused. -/
def challengeHeld (s : State) (r : Requester) (c : List (BitVec 8)) : Bool :=
  s.amiso.challenges.any fun x => x.1 == r.path && x.2.1 == r.ident && x.2.2 == c

/-- A write of `sess_open`. A challenge named by an open is used up, whatever comes of it. -/
def sessOpen (s : State) (r : Requester) (v : List (BitVec 8)) : ActResult :=
  let role := openByte v 33
  let ver := openByte v 34
  let key := AMap.getD s.amiso.opKeys (openByte v 32) (0, [])
  let c := openChallenge v
  let held := s.challengeHeld r c
  let t := { s with amiso := { s.amiso with
    challenges := s.amiso.challenges.filter fun x => !(x.1 == r.path && x.2.1 == r.ident && x.2.2 == c) } }
  if leNat ((v.drop 35).take 5) ≠ 0 ∨ role = 0 ∨ 2 < role then { state := s, status := 0x0205 }
  else if r.session ≠ 0 then { state := s, status := 0x0206 }
  else if ver ≠ 3 ∧ ver ≠ 4 then { state := t, status := 0x0032, value := leBytes 8 4 }
  else if held = false ∨ key.1 < role ∨ openResponse v ≠ openAnswer key.2 v r.path role then { state := t, status := 0x0206 }
  else if 32 ≤ t.amiso.sessions.length then { state := t, status := 0x020A }
  else
    let n := t.amiso.nextSession
    let x : Session := { n := n, path := r.path, ident := r.ident, role := role, version := ver,
                         key := kmac256 key.2 (openResponse v) 256 "AMISO SKEY", challenge := c }
    { state := { t with amiso := { t.amiso with sessions := t.amiso.sessions ++ [x], nextSession := n % (2 ^ 32 - 1) + 1 } }
      value := leBytes 4 n ++ leBytes 1 ver ++ leBytes 1 role ++ leBytes 2 0 }

/-- A write of `sess_close`: by the session's own requester (R440). -/
def sessClose (s : State) (r : Requester) (n : Nat) : ActResult :=
  if s.amiso.sessions.any fun x => x.n == n && x.path == r.path && x.ident == r.ident then { state := s.endSession n }
  else { state := s, status := 0x0206 }

/-! ### Owner grants and operator keys -/

/-- The index ranges in force of a grant. -/
def grantRanges (g : List (BitVec 8)) : List (Nat × Nat) :=
  (List.range (leNat ((g.drop 2).take 2))).map fun i =>
    (leNat ((g.drop (72 + 4 * i)).take 2), leNat ((g.drop (74 + 4 * i)).take 2))

/-- The checks of R443. -/
def grantOk (s : State) (x : Session) (g : List (BitVec 8)) : Bool :=
  let n := leNat ((g.drop 2).take 2)
  let pk := (g.drop 136).take 64
  g.length == 29992 && leNat (g.take 2) == 1 && decide (1 ≤ n) && decide (n ≤ 16) && (g.drop 4).take 32 == identityHash &&
    (g.drop 36).take 32 == x.challenge && decide (leNat ((g.drop 68).take 4) ≤ 65535) &&
    leNat ((g.drop (72 + 4 * n)).take (64 - 4 * n)) == 0 && shake256 pk 32 == s.ownerHash && !s.fuses.owners.isEmpty &&
    Config.slhVerify pk (g.take 200) (g.drop 200)

/-- A session changed. -/
def setSession (s : State) (x : Session) : State :=
  { s with amiso := { s.amiso with sessions := s.amiso.sessions.map fun (y : Session) => if y.n = x.n then x else y } }

/-- A write of `owner_grant` within a session; version 3 has none (R443, R444). -/
def ownerGrant (s : State) (r : Requester) (g : List (BitVec 8)) : ActResult :=
  match s.sessionOf r with
  | none => { state := s, status := 0x0202 }
  | some x =>
    if x.version = 3 then { state := s, status := 0x0032 }
    else if s.grantOk x g then
      let uses := leNat ((g.drop 68).take 4)
      { state := s.setSession { x with grant := some ⟨grantRanges g, if uses = 0 then none else some uses⟩ } }
    else { state := s, status := 0x0206 }

/-- One owner-rule write of the session's grant is spent (R443). -/
def spendGrant (s : State) (r : Requester) : State :=
  match s.sessionOf r with
  | none => s
  | some x =>
    match x.grant with
    | some ⟨l, some n⟩ => s.setSession { x with grant := some ⟨l, some (n - 1)⟩ }
    | _ => s

/-- A write of `op_key` slot `slot` (R440): the role byte, seven zero bytes, the key. -/
def opKeyWrite (s : State) (slot : Nat) (v : List (BitVec 8)) : ActResult :=
  let role := leNat (v.take 1)
  if 2 < role ∨ leNat ((v.drop 1).take 7) ≠ 0 then { state := s, status := 0x0205 }
  else
    { state := { s with amiso := { s.amiso with
        opKeys := AMap.put (0, List.replicate 32 0) s.amiso.opKeys slot (role, (v.drop 8).take 32) } } }

/-! ### Firmware images as whole values -/

/-- A whole image written to `fw_stage` (R454, R457); busy while an activation is in progress or while another party's
transfer is (R438). -/
def fwStageWhole (s : State) (r : Requester) (img : List (BitVec 8)) : ActResult :=
  let others := s.amiso.bulks.any fun b => b.index == 0xC020 && b.party != partyOf r
  if s.fw.stage = 4 ∨ others = true then { state := s, status := 0x020A }
  else if s.fw.stage = 0 then
    let (ok, t) := s.romLoad img
    { state := t, status := if ok then 0 else 0x0206 }
  else
    let (ok, t) := s.beginStaging.stageImage img
    { state := t, status := if ok then 0 else 0x0206 }

/-! ### Writes -/

/-- A WRITE of a write-only object, its value checked by the caller: the object's own rules and its result. -/
def writeAction (s : State) (r : Requester) (index sub : Nat) (v : List (BitVec 8)) : ActResult :=
  let w := leNat v
  match index with
  | 0x2010 =>
    match sub with
    | 1 => s.warmReset w
    | 2 => s.clusterReset w
    | _ => { state := { s with board := { s.board with restartDue := true } } }
  | 0x3020 => if sub = 1 then s.ctxCreate r w else s.ctxTeardown r w (s.operatorOf r index)
  | 0x4201 => { state := s.faultResume sub w }
  | 0x5005 => s.spareRequest sub
  | 0x9060 =>
    match hostFnOf r with
    | some f => s.ctxAttach f w
    | none => { state := s, status := 0x0202 }
  | 0x9063 => s.ctxOrphan w
  | 0xC002 =>
    match sub with
    | 3 => s.keyProvision v
    | 4 => s.keyRevoke w
    | _ => s.rollbackRaise w
  | 0xC010 => if sub = 2 then s.sessOpen r v else s.sessClose r w
  | 0xC011 => s.opKeyWrite sub v
  | 0xC012 => if sub = 1 then s.ownerGrant r v else s.ownerEnroll v
  | 0xC020 => if sub = 1 then s.fwStageWhole r v else s.fwActivate w
  | 0xC050 => s.attestNonce (partyOf r) v
  | _ => s.injectPoison w

/-- A WRITE of a read-write object: read-only fields keep their value; a fault ring whose enable is cleared fails what it holds
(R221), an advanced placement count posts what waits (R137), the shard thresholds keep their order (R194), and a changed
cost of an adjacency is flooded (R380). -/
def writeRw (s : State) (index sub v : Nat) : ActResult :=
  let old := s.obj index sub
  let keep := Catalog.readOnlyMask index
  let new := if keep = 0 then v else setBits v 95 64 (bits old 95 64)
  let t := s.setObj index sub new
  match index with
  | 0x4200 => { state := if flag old 0 && !flag new 0 then t.ringDisabled sub else t }
  | 0x4120 => { state := t.postWaiting sub }
  | 0x8022 => { state := if t.ownLsa = s.ownLsa then t else t.floodLsa }
  | 0x6210 => if t.obj 0x6210 2 < t.obj 0x6210 1 then { state := t } else { state := s, status := 0x0205 }
  | _ => { state := t }

/-- The stage set of a party (R434). -/
def stageSet (s : State) (p : Party) : AMap Nat := ((s.amiso.stages.find? fun x => x.1 == p).map (·.2)).getD []

/-- A party's stage set replaced; an empty one is not listed. -/
def setStage (s : State) (p : Party) (st : AMap Nat) : State :=
  let rest := s.amiso.stages.filter fun x => x.1 != p
  { s with amiso := { s.amiso with stages := if st.isEmpty then rest else (p, st) :: rest } }

/-- A WRITE of a staged object: into the party's stage set of at most 256 objects. -/
def stageWrite (s : State) (p : Party) (index sub v : Nat) : ActResult :=
  let st := s.stageSet p
  if (AMap.get? st (objKey index sub)).isNone ∧ 256 ≤ st.length then { state := s, status := 0x020A }
  else { state := s.setStage p (AMap.set st (objKey index sub) v) }

/-- A WRITE past steps 1 to 7 of R429, by access kind; an owner-rule write that is performed spends one use of its grant. -/
def performWrite (s : State) (r : Requester) (d : ObjDef) (sub : Nat) (v : List (BitVec 8)) : ActResult :=
  let owned := s.ownerOf r d.index && (d.wr == 4 || (d.index == 0xC012 && sub == 3))
  let x := match d.acc with
    | .rw => s.writeRw d.index sub (leNat v)
    | .rwc => s.stageWrite (partyOf r) d.index sub (leNat v)
    | .wo => s.writeAction r d.index sub v
    | .ro => { state := s, status := 0x0203 }
    | .const => { state := s, status := 0x0203 }
  if owned ∧ x.status = 0 then { x with state := x.state.spendGrant r } else x

/-- Steps 2 to 7 of R429 for a WRITE of a value: the definition of the object, or the status. `whole` admits a BLOB above
1,024 bytes, as a finished BULK-PUT is. -/
def checkWrite (s : State) (r : Requester) (index sub ty : Nat) (v : List (BitVec 8)) (whole : Bool) : Except Nat ObjDef :=
  match s.present index sub with
  | none => .error 0x0201
  | some d =>
    if !s.mayWrite r d sub then .error 0x0202
    else if d.acc == .ro || d.acc == .const then .error 0x0203
    else if d.ty = 8 ∧ 1024 < d.size ∧ whole = false then .error 0x0207
    else if ty ≠ d.ty ∨ (if d.ty = 8 ∧ 1024 < d.size then d.size < v.length else v.length ≠ Catalog.bytesOf d) then .error 0x0204
    else if d.ty ≠ 8 ∧ Catalog.valueOk d sub (leNat v) = false then .error 0x0205
    else .ok d

end State

end Sys2Proof.Machine
end

