-- ==== Sys2Proof/Machine/Amiso.lean ====
section
/-! DEFINITION. Amiso messages (R426 to R430, R436 to R439, R442, R444): items, commits, bulk transfers, the checks of a message
and its reply; the requests that the rows of the table name; and the management core's return. -/

namespace Sys2Proof.Machine

open Host (Outcome)

/-! ### Items (R428) -/

/-- The head of an item. -/
structure ItemHead where
  index : Nat
  sub : Nat
  ty : Nat
  status : Nat
  len : Nat
deriving DecidableEq, Repr

/-- The head that eight bytes spell. -/
def itemHead (b : List (BitVec 8)) : ItemHead :=
  let h := leNat (b.take 8)
  { index := bits h 15 0, sub := bits h 23 16, ty := bits h 31 24, status := bits h 47 32, len := bits h 63 48 }

/-- The items of a payload; a WRITE's value is none where it does not fit, which ends the list. None for a payload that ends
inside a head. -/
def parseItems (write : Bool) : Nat → List (BitVec 8) → Option (List (ItemHead × Option (List (BitVec 8))))
  | 0, b => if b.isEmpty then some [] else none
  | n + 1, b =>
    if b.isEmpty then some []
    else if b.length < 8 then none
    else
      let h := itemHead b
      let rest := b.drop 8
      let room := roundUp h.len 4
      if !write then (parseItems write n rest).map fun l => (h, some []) :: l
      else if rest.length < room then some [(h, none)]
      else (parseItems write n (rest.drop room)).map fun l => (h, some (rest.take h.len)) :: l

/-- An item of a reply. -/
def itemReply (index sub ty status : Nat) (v : List (BitVec 8)) : List (BitVec 8) :=
  leBytes 2 index ++ leBytes 1 sub ++ leBytes 1 ty ++ leBytes 2 status ++ leBytes 2 v.length ++ v ++
    List.replicate (roundUp v.length 4 - v.length) 0

/-- Payload bytes of a message, and of a chunk, in a version (R426, R437, R444). -/
def payloadMax (v : Nat) : Nat := if v = 3 then 1024 else 1472

def chunkMax (v : Nat) : Nat := if v = 3 then 1008 else 1456

namespace State

/-- One READ item: its status, value, type, and the state. -/
def readItem (s : State) (r : Requester) (ver : Nat) (h : ItemHead) : Nat × List (BitVec 8) × Nat × State :=
  if h.len ≠ 0 ∨ 1 < h.status ∨ (ver = 3 ∧ h.status ≠ 0) then (0x0205, [], h.ty, s)
  else
    match s.present h.index h.sub with
    | none => (0x0201, [], h.ty, s)
    | some d =>
      if !s.mayRead r d h.sub then (0x0202, [], h.ty, s)
      else if d.acc = .wo then (0x0203, [], h.ty, s)
      else if d.ty = 8 ∧ 1024 < d.size then (0x0207, [], h.ty, s)
      else if h.ty ≠ 0 ∧ h.ty ≠ d.ty then (0x0204, [], h.ty, s)
      else
        match (if h.status = 1 ∧ d.acc = .rwc then AMap.get? (s.stageSet (partyOf r)) (objKey h.index h.sub) else none) with
        | some v => (0, leBytes (Catalog.bytesOf d) v, d.ty, s)
        | none =>
          match s.readObj r d h.sub with
          | (some v, t) => (0, v, d.ty, t)
          | (none, t) => (0x020A, [], d.ty, t)

/-- One WRITE item. -/
def writeItem (s : State) (r : Requester) (h : ItemHead) (v : Option (List (BitVec 8))) : ActResult :=
  match v with
  | none => { state := s, status := 0x0205 }
  | some v =>
    if h.status ≠ 0 then { state := s, status := 0x0205 }
    else
      match s.checkWrite r h.index h.sub h.ty v false with
      | .error st => { state := s, status := st }
      | .ok d => s.performWrite r d h.sub v

/-- A result added to a reply's payload; one that would carry it past its limit, with the heads of the `left` items that
follow, is TOO_LARGE (R429). -/
def addItem (ver left : Nat) (acc : List (BitVec 8)) (index sub ty status : Nat) (v : List (BitVec 8)) : List (BitVec 8) :=
  let b := itemReply index sub ty status v
  if acc.length + b.length + 8 * left ≤ payloadMax ver then acc ++ b else acc ++ itemReply index sub ty 0x020B []

/-- The items of a READ, in order. -/
def runReads (s : State) (r : Requester) (ver : Nat) (items : List (ItemHead × Option (List (BitVec 8)))) :
    List (BitVec 8) × State :=
  items.zipIdx.foldl (fun x e =>
    let i := e.1
    let (st, v, ty, t) := x.2.readItem r ver i.1
    (addItem ver (items.length - 1 - e.2) x.1 i.1.index i.1.sub ty st v, t)) ([], s)

/-- The items of a WRITE, in order, and the contexts whose teardown the reply waits for. -/
def runWrites (s : State) (r : Requester) (ver : Nat) (items : List (ItemHead × Option (List (BitVec 8)))) :
    List (BitVec 8) × State × List Nat :=
  items.zipIdx.foldl (fun x e =>
    let i := e.1
    let a := x.2.1.writeItem r i.1 i.2
    (addItem ver (items.length - 1 - e.2) x.1 i.1.index i.1.sub i.1.ty a.status a.value, a.state, x.2.2 ++ a.waits)) ([], s, [])

/-! ### Bulk transfers (R437 to R439) -/

/-- A bulk head. -/
def bulkHead (index sub : Nat) (last : Bool) (chunk offset total : Nat) : List (BitVec 8) :=
  leBytes 2 index ++ leBytes 1 sub ++ leBytes 1 0 ++ leBytes 2 (b2n last) ++ leBytes 2 chunk ++ leBytes 4 offset ++ leBytes 4 total

/-- One BULK-PUT chunk: message status and reply payload. -/
def bulkPut (s : State) (r : Requester) (ver : Nat) (pl : List (BitVec 8)) : Nat × List (BitVec 8) × State :=
  let h := leNat (pl.take 16)
  let data := pl.drop 16
  let index := bits h 15 0
  let sub := bits h 23 16
  let last := flag h 32
  let offset := bits h 95 64
  let total := bits h 127 96
  let p := partyOf r
  let back := fun (o : Nat) => bulkHead index sub last data.length o total
  if pl.length < 16 ∨ bits h 31 24 ≠ 0 ∨ bits h 47 33 ≠ 0 ∨ bits h 63 48 ≠ data.length ∨ chunkMax ver < data.length then
    (0x0205, pl.take 16, s)
  else
    match s.present index sub with
    | none => (0x0201, back offset, s)
    | some d =>
      if !s.mayWrite r d sub then (0x0202, back offset, s)
      else if d.acc ≠ .wo then (0x0203, back offset, s)
      else if d.ty ≠ 8 then (0x0204, back offset, s)
      else if d.size < total then (0x0205, back offset, s)
      else if (s.amiso.bulks.any fun b => b.index == index && b.sub == sub && b.party != p) ∨ (index = 0xC020 ∧ s.fw.stage = 4) then
        (0x020A, back offset, s)
      else
        let cur := s.amiso.bulks.find? fun b => b.index == index && b.sub == sub && b.party == p
        let got := if offset = 0 then [] else (cur.map (·.got)).getD []
        let all := got ++ data
        if offset ≠ got.length ∨ (offset ≠ 0 ∧ cur.isNone = true) then
          (0x0208, back ((cur.map fun b => b.got.length).getD 0), s)
        else if (offset ≠ 0 ∧ cur.any (fun b => b.total != total) = true) ∨ total < all.length ∨ (last = true ∧ all.length ≠ total) then
          (0x0205, back offset, s)
        else
          let others := s.amiso.bulks.filter fun b => !(b.index == index && b.sub == sub)
          let t := { s with amiso := { s.amiso with bulks := others } }
          if last then
            match t.checkWrite r index sub 8 all true with
            | .error st => (st, back offset, t)
            | .ok _ =>
              let a := t.performWrite r d sub all
              (a.status, back offset, a.state)
          else
            let t := if index = 0xC020 ∧ offset = 0 then t.beginStaging else t
            let b : Bulk := { party := p, index := index, sub := sub, total := total, got := all }
            (0, back offset, { t with amiso := { t.amiso with bulks := b :: t.amiso.bulks } })

/-- One BULK-GET: message status and reply payload; a chunk holds at most what R437 allows, whatever is wanted. -/
def bulkGet (s : State) (r : Requester) (ver : Nat) (pl : List (BitVec 8)) : Nat × List (BitVec 8) × State :=
  let h := leNat (pl.take 16)
  let index := bits h 15 0
  let sub := bits h 23 16
  let want := min (bits h 63 48) (chunkMax ver)
  let offset := bits h 95 64
  let p := partyOf r
  let mine := fun (x : Snapshot) => x.party == p && x.index == index && x.sub == sub
  let answer := fun (t : State) (b : List (BitVec 8)) =>
    let chunk := (b.drop offset).take want
    let done := decide (b.length ≤ offset + chunk.length)
    let rest := t.amiso.snapshots.filter fun x => !mine x
    let keep : Snapshot := { party := p, index := index, sub := sub, bytes := b }
    (0, bulkHead index sub false chunk.length offset b.length ++ chunk,
      { t with amiso := { t.amiso with snapshots := if done then rest else keep :: rest } })
  if pl.length ≠ 16 ∨ bits h 31 24 ≠ 0 ∨ bits h 47 32 ≠ 0 then (0x0205, pl.take 16, s)
  else
    match s.present index sub with
    | none => (0x0201, pl, s)
    | some d =>
      if !s.mayRead r d sub then (0x0202, pl, s)
      else if d.acc = .wo then (0x0203, pl, s)
      else if d.ty ≠ 8 then (0x0204, pl, s)
      else if offset = 0 then
        match s.readObj r d sub with
        | (some b, t) => answer t (b.take 262144)
        | (none, t) => (0x020A, pl, t)
      else
        match s.amiso.snapshots.find? mine with
        | some x => answer s x.bytes
        | none => (0x0208, bulkHead index sub false want 0 0, s)

/-! ### Messages -/

/-- The 16-byte header (R426). -/
def header (ver kind status tag len session : Nat) : List (BitVec 8) :=
  leBytes 1 ver ++ leBytes 1 kind ++ leBytes 2 status ++ leBytes 4 tag ++ leBytes 2 0 ++ leBytes 2 len ++ leBytes 4 session

/-- A reply before its status word is stamped. -/
def replyBytes (r : Requester) (ver kind status tag : Nat) (pl : List (BitVec 8)) : List (BitVec 8) :=
  header ver (kind + 0x80) status tag pl.length r.session ++ pl

/-- The tag follows the session's previous new one (R442). -/
def tagFollows (last : Option Nat) (tag : Nat) : Bool :=
  match last with
  | none => true
  | some l => decide (1 ≤ (tag + 2 ^ 32 - l) % 2 ^ 32) && decide ((tag + 2 ^ 32 - l) % 2 ^ 32 < 2 ^ 31)

/-- A kept reply of a party (R430). -/
def keptReply (s : State) (p : Party) (tag : Nat) : Option (List (BitVec 8)) :=
  (s.amiso.kept.find? fun x => x.1 == p).bind fun x => (x.2.find? fun y => y.1 == tag).map (·.2)

/-- A request of the party with this tag is still being performed. -/
def stillServed (s : State) (r : Requester) (tag : Nat) : Bool :=
  (s.amiso.answers.any fun a => partyOf a.r == partyOf r && a.tag == some tag) ||
    s.amiso.commits.any fun c =>
      match c with
      | .message q _ _ t _ _ => partyOf q == partyOf r && t == tag
      | _ => false

/-- A COMMIT is at step 5 of R435. -/
def committing (s : State) : Bool := s.amiso.answers.any (·.commit)

/-- COMMIT (R435): step 1 takes the stage set; a refused set changes nothing and is gone; an accepted one is committed, and its
answer may wait for teardowns. The status, the reply payload, the state, the contexts waited for. -/
def commitNow (s : State) (r : Requester) (discard : Bool) : Nat × List (BitVec 8) × State × List Nat :=
  let p := partyOf r
  let st := s.stageSet p
  let s := s.setStage p []
  if discard then (0, leBytes 8 (s.obj 0x1030 1), s, [])
  else
    match s.commitSet st with
    | .error k => (0x0206, leBytes 4 (s.obj 0x1030 1) ++ leBytes 2 (k / 256) ++ leBytes 2 (k % 256), s, [])
    | .ok (t, waits) => (0, leBytes 8 (t.obj 0x1030 1), t, waits)

/-- The reply sent, or kept back until the contexts it waits for are gone. -/
def answer (s : State) (r : Requester) (tag : Option Nat) (key bs : List (BitVec 8)) (waits : List Nat) (commit : Bool) : State :=
  let waits := waits.filter fun n => (s.ctx n).phase != .closed
  if waits.isEmpty then s.sendReply r tag key bs
  else { s with amiso := { s.amiso with answers := s.amiso.answers ++
    [{ r := r, tag := tag, bytes := bs, waits := waits, key := key, commit := commit }] } }

/-- A message whose checks have passed, performed (R427). A COMMIT waits behind one at step 5 (R436). -/
def perform (s : State) (r : Requester) (kind ver tag : Nat) (key pl : List (BitVec 8)) : State :=
  let reply := fun (t : State) (status : Nat) (b : List (BitVec 8)) => t.sendReply r (some tag) key (replyBytes r ver kind status tag b)
  if payloadMax ver < pl.length then reply s 0x0205 []
  else
    match kind with
    | 1 =>
      match parseItems false 64 pl with
      | none => reply s 0x0205 []
      | some items =>
        if items.isEmpty then reply s 0x0205 []
        else
          let (b, t) := s.runReads r ver items
          reply t 0 b
    | 2 =>
      match parseItems true 64 pl with
      | none => reply s 0x0205 []
      | some items =>
        if items.isEmpty then reply s 0x0205 []
        else
          let (b, t, waits) := s.runWrites r ver items
          t.answer r (some tag) key (replyBytes r ver kind 0 tag b) waits false
    | 3 =>
      let w := leNat pl
      if pl.length ≠ 4 ∨ 1 < w ∨ (ver = 3 ∧ w = 1) then reply s 0x0205 []
      else if s.committing then
        { s with amiso := { s.amiso with commits := s.amiso.commits ++ [.message r kind ver tag pl []] } }
      else
        let (st, b, t, waits) := s.commitNow r (w == 1)
        t.answer r (some tag) key (replyBytes r ver kind st tag b) waits true
    | 4 =>
      let (st, b, t) := s.bulkPut r ver pl
      reply t st b
    | 5 =>
      let (st, b, t) := s.bulkGet r ver pl
      reply t st b
    | _ => reply s 0x0205 []

/-- The key that authenticates a session's messages: on the management network only (R442). -/
def keyOf (x : Option Session) (r : Requester) : List (BitVec 8) :=
  match x, r.path with
  | some y, .mgmt => y.key
  | _, _ => []

/-- A message arrives (R426, R430, R441, R442): its session, its trailer, a repeated tag, the tag rule and the version are
checked, and it is performed. -/
def serveMessage (s : State) (r : Requester) (kind ver tag : Nat) (pl trailer : List (BitVec 8)) : State :=
  let x := s.sessionOf r
  let key := keyOf x r
  let native := match x with
    | some y => y.version
    | none => if ver = 3 ∨ ver = 4 then ver else 4
  let mac := kmac256 key (header ver kind 0 tag pl.length r.session ++ pl) 128 "AMISO MSG"
  if r.session ≠ 0 ∧ x.isNone = true then s.carryReply r (some tag) (s.sealReply r [] (replyBytes r native kind 0x0209 tag []))
  else if key.isEmpty = false ∧ trailer ≠ mac then s.addObj 0xC010 6 1
  else
    match s.keptReply (partyOf r) tag with
    | some bs => s.carryReply r (some tag) bs
    | none =>
      if s.stillServed r tag then s
      else if key.isEmpty = false ∧ tagFollows (x.bind (·.lastTag)) tag = false then s.addObj 0xC010 6 1
      else
        let s := match x with
          | some y => s.setSession { y with lastTag := some tag }
          | none => s
        if ver ≠ native then s.sendReply r (some tag) key (replyBytes r native kind 0x0032 tag [])
        else s.perform r kind native tag key pl

/-- A WRITE of one object that a row of the table names: answered with its item. -/
def serveAction (s : State) (r : Requester) (index sub : Nat) (v : List (BitVec 8)) : State :=
  let ty := ((Catalog.find index sub).map (·.ty)).getD 0
  let reply := fun (t : State) (st : Nat) (b : List (BitVec 8)) (waits : List Nat) =>
    t.answer r none [] (itemReply index sub ty st b) waits false
  if r.session ≠ 0 ∧ (s.sessionOf r).isNone = true then reply s 0x0209 [] []
  else
    match s.checkWrite r index sub ty v true with
    | .error st => reply s st [] []
    | .ok d =>
      let a := s.performWrite r d sub v
      reply a.state a.status a.value a.waits

/-- A READ of `sess_challenge` (R440). -/
def serveChallenge (s : State) (r : Requester) : State :=
  let (st, v, ty, t) := s.readItem r 4 { index := 0xC010, sub := 1, ty := 0, status := 0, len := 0 }
  t.sendReply r none [] (itemReply 0xC010 1 ty st v)

/-- One request served; a restart that it asked for follows its answer (R469). -/
def serve (s : State) (q : Request) : State :=
  let t := match q with
    | .malformed r kind ver tag =>
      let x := s.sessionOf r
      let native := match x with
        | some y => y.version
        | none => if ver = 3 then 3 else 4
      s.carryReply r (some tag) (s.sealReply r (keyOf x r) (replyBytes r native kind 0x0205 tag []))
    | .message r kind ver tag pl tr => s.serveMessage r kind ver tag pl tr
    | .action r index sub v => s.serveAction r index sub v
    | .challenge r => s.serveChallenge r
  if t.board.restartDue then ({ t with board := { t.board with restartDue := false } }).mgmtRestart else t

/-- The requester of a request. -/
def requesterOf (q : Request) : Requester :=
  match q with
  | .malformed r _ _ _ => r
  | .message r _ _ _ _ _ => r
  | .action r _ _ _ => r
  | .challenge r => r

/-- The ROM serves the management network and the PFs (R454). -/
def romServes (r : Requester) : Bool :=
  match r.path with
  | .mgmt => true
  | .i3c => false
  | _ => r.ident == 0

/-- A request arrives: served by the firmware or, in the ROM stage, by the ROM; held through a hand-over; otherwise
unanswered (R447, R454, R457). -/
def request (s : State) (q : Request) : State :=
  if !s.running then s
  else if s.fw.stage = 0 then (if romServes (requesterOf q) then noteAll s (s.serve q) else s)
  else if s.fw.alive then noteAll s (s.serve q)
  else if s.fw.handover then { s with amiso := { s.amiso with held := s.amiso.held ++ [q] } }
  else s

/-- COMMITs that waited, in order, until one is at step 5 again (R436). -/
def pumpCommits (s : State) : Nat → State
  | 0 => s
  | n + 1 =>
    if s.committing then s
    else
      match s.amiso.commits with
      | [] => s
      | .message r kind ver tag pl _ :: rest =>
        let s := { s with amiso := { s.amiso with commits := rest } }
        pumpCommits (s.perform r kind ver tag (keyOf (s.sessionOf r) r) pl) n
      | _ :: rest => pumpCommits { s with amiso := { s.amiso with commits := rest } } n

/-! ### The dictionary window (R433) -/

/-- The path and number of function `ff`. -/
def fnRequester (ff session : Nat) : Requester :=
  { path := if ff / 8 = 0 then .hostA else .hostB, ident := ff % 8, session := session }

/-- The function exists and its port's link is up. -/
def fnUp (s : State) (ff : Nat) : Bool :=
  decide (ff < 16) && s.running && (s.hostPort (ff / 8)).link == 2 && decide (ff % 8 ≤ (s.hostPort (ff / 8)).numVFs)

/-- The request that the first `n` bytes of a window spell. -/
def windowRequest (ff n : Nat) (w : Win) : Request :=
  let b := w.req.take n ++ List.replicate (n - w.req.length) 0
  let h := leNat (b.take 16)
  let r := fnRequester ff (bits h 127 96)
  if bits h 95 80 ≠ n - 16 ∨ bits h 31 16 ≠ 0 ∨ bits h 79 64 ≠ 0 then .malformed r (bits h 15 8) (bits h 7 0) (bits h 63 32)
  else .message r (bits h 15 8) (bits h 7 0) (bits h 63 32) (b.drop 16) []

/-- A write of `win_go`: discarded and counted while the window is busy, discarded with a length that is none. -/
def winGo (s : State) (ff v : Nat) : State :=
  let w := AMap.getD s.wins ff {}
  if !s.fnUp ff then s
  else if w.phase = 1 then s.addObj 0xC010 7 1
  else if v < 16 ∨ 1488 < v then s
  else ({ s with wins := AMap.set s.wins ff { w with phase := 1 } }).request (windowRequest ff v w)

/-- A window whose request is being served or held stays busy over the management core's return; the others are idle (R447). -/
def settleWindows (s : State) : State :=
  let live := fun (f : Nat) =>
    (s.amiso.held ++ s.amiso.commits).any (fun q => hostFnOf (requesterOf q) == some f) ||
      s.amiso.answers.any fun a => hostFnOf a.r == some f
  { s with wins := s.wins.map fun (e : Nat × Win) => if e.2.phase = 1 ∧ live e.1 = false then (e.1, { e.2 with phase := 0 }) else e }

/-- IMAGE_REPORTS_ALIVE (R447, R457, R458): what waited for the firmware is done: repair records, address acquisition, held
requests. -/
def imageAlive (s : State) : State :=
  if !s.running || s.fw.stage = 0 || s.fw.alive then s
  else
    let t := s.reportAlive.settleWindows
    let t := noteAll s t.payRecords.claimAddress.floodLsa
    let held := t.amiso.held
    let t := { t with amiso := { t.amiso with held := [] } }
    let t := t.pumpCommits t.amiso.commits.length
    held.foldl request t

end State

/-- READ (R427). -/
def execRead (r : Requester) (h : MsgHead) (pl tr : List (BitVec 8)) (s : State) : Outcome State Fault Refusal :=
  .next (s.request (.message r 1 h.version h.tag pl tr))

/-- WRITE (R427). -/
def execWrite (r : Requester) (h : MsgHead) (pl tr : List (BitVec 8)) (s : State) : Outcome State Fault Refusal :=
  .next (s.inTurn (State.hostPortOf r) (.write r h pl tr)
    (s.request (.message r 2 h.version h.tag pl tr)))

/-- COMMIT (R435). -/
def execCommit (r : Requester) (h : MsgHead) (pl tr : List (BitVec 8)) (s : State) : Outcome State Fault Refusal :=
  .next (s.request (.message r 3 h.version h.tag pl tr))

/-- COMMIT_DISCARD (step 1 of R435): the payload's `discard` bit is set. -/
def execCommitDiscard (r : Requester) (h : MsgHead) (pl tr : List (BitVec 8)) (s : State) : Outcome State Fault Refusal :=
  .next (s.request (.message r 3 h.version h.tag pl tr))

/-- BULK_PUT (R438). -/
def execBulkPut (r : Requester) (h : MsgHead) (pl tr : List (BitVec 8)) (s : State) : Outcome State Fault Refusal :=
  .next (s.request (.message r 4 h.version h.tag pl tr))

/-- BULK_GET (R439). -/
def execBulkGet (r : Requester) (h : MsgHead) (pl tr : List (BitVec 8)) (s : State) : Outcome State Fault Refusal :=
  .next (s.request (.message r 5 h.version h.tag pl tr))

/-- BULK_TRANSFER_TIMEOUT (R438). -/
def execBulkTransferTimeout (index sub : Nat) (s : State) : Outcome State Fault Refusal :=
  .next (if s.running then s.dropBulks fun b => b.index == index && b.sub == sub else s)

/-- SNAPSHOT_TIMEOUT (R439). -/
def execSnapshotTimeout (r : Requester) (index sub : Nat) (s : State) : Outcome State Fault Refusal :=
  .next (if s.running then { s with amiso := { s.amiso with snapshots := s.amiso.snapshots.filter fun x =>
    !(x.party == State.partyOf r && x.index == index && x.sub == sub) } } else s)

/-- WIN_GO (R433). -/
def execWinGo (ff v : Nat) (s : State) : Outcome State Fault Refusal :=
  .next (s.inTurn (some (ff / 8)) (.winGo ff v)
    (s.winGo ff v))

/-- SESS_CHALLENGE (R440). -/
def execSessChallenge (r : Requester) (s : State) : Outcome State Fault Refusal := .next (s.request (.challenge r))

/-- SESS_OPEN (R441). -/
def execSessOpen (r : Requester) (value : List (BitVec 8)) (s : State) : Outcome State Fault Refusal :=
  .next (s.request (.action r 0xC010 2 value))

/-- SESS_CLOSE (R440). -/
def execSessClose (r : Requester) (n : Nat) (s : State) : Outcome State Fault Refusal :=
  .next (s.request (.action r 0xC010 3 (leBytes 4 n)))

/-- SESSION_IDLE_TIMEOUT (R440). -/
def execSessionIdleTimeout (n : Nat) (s : State) : Outcome State Fault Refusal :=
  .next (if s.mgmtUp then s.endSession n else s)

/-- OWNER_GRANT (R443). -/
def execOwnerGrant (r : Requester) (grant : List (BitVec 8)) (s : State) : Outcome State Fault Refusal :=
  .next (s.request (.action r 0xC012 1 grant))

/-- OP_KEY (R440, R453). -/
def execOpKey (r : Requester) (slot : Nat) (value : List (BitVec 8)) (s : State) : Outcome State Fault Refusal :=
  .next (s.request (.action r 0xC011 slot value))

/-- KEY_PROVISION (R451). -/
def execKeyProvision (r : Requester) (value : List (BitVec 8)) (s : State) : Outcome State Fault Refusal :=
  .next (s.request (.action r 0xC002 3 value))

/-- KEY_REVOKE (R451). -/
def execKeyRevoke (r : Requester) (v : Nat) (s : State) : Outcome State Fault Refusal :=
  .next (s.request (.action r 0xC002 4 (leBytes 1 v)))

/-- ROLLBACK_RAISE (R451). -/
def execRollbackRaise (r : Requester) (v : Nat) (s : State) : Outcome State Fault Refusal :=
  .next (s.request (.action r 0xC002 5 (leBytes 1 v)))

/-- OWNER_ENROLL (R452). -/
def execOwnerEnroll (r : Requester) (hash : List (BitVec 8)) (s : State) : Outcome State Fault Refusal :=
  .next (s.request (.action r 0xC012 3 hash))

/-- ATTN_ACK (R299). -/
def execAttnAck (r : Requester) (rr v : Nat) (s : State) : Outcome State Fault Refusal :=
  .next (s.request (.action r 0xA020 rr (leBytes 4 v)))

/-- CTX_CREATE (R315, R316). -/
def execCtxCreate (r : Requester) (req : Nat) (s : State) : Outcome State Fault Refusal :=
  .next (s.request (.action r 0x3020 1 (leBytes 64 req)))

/-- CTX_TEARDOWN (R318). -/
def execCtxTeardown (r : Requester) (n : Nat) (s : State) : Outcome State Fault Refusal :=
  .next (s.request (.action r 0x3020 2 (leBytes 2 n)))

/-- CTX_ORPHAN (R405). -/
def execCtxOrphan (r : Requester) (n : Nat) (s : State) : Outcome State Fault Refusal :=
  .next (s.request (.action r 0x9063 1 (leBytes 2 n)))

/-- CTX_ATTACH (R408, R409). -/
def execCtxAttach (r : Requester) (req : Nat) (s : State) : Outcome State Fault Refusal :=
  .next (s.request (.action r 0x9060 1 (leBytes 64 req)))

/-- SPARE_REQUEST (R349). -/
def execSpareRequest (r : Requester) (cc v : Nat) (s : State) : Outcome State Fault Refusal :=
  .next (s.request (.action r 0x5005 cc (leBytes 1 v)))

/-- INJECT_POISON (R363). -/
def execInjectPoison (r : Requester) (v : Nat) (s : State) : Outcome State Fault Refusal :=
  .next (s.request (.action r 0xD010 1 (leBytes 8 v)))

/-- FW_STAGE (R454, R457): a whole image, as the last chunk of its BULK-PUT leaves it. -/
def execFwStage (r : Requester) (image : List (BitVec 8)) (s : State) : Outcome State Fault Refusal :=
  .next (s.request (.action r 0xC020 1 image))

/-- FW_ACTIVATE (R457). -/
def execFwActivate (r : Requester) (v : Nat) (s : State) : Outcome State Fault Refusal :=
  .next (s.request (.action r 0xC020 2 (leBytes 4 v)))

/-- ATTEST_NONCE (R463). -/
def execAttestNonce (r : Requester) (nonce : List (BitVec 8)) (s : State) : Outcome State Fault Refusal :=
  .next (s.request (.action r 0xC050 3 nonce))

/-- FAULT_RESUME_RETRY (R219). -/
def execFaultResumeRetry (r : Requester) (port seq : Nat) (s : State) : Outcome State Fault Refusal :=
  .next (s.inTurn (State.hostPortOf r) (.faultResumeRetry r port seq)
    (s.request (.action r 0x4201 port (leBytes 8 (seq % 2 ^ 32)))))

/-- FAULT_RESUME_FAIL (R219). -/
def execFaultResumeFail (r : Requester) (port seq : Nat) (s : State) : Outcome State Fault Refusal :=
  .next (s.inTurn (State.hostPortOf r) (.faultResumeFail r port seq)
    (s.request (.action r 0x4201 port (leBytes 8 (seq % 2 ^ 32 + 2 ^ 32)))))

/-- FAULT_RING_DISABLE (R221): the ring's object with `enable` clear. -/
def execFaultRingDisable (r : Requester) (port : Nat) (s : State) : Outcome State Fault Refusal :=
  .next (s.request (.action r 0x4200 port (leBytes 16 (setBits (s.obj 0x4200 port) 0 0 0))))

/-- WARM_RESET_RETRAINED (R469). -/
def execWarmResetRetrained (r : Requester) (s : State) : Outcome State Fault Refusal :=
  .next (s.request (.action r 0x2010 1 [0]))

/-- WARM_RESET_RETAINED (R469). -/
def execWarmResetRetained (r : Requester) (s : State) : Outcome State Fault Refusal :=
  .next (s.request (.action r 0x2010 1 [1]))

/-- CLUSTER_RESET (R473). -/
def execClusterReset (r : Requester) (cc : Nat) (s : State) : Outcome State Fault Refusal :=
  .next (s.request (.action r 0x2010 2 (leBytes 1 cc)))

/-- MGMT_RESTART (R469). -/
def execMgmtRestart (r : Requester) (s : State) : Outcome State Fault Refusal :=
  .next (s.request (.action r 0x2010 3 [1]))

/-- IMAGE_REPORTS_ALIVE (R457). -/
def execImageReportsAlive (s : State) : Outcome State Fault Refusal := .next s.imageAlive

/-- TEARDOWN_COMPLETE (R318): the context is closed, the answers that waited for it are sent, and a COMMIT that waited behind
one of them is performed. -/
def execTeardownComplete (n : Nat) (s : State) : Outcome State Fault Refusal :=
  .next (if s.running then
    let t := s.teardownComplete n
    if t.mgmtUp then t.pumpCommits t.amiso.commits.length else t
  else s)

end Sys2Proof.Machine
end

