-- ==== Sys2Proof/Machine/HostPorts.lean ====
section
/-! DEFINITION. Host ports (18_host_and_cxl_ports.md): links and their resets, configuration space, BAR0 and BAR2. -/

namespace Sys2Proof.Machine

open Host (Outcome)

/-- What a function reports in configuration space as read-only (R1, R394, R396, R397). -/
structure Identifiers where
  vendor : Nat
  device : Nat
  revision : Nat
  classCode : Nat
  subsystemVendor : Nat
  subsystem : Nat
  interruptPin : Nat
  noSoftReset : Bool
  /-- The Device Serial Number (R394). -/
  serialNumber : Nat
  /-- InitialVFs, TotalVFs, First VF Offset and VF Stride of the SR-IOV capability, which the PFs have (R397). -/
  sriov : Option (Nat × Nat × Nat × Nat)
deriving DecidableEq, Repr

/-- What function `ff` reports: read-only constants, which a write of configuration space leaves. A VF's own header shows the vendor
0xFFFF; the PF's SR-IOV capability gives it as 0xD7E1 (R396). -/
def identifiersOf (ff : Nat) : Identifiers :=
  { vendor := if ff % 8 = 0 then 0xD7E1 else 0xFFFF
    device := if ff % 8 = 0 then 0x7416 else 0x7417
    revision := 0xB1
    classCode := 0x120000
    subsystemVendor := 0xD7E1
    subsystem := Config.subsystemId % 65536
    interruptPin := 0
    noSoftReset := true
    serialNumber := leNat (identityHash.take 8)
    sriov := if ff % 8 = 0 then some (7, 7, 1, 1) else none }

namespace State

/-! ### Links and resets of one port (R395, R403, R404) -/

/-- The functions of a port at their defaults. -/
def resetFns (s : State) (port : Nat) : State := { s with fns := s.fns.filter fun e => e.1 / 8 != port }

/-- Every context of the functions that meet a condition is torn down without records, but shared ones where `keepShared`,
which are orphaned (R303, R318, R405). -/
def endCtxs (s : State) (p : Nat → Bool) (keepShared : Bool) : State :=
  (s.ctxsOf p).foldl (fun t n => if keepShared && (t.ctx n).shared then t.orphan n else t.beginTeardown n false) s

/-- A link that was up is lost, which counts (R395). -/
def countDown (s : State) (port : Nat) : State := if (s.hostPort port).link = 2 then s.addObj 0x9030 port 1 else s

/-- HOST_PORT_READY: the link is up and configuration space served; waiting placement records go out (R395, R464). -/
def portReady (s : State) (port width speed : Nat) (flit : Bool) : State :=
  if !s.running || 1 < port then s
  else
    let s := s.setHostPort port { s.hostPort port with link := 2, width := width, speed := speed, flit := flit }
    (s.setReady 0x2001 port 2).postWaiting port

/-- PERST# (kind 0), hot reset (1) or Link Disable (2) of a port. -/
def portReset (s : State) (port kind : Nat) : State :=
  if !s.running || 1 < port then s
  else
    let s := s.countDown port
    let s := if kind < 2 then s.addObj 0x9031 port 1 else s
    let s := ((s.setHostPort port {}).resetFns port).setReady 0x2001 port 1
    let s : State := { s with trans := { s.trans with hostHeld := s.trans.hostHeld.filter fun x => x.1 != port } }
    s.endCtxs (fun f => f / 8 == port) true

/-- HOST_LINK_DOWN: the link retrains, configuration and contexts stay. -/
def portLinkDown (s : State) (port : Nat) : State :=
  if !s.running || (s.hostPort port).link ≠ 2 then s
  else
    let s := s.countDown port
    (s.setHostPort port { s.hostPort port with link := 1, width := 0, speed := 0, flit := false }).setReady 0x2001 port 1

/-- FLR_PF: PF defaults, VFs disabled, every context of the port's functions torn down. -/
def flrPf (s : State) (port : Nat) : State :=
  if !s.running || (s.hostPort port).link ≠ 2 then s
  else
    let s := s.addObj 0x9032 port 1
    let s := (s.setHostPort port { s.hostPort port with numVFs := 0, pfBar2 := 34, vfBar2 := 30 }).resetFns port
    s.endCtxs (fun f => f / 8 == port) false

/-- A VF at its defaults, its contexts torn down. -/
def endVf (s : State) (ff : Nat) : State :=
  ({ s with fns := s.fns.filter fun e => e.1 != ff }).endCtxs (fun f => f == ff) false

/-- NumVFs of a port; the VFs it removes end as under an FLR of a VF (R397, R403). -/
def setNumVFs (s : State) (port v : Nat) : State :=
  let old := (s.hostPort port).numVFs
  let s := s.setHostPort port { s.hostPort port with numVFs := v }
  (List.range old).foldl (fun t i => if v ≤ i then t.endVf (8 * port + i + 1) else t) s

/-- FLR_VF: an FLR of a VF, or its removal by a NumVFs change, which is no FLR and removes those above it too. -/
def flrVf (s : State) (port vf : Nat) (removed : Bool) : State :=
  if !s.running || (s.hostPort port).link ≠ 2 || vf = 0 || (s.hostPort port).numVFs < vf then s
  else
    if removed then s.setNumVFs port (vf - 1) else (s.addObj 0x9032 port 1).endVf (8 * port + vf)

/-! ### Configuration space (R394, R397, R398, R402) -/

/-- Pending vectors of a function that are no longer masked are sent (R402). -/
def flushMsix (s : State) (ff : Nat) : State :=
  let f := s.fn ff
  if f.fnMask || !f.msixEn then s
  else
    let go := f.msixPending.filter f.unmasked.contains
    let s := s.setFn ff { f with msixPending := f.msixPending.filter fun v => !f.unmasked.contains v }
    go.foldl (fun t v => t.sendMsix ff v) s

/-- CONFIG_SPACE_WRITE. Sizes are exponents, payload and request sizes bytes, the mask of a vector its number with bit 16 for
masked, the power state 0 (D0) or 3 (D3hot). -/
def cfgWrite (s : State) (ff : Nat) (reg : CfgReg) (v : Nat) : State :=
  let port := ff / 8
  let pf := ff % 8 == 0
  let f := s.fn ff
  if !s.fnUp ff then s
  else
    match reg with
    | .numVFs => if pf && decide (v ≤ 7) then s.setNumVFs port v else s
    | .bar2Size =>
      if pf then (if 30 ≤ v ∧ v ≤ 39 then s.setHostPort port { s.hostPort port with pfBar2 := v } else s)
      else if 28 ≤ v ∧ v ≤ 36 then s.setHostPort port { s.hostPort port with vfBar2 := v }
      else s
    | .busMaster => (s.setFn ff { f with bme := v != 0 }).postWaiting port
    | .msixEnable => (s.setFn ff { f with msixEn := v != 0 }).flushMsix ff
    | .msixFunctionMask => (s.setFn ff { f with fnMask := v != 0 }).flushMsix ff
    | .msixVectorMask =>
      let n := v % 2048
      let l := if flag v 16 then f.unmasked.filter (· != n) else insertNat n f.unmasked
      (s.setFn ff { f with unmasked := l }).flushMsix ff
    | .relaxedOrdering => s.setFn ff { f with relaxed := v != 0 }
    | .maxPayload => if [128, 256, 512].contains v then s.setFn ff { f with mps := v } else s
    | .maxReadRequest => if [128, 256, 512, 1024, 2048, 4096].contains v then s.setFn ff { f with mrrs := v } else s
    | .msixAddress n => s.setFn ff { f with messages := AMap.put (0, 0) f.messages n (v, (s.messageOf ff n).2) }
    | .msixData n => s.setFn ff { f with messages := AMap.put (0, 0) f.messages n ((s.messageOf ff n).1, v) }
    | .powerState => (s.setFn ff { f with d3hot := v == 3 }).postWaiting port

/-- BUS_MASTER_ENABLE_CLEAR: Bus Master Enable cleared, or D3hot entered; contexts stay (R403). -/
def busMasterOff (s : State) (ff : Nat) (d3hot : Bool) : State :=
  if !s.fnUp ff then s
  else if d3hot then s.setFn ff { s.fn ff with d3hot := true }
  else s.setFn ff { s.fn ff with bme := false }

/-! ### BAR2 (R398, R400, R401) -/

/-- Bytes of a function's BAR2. -/
def bar2Size (s : State) (ff : Nat) : Nat := 2 ^ (if ff % 8 = 0 then (s.hostPort (ff / 8)).pfBar2 else (s.hostPort (ff / 8)).vfBar2)

/-- The device physical address of an offset. -/
def bar2Addr (s : State) (ff off : Nat) : Nat := bits (s.obj 0x9010 ff) 63 28 * 65536 + off

/-- No host access reaches the address: reserved, a device area, a Hive replica, a valid graph store, or the store of a retired
cluster (R90, R112, R168, R270, R354, R401). -/
def barredAddr (s : State) (a : Nat) : Bool :=
  s.inHive a || s.inGraphStore a || match placeOf a with
  | .reserved => true
  | .coverDevice => true
  | .storeDevice _ _ => true
  | .store c _ => s.obj 0x5003 c == 3
  | _ => false

/-- An access of `n` bytes at an offset is refused (R401). -/
def bar2Refused (s : State) (ff off n : Nat) (write : Bool) : Bool :=
  let v := s.obj 0x9010 ff
  let a := s.bar2Addr ff off
  !flag v 0 || decide (bits v 95 64 * 65536 < off + n) || s.barredAddr a || s.barredAddr (a + n - 1) || (write && !flag v 1)

/-- The access reaches a function's BAR2 and its memory is not starting; one that must wait is put off (R466). -/
def bar2Takes (s : State) (ff off n : Nat) : Bool :=
  s.fnUp ff && decide (0 < n) && decide (off + n ≤ s.bar2Size ff)

def refuseBar2 (s : State) (ff : Nat) : State := s.countRaise 6 0 0xFF 0x9011 ff 0

/-- BAR2_READ: a refused one completes with all ones; a poisoned atom sets the EP bit; one to a unit that is starting is held
(R466). -/
def bar2Read (s : State) (ff off n : Nat) : State :=
  if !s.bar2Takes ff off n then s
  else if s.bar2Refused ff off n false then (s.refuseBar2 ff).send (.readCompletion ff (List.replicate n 0xFF) false)
  else
    let a := s.forwarded (s.bar2Addr ff off)
    if s.tierStarting a then s.holdHost (ff / 8) (.bar2Read ff off n)
    else
      let bytes := s.readBytes a n
      let bad := s.anyPoison a n
      (s.readEffects a n).send (.readCompletion ff bytes bad)

/-- BAR2_WRITE: a refused one is discarded; one received with the EP bit poisons every atom it touches (R357,
R395); one to a folio being copied, or to a unit that is starting, is held (R129, R466). -/
def bar2Write (s : State) (ff off : Nat) (data : List (BitVec 8)) (ep : Bool) : State :=
  let n := data.length
  if !s.bar2Takes ff off n then s
  else
    let a := s.bar2Addr ff off
    if s.bar2Refused ff off n true then
      (if ep then s.addObj 0x9034 (ff / 8) 1 else s).refuseBar2 ff
    else if s.tierStarting a || s.heldWrite a then s.holdHost (ff / 8) (.bar2Write ff off data ep)
    else if ep then
      (atomsOf (s.forwarded a) n).foldl makePoison ((s.writeCarried a data (List.replicate n true)).addObj 0x9034 (ff / 8) 1)
    else s.writeMirrored a data

/-! ### BAR0 (R399) -/

/-- A register of a doorbell page; writes of the counts and of `echo_us` (R279, R300). -/
def pageWrite (s : State) (ff n reg v : Nat) : State :=
  s.doorbell ff n fun s =>
    match reg with
    | 0x00 => s.ringDoorbell n v
    | 0x10 => s.advanceConsumed n v
    | 0x20 =>
      if flag v 32 then (s.setCtx n { s.ctx n with wake := some (v % 2 ^ 32) }).checkWake n
      else s.setCtx n { s.ctx n with wake := none }
    | 0x28 => if v = 0 ∨ (100 ≤ v ∧ v ≤ 10000000) then s.setCtx n { s.ctx n with echoUs := v } else s
    | 0x38 => s.releaseHeld n v
    | _ => s

/-- A list of bytes with others written over it at an offset, at least `len` long. -/
def overlay (b : List (BitVec 8)) (len off : Nat) (data : List (BitVec 8)) : List (BitVec 8) :=
  let b := b ++ List.replicate (len - b.length) 0
  b.take off ++ data ++ b.drop (off + data.length)

/-- A write to a mailbox slot: payload bytes are kept, a go word of a kind that has no row of its own is answered, one that has
is performed on the kept payload (R304, R305, R307). -/
def mboxSlotWrite (s : State) (ff slot off size v : Nat) : State :=
  let nn := ff / 8 * 32 + slot
  let x := s.mboxSlot nn
  if off = 0 ∧ size = 8 then
    let g : GoWord := { tag := bits v 63 32, context := bits v 31 22, reserved := bits v 21 16, len := bits v 15 8 }
    let data := x.data ++ List.replicate (240 - x.data.length) 0
    s.mboxGo ff slot (bits v 7 0) g data fun t nn w =>
      match w.kind with
      | 0 => t.mboxReply nn w Status.ok []
      | 1 => t.mboxMemory nn w
      | 2 => t.mboxMemory nn w
      | 3 => t.mboxSignal nn w
      | 4 => t.mboxFence nn w
      | 5 => t.mboxQueue nn w
      | _ => t.mboxReply nn w Status.descriptorInvalid []
  else if s.portsUp = false then s
  else if flag (s.obj 0x9050 nn) 0 = false ∨ s.mboxFn nn ≠ ff then s.addObj 0x9051 (ff / 8) 1
  else if off < 16 ∨ 256 < off + size then s
  else s.setMboxSlot nn { x with data := overlay x.data 240 (off - 16) (leBytes size v) }

/-- REGISTER_WRITE to BAR0: aligned 4- and 8-byte accesses, and payload bytes of a slot; every other place is read-only or
reserved, and discards it. -/
def bar0Write (s : State) (ff off size v : Nat) : State :=
  let aligned := (size = 4 ∨ size = 8) ∧ off % size = 0
  if !s.fnUp ff then s
  else if 0x400000 ≤ off ∧ off < 0x402000 then s.mboxSlotWrite ff ((off - 0x400000) / 256) (off % 256) size v
  else if ¬ aligned then s
  else if off < 0x400000 then s.pageWrite ff (off / 4096) (off % 4096) v
  else if 0xC00000 ≤ off ∧ off + size ≤ 0xC00800 then
    let w := AMap.getD s.wins ff {}
    if w.phase = 1 then s
    else { s with wins := AMap.set s.wins ff { w with req := overlay w.req 2048 (off - 0xC00000) (leBytes size v) } }
  else if off = 0xC01000 then s.winGo ff v
  else s

/-- What a read of eight aligned bytes of BAR0 returns (R279, R285, R297, R309, R399, R433, R471). -/
def bar0Read (s : State) (ff off : Nat) : Nat :=
  if off < 0x400000 then
    let n := off / 4096
    let c := s.ctx n
    if !s.ownsPage ff n then (if off % 4096 = 0x30 then 4 else 0)
    else
      match off % 4096 with
      | 0x08 => c.consumed
      | 0x10 => c.cqConsumed
      | 0x18 => c.cqPosted
      | 0x28 => c.echoUs
      | 0x30 => s.qState n
      | _ => 0
  else if off < 0x402000 then
    leNat (((s.mboxSlot (ff / 8 * 32 + (off - 0x400000) / 256)).reply.drop (off % 256)).take 8)
  else if off = 0x800000 then s.statusWord ff
  else if 0x801000 ≤ off ∧ off < 0x809000 then
    let f := (off - 0x801000) / 8
    if !s.board.inReset && (List.range 8).any fun p => s.ownsPart ff p && s.fenceInRange p f then s.fence f else 0
  else if 0xC00800 ≤ off ∧ off < 0xC01000 then leNat (((AMap.getD s.wins ff {}).reply.drop (off - 0xC00800)).take 8)
  else if off = 0xC01008 then
    let w := AMap.getD s.wins ff {}
    w.phase + (if w.phase = 2 then w.reply.length * 65536 else 0)
  else 0

/-- COMPLETION_TIMEOUT: a read of the op's present block timed out; the block fails and nothing is written for it (R229, R394). -/
def completionTimeout (s : State) (o : OpRef) (port : Nat) : State :=
  if !s.running || 1 < port then s
  else
    let s := s.addObj 0x9033 port 1
    match s.nextBlock o with
    | none => s
    | some (_, y, w, b) => if BlockEntry.kind b ≤ 1 then (s.beginStream o y).blockFails o w.blocks Status.poisonConsumed else s

end State

/-- HOST_PORT_READY (R464). -/
def execHostPortReady (port width speed : Nat) (flit : Bool) (s : State) : Outcome State Fault Refusal :=
  .next (s.portReady port width speed flit)

/-- PERST (R403). -/
def execPerst (port kind : Nat) (s : State) : Outcome State Fault Refusal := .next (s.portReset port kind)

/-- HOST_LINK_DOWN (R403). -/
def execHostLinkDown (port : Nat) (s : State) : Outcome State Fault Refusal := .next (s.portLinkDown port)

/-- FLR_PF (R403). -/
def execFlrPf (port : Nat) (s : State) : Outcome State Fault Refusal := .next (s.flrPf port)

/-- FLR_VF (R403). -/
def execFlrVf (port vf : Nat) (removed : Bool) (s : State) : Outcome State Fault Refusal := .next (s.flrVf port vf removed)

/-- BUS_MASTER_ENABLE_CLEAR (R403). -/
def execBusMasterEnableClear (ff : Nat) (d3hot : Bool) (s : State) : Outcome State Fault Refusal :=
  .next (s.busMasterOff ff d3hot)

/-- CONFIG_SPACE_WRITE (R397). -/
def execConfigSpaceWrite (ff : Nat) (reg : CfgReg) (v : Nat) (s : State) : Outcome State Fault Refusal :=
  .next (s.cfgWrite ff reg v)

/-- BAR2_READ (R401). -/
def execBar2Read (ff off len : Nat) (s : State) : Outcome State Fault Refusal := 
  .next (s.inTurn (some (ff / 8)) (.bar2Read ff off len) (s.bar2Read ff off len))

/-- BAR2_WRITE (R401). -/
def execBar2Write (ff off : Nat) (data : List (BitVec 8)) (ep : Bool) (s : State) : Outcome State Fault Refusal :=
  .next (s.inTurn (some (ff / 8)) (.bar2Write ff off data ep) (s.bar2Write ff off data ep))

/-- REGISTER_WRITE (R421): a BAR0 register, or a WRITE of one dictionary object. -/
def execRegisterWrite (t : RegTarget) (size v : Nat) (s : State) : Outcome State Fault Refusal :=
  match t with
  | .bar0 ff off => .next (s.inTurn (some (ff / 8)) (.registerWrite t size v) (s.bar0Write ff off size v))
  | .object r index sub =>
    .next (s.inTurn (State.hostPortOf r) (.registerWrite t size v) (s.request (.action r index sub (leBytes size v))))

/-- COMPLETION_TIMEOUT (R394). -/
def execCompletionTimeout (o : OpRef) (port : Nat) (s : State) : Outcome State Fault Refusal := .next (s.completionTimeout o port)

end Sys2Proof.Machine
end

