-- ==== Sys2Proof/Machine/Remote.lean ====
section
/-! DEFINITION. REMOTE_WRITE and REMOTE_GATHER, and the lookups that peers ask for (17_sharel_fabric.md, R388 to R390). -/

namespace Sys2Proof.Machine

open Host (Outcome)

/-! ### REMOTE_WRITE (R388) -/

/-- The start of the frame that carries byte `bad` of a write from window offset `off`, frames holding at most `cap` bytes. -/
def frameStart (cap off bad : Nat) : Nat → Nat → Nat
  | 0, pos => pos
  | fuel + 1, pos =>
    let n := min cap (4096 - (off + pos) % 4096)
    if bad < pos + n then pos else frameStart cap off bad fuel (pos + n)

/-- The data and the signal of a REMOTE_WRITE put on the stream: one block of the engine it names, which runs again where an error is
detected in it; a second one fails the op, and what it sent is free (R338). Towards a v1 peer a frame with a poisoned source atom is not
sent, and the op fails (R391). -/
def sendRemote (o : OpRef) (errors : Nat) (x : Op) (r : Req) : M Op := do
  let w := x.word
  if !RemoteWriteOp.ok w then failWith Status.descriptorInvalid
  let eng : Req := { r with kind := 2, id := RemoteWriteOp.engine w }
  let n := RemoteWriteOp.len w
  let (bs, marks) ← streamRow eng (n / 4096 + 2) (RemoteWriteOp.src w) n
  let (v, s) := (← get).draw
  let bs := if 2 ≤ errors then spoilBytes v bs else bs
  let s := s.blockReplayed o (64 + RemoteWriteOp.engine w) errors
  let p := RemoteWriteOp.peer w
  let off := RemoteWriteOp.peerOff w
  let who := payerOf s r.who
  match (if s.peerVersion p = 1 then marks.findIdx? id else none) with
  | some bad =>
    let k := frameStart 2048 off bad (n + 1) 0
    set (s.queueWrite p r.cls who off (bs.take k) [])
    failWith Status.poisonConsumed
  | none =>
    let s := s.queueWrite p r.cls who off bs marks
    if 2 ≤ errors then
      set s
      failWith Status.silentError
    set (if RemoteWriteOp.sigMode w = 0 then s else
      s.queueFrame p r.cls who { blankFrame 5 with
        offset := off, sigMode := RemoteWriteOp.sigMode w, fence := RemoteWriteOp.sigFence w, last := true,
        payload := leBytes 8 (RemoteWriteOp.sigValue w) })
    return { x with replayed := x.replayed || errors == 1 }

/-- REMOTE_WRITE: sent at its dispatch; OP_COMPLETION ends it once every frame is acknowledged. -/
def State.remoteWrite (s : State) (o : OpRef) (errors : Nat) : State :=
  let s := s.dispatch o 0x0F (sendRemote o errors)
  match s.op? o with
  | some x =>
    if x.phase = .dispatched ∧ OpHdr.opcode x.word = 0x0F then s.modOp o fun y => { y with phase := .settled } else s
  | none => s

/-! ### REMOTE_GATHER: the requester (R389, steps 1, 2 and 6) -/

/-- Bytes as frames of a request, each with its place in the sequence and its poison bits; the last one marked. -/
def gatherFrames (cap tag : Nat) : Nat → Nat → List (BitVec 8) → List Bool → List Frame
  | 0, _, _, _ => []
  | fuel + 1, pos, bs, marks =>
    if bs.isEmpty then []
    else
      let n := min bs.length cap
      { blankFrame 3 with
          tag := tag, offset := pos % 2 ^ 32, payload := bs.take n, poison := State.poisonBits pos (marks.take n),
          last := bs.length == n } ::
        gatherFrames cap tag fuel (pos + n) (bs.drop n) (marks.drop n)

/-- The local checks and the request of a REMOTE_GATHER. -/
def sendGather (x : Op) (r : Req) : M Op := do
  let w := x.word
  if !RemoteGatherOp.ok w then failWith Status.descriptorInvalid
  let b ← readNum r (RemoteGatherOp.inputs w) 64
  let pool := RemoteGatherOp.pool w
  if !GatherIn.ok b pool (RemoteGatherOp.wide w) then failWith Status.descriptorInvalid
  let t := RemoteGatherOp.tables w
  let nOffs := t * RemoteGatherOp.batch w + 1
  let offBytes ← readVA r (GatherIn.offsets b) (4 * nOffs)
  let off := fun i => leNat ((offBytes.drop (4 * i)).take 4)
  let bounds := (List.range (t + 1)).map fun k => off (k * RemoteGatherOp.batch w)
  let n := bounds.getD t 0
  let ins := spanOf (GatherIn.idx b) (n * if RemoteGatherOp.wide w then 8 else 4) ++ spanOf (GatherIn.offsets b) (4 * nOffs) ++
    (if pool = 4 then spanOf (GatherIn.weights b) (4 * n) else []) ++ spanOf (RemoteGatherOp.inputs w) 64
  let vectors := if pool = 0 then n else t * RemoteGatherOp.batch w
  let sides := (if GatherIn.validMask b = 0 then [] else spanOf (GatherIn.validMask b) (maskBytes vectors)) ++
    (if GatherIn.report b = 0 then [] else spanOf (GatherIn.report b) 64)
  if bounds.headD 1 ≠ 0 || !rising bounds || spansOverlap sides ins then failWith Status.descriptorInvalid
  let (idx, idxBad) ← readMarked r (GatherIn.idx b) (n * if RemoteGatherOp.wide w then 8 else 4)
  let (ws, wsBad) ← if pool = 4 then readMarked r (GatherIn.weights b) (4 * n) else pure ([], [])
  let s ← get
  let p := RemoteGatherOp.peer w
  let tag := s.fabric.nextTag
  let s := { s with fabric := { s.fabric with nextTag := (tag + 1) % 2 ^ 32 } }
  let who := payerOf s r.who
  let bytes := offBytes ++ idx ++ ws
  let frames := { blankFrame 3 with tag := tag, payload := leBytes 48 (bits w 511 128), last := false } ::
    gatherFrames (s.framePayload p) tag (bytes.length + 1) 0 bytes (List.replicate offBytes.length false ++ idxBad ++ wsBad)
  set (frames.foldl (fun u f => u.queueFrame p r.cls who f) s)
  return { x with copies := [b], body := .remote { peer := p, tag := tag, vectors := vectors } }

/-- A final reply's status as the op reports it (R377, R389). -/
def finalStatus (st : Nat) : Nat := if st = Status.descriptorInvalid then st else peerStatus st

/-- Vectors written to the output rows. -/
def writeRemoteRows (r : Req) (out : Nat) : List (Nat × List (BitVec 8) × List Bool) → M Unit
  | [] => return ()
  | (pos, bs, marks) :: rest => do
    writeMarked r (out + pos) bs marks true
    writeRemoteRows r out rest

/-- The validity mask (R166). The record tells neither which parts the peer's table list names nor which vectors belong to
them: where a part failed or a position was skipped and others were not, its bits are free. -/
def remoteMask (w n : Nat) (work : RemoteWork) (v : Nat) : List (BitVec 8) :=
  let bad := (work.parts.filter Status.failed).length
  let skipped := leNat ((work.report.drop 8).take 4)
  if work.status ≠ 0 ∨ min 16 (RemoteGatherOp.tables w) ≤ bad then maskFrom n fun _ => false
  else if bad = 0 ∧ skipped = 0 then maskFrom n fun _ => true
  else maskFrom n fun i => v.testBit i

/-- The local writes of a finished REMOTE_GATHER: vectors, mask, report (step 6). -/
def landGather (x : Op) (r : Req) (work : RemoteWork) : M Unit := do
  let b := x.copies.getD 0 0
  if work.status = 0 then writeRemoteRows r (RemoteGatherOp.out x.word) work.got
  let (v, s) := (← get).draw
  set s
  if GatherIn.validMask b ≠ 0 then writeVA r (GatherIn.validMask b) (remoteMask x.word work.vectors work v)
  if GatherIn.report b ≠ 0 then
    writeVA r (GatherIn.report b) (work.parts.flatMap (leBytes 2) ++ work.report)

namespace State

/-- A finished REMOTE_GATHER is written and ends. An error detected in its local writes runs them again, as a STREAM block of an engine
that R390 does not name (its number in `se_replays` is free); a second one leaves what they wrote free and fails it (R338). It ends
with its own failure, or with the failing parts' status. Whether every part
failed can be told only where as many failed as there are tables; otherwise it is free. -/
def finishRemote (s : State) (o : OpRef) (errors : Nat) : State :=
  match s.op? o with
  | some x =>
    match x.phase, x.body with
    | .dispatched, .remote work =>
      if !work.finished || !s.running then s
      else
        let lost : RemoteWork := { work with
          parts := if work.status = Status.fabricUnreachable then List.replicate 16 Status.fabricUnreachable else List.replicate 16 0
          report := List.replicate 32 0 }
        let work := if work.status ≠ 0 then lost else work
        let direct := work.status ≠ 0 ∧ work.status ≠ Status.fabricUnreachable
        let (v, s) := s.draw
        let lost := !direct && decide (2 ≤ errors)
        let work := if lost then { work with got := work.got.map fun g => (g.1, Machine.spoilBytes v g.2.1, g.2.2), report := Machine.spoilBytes v work.report }
          else work
        s.runM (if direct then pure () else landGather x (s.spineReq o.ctx (.op o 1000)) work)
          (fun _ t =>
            let t := if direct then t else t.blockReplayed o (64 + v % 4) errors
            if lost then t.modOp o fun y => { y with phase := .settled, status := Status.silentError, low := 0, high := 0, body := .none } else
            let bad := (List.range 16).filter fun p => Status.failed (work.parts.getD p 0)
            let map := bad.foldl (fun m p => m + 2 ^ p) 0
            let (v, t) := t.draw
            let end_ := fun (st high pm : Nat) => (t.modOp o fun y => { y with
              phase := .settled, status := st, low := 0, high := high, partMap := pm, body := .none })
            if work.status ≠ 0 then end_ work.status work.code (if direct then 0 else v % 2 ^ 16)
            else
              match bad with
              | [] => end_ Status.ok 0 0
              | p :: _ =>
                let all := decide (min 16 (RemoteGatherOp.tables x.word) ≤ bad.length) || v.testBit 0
                let st := work.parts.getD p 0
                end_ (if all then st else Status.partly) st map)
          (fun st code t => t.modOp o fun y => { y with
            phase := .settled, status := st, low := code % 256, high := code / 65536, body := .none })
    | _, _ => s
  | none => s

/-- REMOTE_GATHER: the first command sends the request; once the final reply is in, the results are written. -/
def remoteGather (s : State) (o : OpRef) (errors : Nat) : State := (s.dispatch o 0x0E sendGather).finishRemote o errors

/-- GATHER_REPLY (R389): vectors are kept until the final reply, whose payload gives the part statuses and the report. -/
def gatherReplyAct (f : Frame) : State → State × Bool :=
  inOrder f fun t =>
    match t.gatherOf f.src f.tag with
    | none => (t, .done)
    | some o =>
      let marks := poisonMarks f.offset f.payload.length f.poison
      (t.modOp o fun x => match x.body with
        | .remote w => { x with body := .remote (
            if f.last then { w with
              finished := true
              status := if f.status = 0 then 0 else finalStatus f.status
              code := f.status
              parts := (List.range 16).map fun p => leNat ((f.payload.drop (2 * p)).take 2)
              report := (f.payload.drop 32).take 32 }
            else { w with got := w.got ++ [(f.offset, f.payload, marks)] }) }
        | _ => x, .done)

end State

/-! ### REMOTE_GATHER: the peer (R389, steps 3 to 5; R390) -/

/-- A number of the request's sequence, or POISON_CONSUMED where it was marked. -/
def InGather.num (g : InGather) (pos n : Nat) : Except Nat Nat :=
  if ((g.marks.drop pos).take n).any id then .error Status.poisonConsumed else .ok (leNat ((g.got.drop pos).take n))

/-- The offsets, indices and weights of a request have the lengths its record asks for. -/
def InGather.whole (g : InGather) : Bool :=
  let w := g.word
  let nOffs := RemoteGatherOp.tables w * RemoteGatherOp.batch w + 1
  let n := leNat ((g.got.drop (4 * (nOffs - 1))).take 4)
  g.got.length == 4 * nOffs + n * (if RemoteGatherOp.wide w then 8 else 4) + (if RemoteGatherOp.pool w = 4 then 4 * n else 0)

/-- The boundary offsets of a request. -/
def InGather.bounds (g : InGather) : List Nat :=
  (List.range (RemoteGatherOp.tables g.word + 1)).map fun t =>
    leNat ((g.got.drop (4 * (t * RemoteGatherOp.batch g.word))).take 4)

/-- The intake of table `t` from the request (R155, R158), whole. -/
def InGather.intake (g : InGather) (tcb t : Nat) (bounds : List Nat) : TableWork :=
  let w := g.word
  let wide := if RemoteGatherOp.wide w then 8 else 4
  let at_ := 4 * (RemoteGatherOp.tables w * RemoteGatherOp.batch w + 1)
  let n := bounds.getD (RemoteGatherOp.tables w) 0
  let lo := bounds.getD t 0
  let hi := bounds.getD (t + 1) 0
  let inner := if RemoteGatherOp.pool w = 0 then [] else
    (List.range (RemoteGatherOp.batch w - 1)).map fun j => g.num (4 * (t * RemoteGatherOp.batch w + j + 1)) 4
  endIntake ((List.range (hi - lo)).foldl (fun k i =>
    takePos (RemoteGatherOp.pool w) (Tcb.rowCount tcb) (RemoteGatherOp.badIndex w) k (lo + i) (g.num (at_ + wide * (lo + i)) wide)
      (if RemoteGatherOp.pool w = 4 then g.num (at_ + wide * n + 4 * (lo + i)) 4 else .ok 0)) (takeInner {} lo hi inner))

/-- One row fetched at its home for a peer (R164). -/
def fetchInbound (r : Req) (tcb row g : Nat) : M (Except Nat (List Nat)) := do
  match ← attempt (readRow { r with targets := 9 } tcb row none) with
  | .error st => return .error st
  | .ok (a, bs, bad) =>
    let w := ownerAt g a
    modify fun s => (s.addObj 0x6020 w 1).countShard a
    if bad then return .error Status.poisonConsumed
    else if Row.sound tcb bs then return .ok (Row.values tcb bs)
    else
      modify fun s => s.countRaise 1 2 (2 ^ r.part) 0x6023 w a
      return .error Status.poisonConsumed

/-- Every row of a plan. -/
def fetchPlan (r : Req) (tcb g : Nat) : List RowFetch → Nat → TableWork → M TableWork
  | [], _, t => return t
  | p :: ps, i, t => do
    let x ← fetchInbound r tcb p.row g
    let t := match x with
      | .ok vs => { t with rows := AMap.set t.rows i vs, fetched := t.fetched + 1 }
      | .error st => { t with rows := AMap.set t.rows i [], causes := t.causes ++ [st] }
    fetchPlan r tcb g ps (i + 1) t

/-- A table slice run whole for a peer. -/
def inboundSlice (r : Req) (g : InGather) (e : Nat × Nat) (t : Nat) (bounds : List Nat) : M Slice := do
  let k := g.intake e.1 t bounds
  modify fun s => ((s.addObj 0x6025 e.2 k.taken).addObj 0x6024 e.2 k.segments).addObj 0x6022 r.part k.skipped.length
  let w ← fetchPlan { r with kind := 1, id := e.2 } e.1 e.2 k.plan 0 k
  return { unit := 3, place := some e.2, lo := t, hi := t + 1, phase := .ended,
           status := if w.causes.isEmpty then Status.ok else topCause w.causes, work := .table w }

/-- A table slice run for a peer, `errors` of whose runs fail a check: the first is redone from its intake, a further one stays (R338,
R345, R390). -/
def inboundRuns (r : Req) (g : InGather) (e : Nat × Nat) (t : Nat) (bounds : List Nat) (errors : Nat) : M Slice := do
  let first ← inboundSlice r g e t bounds
  if errors = 0 then return first
  modify fun s => s.countRedo e.2
  let y ← inboundSlice r g e t bounds
  if errors = 1 then
    modify fun s => s.raise 2 0 (2 ^ r.part) 0x6040 e.2 0
    return y
  return { y with status := topCause (if Status.failed y.status then [y.status, Status.silentError] else [Status.silentError]) }

/-- Every table slice of a request. -/
def inboundSlices (r : Req) (g : InGather) (bounds errors : List Nat) : List (Nat × Nat) → Nat → M (List Slice)
  | [], _ => return []
  | e :: es, t => do
    let y ← inboundRuns r g e t bounds (errors.getD t 0)
    let ys ← inboundSlices r g bounds errors es (t + 1)
    return y :: ys

/-- What a lookup for a peer comes to: the vectors with their place in the output rows, the part statuses and the report; none
where a check of R157 fails. -/
def lookupFor (r : Req) (va : Nat) (g : InGather) (errors : List Nat) : M (Option (List (Nat × List (BitVec 8)) × List (BitVec 8))) := do
  let t := RemoteGatherOp.tables g.word
  let bs ← readVA r va (16 * t)
  let lists := State.words16 t bs
  if !lists.all TableEntry.ok || !g.whole then return none
  let ts ← tryCatch (some <$> readTcbs r lists) fun e => match e with
    | .fail 0x31 _ => pure none
    | e => throw e
  match ts with
  | none => return none
  | some ts =>
    let bounds := g.bounds
    let x : Op := { word := RemoteGatherOp.asGather g.word, body := .tables lists (ts.map (·.1)) bounds }
    let wide := (List.range t).all fun i =>
      decide (TableEntry.colOff (lists.getD i 0) + gatherWidth x.word ((ts.map (·.1)).getD i 0) ≤ RemoteGatherOp.outStride g.word)
    if !wide || bounds.headD 1 ≠ 0 || !rising bounds then return none
    let slices ← inboundSlices r g bounds errors ts 0
    let stats := partStatuses lists slices
    modify fun s => (stats.filter (· == Status.silentError)).foldl (fun u _ => u.countRaise 2 2 (2 ^ r.part) 0x5037 1 0)
      ((stats.filter (· == Status.poisonConsumed)).foldl (fun u _ => u.consumePoison) s)
    let good := (List.range t).flatMap fun k =>
      if Status.failed (stats.getD (TableEntry.part (lists.getD k 0)) 0) then [] else gatherOutputs x (workOf (slices.getD k { unit := 3 })) k
    return some (good ++ zeroParts x stats, tableReport stats slices)

namespace State

/-- Vectors and the final reply sent to a peer. -/
def replyGather (s : State) (g : InGather) (vs : List (Nat × List (BitVec 8))) (status : Nat) (final : List (BitVec 8)) : State :=
  let cap := s.framePayload g.peer
  let s := vs.foldl (fun t v =>
    (List.range (ceilDiv v.2.length cap)).foldl (fun u i =>
      u.queueFrame g.peer g.cls none { blankFrame 4 with
        tag := g.tag, offset := v.1 + cap * i, payload := (v.2.drop (cap * i)).take cap, last := false }) t) s
  s.queueFrame g.peer g.cls none { blankFrame 4 with tag := g.tag, status := status, payload := final, last := true }

/-- A request whose last frame has come is served, in the frame's class (R389). -/
def serveGather (r : Received) (g : InGather) (s : State) : State × Taken :=
  inbound { r.f with offset := RemoteGatherOp.tablesOff g.word } (16 * RemoteGatherOp.tables g.word)
    (fun q va => lookupFor q va g r.errors)
    (fun out u => match out with
      | none => u.replyGather g [] Status.descriptorInvalid []
      | some (vs, final) => u.replyGather g vs 0 final) s

/-- GATHER_REQ (R385, R389, R391): the first frame of a tag brings the record, the later ones the sequence of offsets, indices
and weights; the last one starts the lookup. -/
def gatherAct (r : Received) : State → State × Bool :=
  let f := r.f
  inOrder f fun t =>
    let mine := fun (g : InGather) => g.peer == f.src && g.cls == f.cls && g.tag == f.tag
    let rest := t.fabric.serving.filter fun g => !mine g
    let keep := fun (u : State) (g : InGather) =>
      { u with fabric := { u.fabric with serving := if f.last then rest else rest ++ [g] } }
    match t.fabric.serving.find? mine with
    | none =>
      let g : InGather := { peer := f.src, cls := f.cls, tag := f.tag, word := leNat f.payload * 2 ^ 128 }
      if f.version = 1 then (keep t { g with refused := true }, .refused Status.versionUnsupported)
      else if (t.subWindow (RemoteGatherOp.tablesOff g.word)).isNone then (keep t { g with refused := true }, .refused 0x0103)
      else if f.payload.length ≠ 48 ∨ RemoteGatherOp.ok g.word = false ∨ f.last = true then
        ((keep t { g with refused := true }).replyGather g [] Status.descriptorInvalid [], .done)
      else (keep t g, .done)
    | some g =>
      if g.refused then (keep t g, .done)
      else
        let h := { g with
          got := g.got ++ f.payload
          marks := g.marks ++ poisonMarks g.got.length f.payload.length f.poison }
        if f.last then
          match serveGather r h (keep t h) with
          | (u, .waits) => ({ u with fabric := { u.fabric with serving := t.fabric.serving } }, .waits)
          | x => x
        else (keep t h, .done)

/-- What a received frame does once its port takes it in: its type's effect. -/
def frameAct (r : Received) (s : State) : State × Bool :=
  match r.f.type with
  | 0 => writeAct r.f s
  | 1 => readAct r.f s
  | 2 => replyAct r.f s
  | 3 => gatherAct r s
  | 4 => gatherReplyAct r.f s
  | 5 => fenceAct r.f s
  | 6 => ackAct r.f s
  | _ => nakAct r.f s

/-- Every port serves the frames it holds. -/
def servePorts (s : State) : State := (List.range 6).foldl (servePort frameAct) s

end State

/-- REMOTE_WRITE (R388). -/
def execRemoteWrite (r : RemoteRun) (s : State) : Outcome State Fault Refusal :=
  .next (if s.running then s.remoteWrite r.o r.errors else s)

/-- REMOTE_GATHER (R389). -/
def execRemoteGather (r : RemoteRun) (s : State) : Outcome State Fault Refusal :=
  .next (s.remoteGather r.o r.errors)

/-- GATHER_REQ (R389). -/
def execGatherReq (port : Nat) (r : Received) (s : State) : Outcome State Fault Refusal :=
  .next (s.arrive port r 3 (State.gatherAct r))

/-- GATHER_REPLY (R389). -/
def execGatherReply (port : Nat) (f : Frame) (s : State) : Outcome State Fault Refusal :=
  .next (s.arrive port { f := f } 4 (State.gatherReplyAct f))

end Sys2Proof.Machine
end

