-- ==== Sys2Proof/Machine/Dispatch.lean ====
section
/-! DEFINITION. The effect of each command of spec/opcode_table.json on everything but the queue of commands. -/

namespace Sys2Proof.Machine

open Host

def exec (i : Instr) (s : State) : Host.Outcome State Fault Refusal :=
  match i with
  | .powerOn straps => Sys2Proof.Machine.execPowerOn straps s
  | .boardReset => Sys2Proof.Machine.execBoardReset s
  | .resetStretchEnd => Sys2Proof.Machine.execResetStretchEnd s
  | .devResetNRelease straps => Sys2Proof.Machine.execDevResetNRelease straps s
  | .railUndervoltage => Sys2Proof.Machine.execRailUndervoltage s
  | .warmResetRetrained r => Sys2Proof.Machine.execWarmResetRetrained r s
  | .warmResetRetained r => Sys2Proof.Machine.execWarmResetRetained r s
  | .deviceResetBegin => Sys2Proof.Machine.execDeviceResetBegin s
  | .clusterReset r cc => Sys2Proof.Machine.execClusterReset r cc s
  | .mgmtRestart r => Sys2Proof.Machine.execMgmtRestart r s
  | .watchdogExpiry => Sys2Proof.Machine.execWatchdogExpiry s
  | .clusterSelfTestComplete phys pass => Sys2Proof.Machine.execClusterSelfTestComplete phys pass s
  | .memoryTrainingComplete unit failed => Sys2Proof.Machine.execMemoryTrainingComplete unit failed s
  | .hostPortReady port width speed flit => Sys2Proof.Machine.execHostPortReady port width speed flit s
  | .perst port kind => Sys2Proof.Machine.execPerst port kind s
  | .hostLinkDown port => Sys2Proof.Machine.execHostLinkDown port s
  | .flrPf port => Sys2Proof.Machine.execFlrPf port s
  | .flrVf port vf removed => Sys2Proof.Machine.execFlrVf port vf removed s
  | .busMasterEnableClear ff d3hot => Sys2Proof.Machine.execBusMasterEnableClear ff d3hot s
  | .sqProduced ff ctx v => Sys2Proof.Machine.execSqProduced ff ctx v s
  | .cqConsumed ff ctx v => Sys2Proof.Machine.execCqConsumed ff ctx v s
  | .wakeArm ff ctx target => Sys2Proof.Machine.execWakeArm ff ctx target s
  | .wakeDisarm ff ctx target => Sys2Proof.Machine.execWakeDisarm ff ctx target s
  | .release ff ctx v => Sys2Proof.Machine.execRelease ff ctx v s
  | .registerWrite t size v => Sys2Proof.Machine.execRegisterWrite t size v s
  | .mboxNop ff slot g payload => Sys2Proof.Machine.execMboxNop ff slot g payload s
  | .mboxRead ff slot g payload => Sys2Proof.Machine.execMboxRead ff slot g payload s
  | .mboxWrite ff slot g payload => Sys2Proof.Machine.execMboxWrite ff slot g payload s
  | .mboxFenceSignal ff slot g payload => Sys2Proof.Machine.execMboxFenceSignal ff slot g payload s
  | .fenceRead ff slot g payload => Sys2Proof.Machine.execFenceRead ff slot g payload s
  | .mboxStatus ff slot g payload => Sys2Proof.Machine.execMboxStatus ff slot g payload s
  | .bar2Read ff off len => Sys2Proof.Machine.execBar2Read ff off len s
  | .bar2Write ff off data ep => Sys2Proof.Machine.execBar2Write ff off data ep s
  | .winGo ff v => Sys2Proof.Machine.execWinGo ff v s
  | .read r h payload trailer => Sys2Proof.Machine.execRead r h payload trailer s
  | .write r h payload trailer => Sys2Proof.Machine.execWrite r h payload trailer s
  | .commit r h payload trailer => Sys2Proof.Machine.execCommit r h payload trailer s
  | .commitDiscard r h payload trailer => Sys2Proof.Machine.execCommitDiscard r h payload trailer s
  | .bulkPut r h payload trailer => Sys2Proof.Machine.execBulkPut r h payload trailer s
  | .bulkGet r h payload trailer => Sys2Proof.Machine.execBulkGet r h payload trailer s
  | .bulkTransferTimeout index sub => Sys2Proof.Machine.execBulkTransferTimeout index sub s
  | .snapshotTimeout r index sub => Sys2Proof.Machine.execSnapshotTimeout r index sub s
  | .sessChallenge r => Sys2Proof.Machine.execSessChallenge r s
  | .sessOpen r value => Sys2Proof.Machine.execSessOpen r value s
  | .sessClose r n => Sys2Proof.Machine.execSessClose r n s
  | .sessionIdleTimeout n => Sys2Proof.Machine.execSessionIdleTimeout n s
  | .ownerGrant r grant => Sys2Proof.Machine.execOwnerGrant r grant s
  | .opKey r slot value => Sys2Proof.Machine.execOpKey r slot value s
  | .keyProvision r value => Sys2Proof.Machine.execKeyProvision r value s
  | .keyRevoke r v => Sys2Proof.Machine.execKeyRevoke r v s
  | .rollbackRaise r v => Sys2Proof.Machine.execRollbackRaise r v s
  | .ownerEnroll r hash => Sys2Proof.Machine.execOwnerEnroll r hash s
  | .attnAck r rr v => Sys2Proof.Machine.execAttnAck r rr v s
  | .attentionLogWrite => Sys2Proof.Machine.execAttentionLogWrite s
  | .ctxCreate r req => Sys2Proof.Machine.execCtxCreate r req s
  | .ctxTeardown r n => Sys2Proof.Machine.execCtxTeardown r n s
  | .teardownComplete n => Sys2Proof.Machine.execTeardownComplete n s
  | .ctxOrphan r n => Sys2Proof.Machine.execCtxOrphan r n s
  | .orphanMsExpiry port => Sys2Proof.Machine.execOrphanMsExpiry port s
  | .orphanLimitExpiry n => Sys2Proof.Machine.execOrphanLimitExpiry n s
  | .ctxAttach r req => Sys2Proof.Machine.execCtxAttach r req s
  | .spareRequest r cc v => Sys2Proof.Machine.execSpareRequest r cc v s
  | .injectPoison r v => Sys2Proof.Machine.execInjectPoison r v s
  | .fwStage r image => Sys2Proof.Machine.execFwStage r image s
  | .fwActivate r v => Sys2Proof.Machine.execFwActivate r v s
  | .fwQuiescentPoint => Sys2Proof.Machine.execFwQuiescentPoint s
  | .fwQuiesceTimeout => Sys2Proof.Machine.execFwQuiesceTimeout s
  | .fwAliveTimeout => Sys2Proof.Machine.execFwAliveTimeout s
  | .romAnnounce => Sys2Proof.Machine.execRomAnnounce s
  | .attestNonce r nonce => Sys2Proof.Machine.execAttestNonce r nonce s
  | .attestSignComplete r => Sys2Proof.Machine.execAttestSignComplete r s
  | .submit ctx => Sys2Proof.Machine.execSubmit ctx s
  | .bind ctx => Sys2Proof.Machine.execBind ctx s
  | .patch ctx => Sys2Proof.Machine.execPatch ctx s
  | .launch ctx => Sys2Proof.Machine.execLaunch ctx s
  | .unbind ctx => Sys2Proof.Machine.execUnbind ctx s
  | .opChunkRead ctx entry => Sys2Proof.Machine.execOpChunkRead ctx entry s
  | .slicePlacement o k => Sys2Proof.Machine.execSlicePlacement o k s
  | .sliceEnd o k => Sys2Proof.Machine.execSliceEnd o k s
  | .opCompletion o => Sys2Proof.Machine.execOpCompletion o s
  | .statusEcho ctx => Sys2Proof.Machine.execStatusEcho ctx s
  | .fenceTimeout o => Sys2Proof.Machine.execFenceTimeout o s
  | .nopOp o => Sys2Proof.Machine.execNopOp o s
  | .barrier o => Sys2Proof.Machine.execBarrier o s
  | .fenceWait o => Sys2Proof.Machine.execFenceWait o s
  | .fenceSignal o => Sys2Proof.Machine.execFenceSignal o s
  | .hostFlag o => Sys2Proof.Machine.execHostFlag o s
  | .readBackComplete ctx entry flag => Sys2Proof.Machine.execReadBackComplete ctx entry flag s
  | .inlineData o => Sys2Proof.Machine.execInlineData o s
  | .matmul o => Sys2Proof.Machine.execMatmul o s
  | .matmulTile cc e => Sys2Proof.Machine.execMatmulTile cc e s
  | .tileDrain cc e runs epilogueFails => Sys2Proof.Machine.execTileDrain cc e runs epilogueFails s
  | .tileReplayOtherEngine cc e run => Sys2Proof.Machine.execTileReplayOtherEngine cc e run s
  | .laneMapOutRecord cc e => Sys2Proof.Machine.execLaneMapOutRecord cc e s
  | .idleHoldEnd cc e => Sys2Proof.Machine.execIdleHoldEnd cc e s
  | .rampTokenGrant cc e => Sys2Proof.Machine.execRampTokenGrant cc e s
  | .vectorRun o => Sys2Proof.Machine.execVectorRun o s
  | .taskStart cc => Sys2Proof.Machine.execTaskStart cc s
  | .cycleLimitExceeded core => Sys2Proof.Machine.execCycleLimitExceeded core s
  | .taskMove core first second => Sys2Proof.Machine.execTaskMove core first second s
  | .taskRestart core first second => Sys2Proof.Machine.execTaskRestart core first second s
  | .canaryRun cc first second => Sys2Proof.Machine.execCanaryRun cc first second s
  | .nop x f => Sys2Proof.Machine.execNop x f s
  | .halt x f => Sys2Proof.Machine.execHalt x f s
  | .fenceDev x f => Sys2Proof.Machine.execFenceDev x f s
  | .fenceHost x f => Sys2Proof.Machine.execFenceHost x f s
  | .fenceAll x f => Sys2Proof.Machine.execFenceAll x f s
  | .jr x f => Sys2Proof.Machine.execJr x f s
  | .flagsR x f => Sys2Proof.Machine.execFlagsR x f s
  | .flagsC x f => Sys2Proof.Machine.execFlagsC x f s
  | .cycle x f => Sys2Proof.Machine.execCycle x f s
  | .tload x f => Sys2Proof.Machine.execTload x f s
  | .add x f => Sys2Proof.Machine.execAdd x f s
  | .sub x f => Sys2Proof.Machine.execSub x f s
  | .mul x f => Sys2Proof.Machine.execMul x f s
  | .mulh x f => Sys2Proof.Machine.execMulh x f s
  | .mulhu x f => Sys2Proof.Machine.execMulhu x f s
  | .and x f => Sys2Proof.Machine.execAnd x f s
  | .or x f => Sys2Proof.Machine.execOr x f s
  | .xor x f => Sys2Proof.Machine.execXor x f s
  | .sll x f => Sys2Proof.Machine.execSll x f s
  | .srl x f => Sys2Proof.Machine.execSrl x f s
  | .sra x f => Sys2Proof.Machine.execSra x f s
  | .slt x f => Sys2Proof.Machine.execSlt x f s
  | .sltu x f => Sys2Proof.Machine.execSltu x f s
  | .min x f => Sys2Proof.Machine.execMin x f s
  | .max x f => Sys2Proof.Machine.execMax x f s
  | .minu x f => Sys2Proof.Machine.execMinu x f s
  | .maxu x f => Sys2Proof.Machine.execMaxu x f s
  | .adds x f => Sys2Proof.Machine.execAdds x f s
  | .subs x f => Sys2Proof.Machine.execSubs x f s
  | .addImm x f => Sys2Proof.Machine.execAddImm x f s
  | .subImm x f => Sys2Proof.Machine.execSubImm x f s
  | .mulImm x f => Sys2Proof.Machine.execMulImm x f s
  | .mulhImm x f => Sys2Proof.Machine.execMulhImm x f s
  | .mulhuImm x f => Sys2Proof.Machine.execMulhuImm x f s
  | .andImm x f => Sys2Proof.Machine.execAndImm x f s
  | .orImm x f => Sys2Proof.Machine.execOrImm x f s
  | .xorImm x f => Sys2Proof.Machine.execXorImm x f s
  | .sllImm x f => Sys2Proof.Machine.execSllImm x f s
  | .srlImm x f => Sys2Proof.Machine.execSrlImm x f s
  | .sraImm x f => Sys2Proof.Machine.execSraImm x f s
  | .sltImm x f => Sys2Proof.Machine.execSltImm x f s
  | .sltuImm x f => Sys2Proof.Machine.execSltuImm x f s
  | .minImm x f => Sys2Proof.Machine.execMinImm x f s
  | .maxImm x f => Sys2Proof.Machine.execMaxImm x f s
  | .minuImm x f => Sys2Proof.Machine.execMinuImm x f s
  | .maxuImm x f => Sys2Proof.Machine.execMaxuImm x f s
  | .addsImm x f => Sys2Proof.Machine.execAddsImm x f s
  | .subsImm x f => Sys2Proof.Machine.execSubsImm x f s
  | .ldk x dst imm => Sys2Proof.Machine.execLdk x dst imm s
  | .shk x dst imm => Sys2Proof.Machine.execShk x dst imm s
  | .brEq x a b off => Sys2Proof.Machine.execBrEq x a b off s
  | .brNe x a b off => Sys2Proof.Machine.execBrNe x a b off s
  | .brLt x a b off => Sys2Proof.Machine.execBrLt x a b off s
  | .brGe x a b off => Sys2Proof.Machine.execBrGe x a b off s
  | .brLtu x a b off => Sys2Proof.Machine.execBrLtu x a b off s
  | .brGeu x a b off => Sys2Proof.Machine.execBrGeu x a b off s
  | .jal x dst off => Sys2Proof.Machine.execJal x dst off s
  | .ld x f => Sys2Proof.Machine.execLd x f s
  | .ldu x f => Sys2Proof.Machine.execLdu x f s
  | .st x f => Sys2Proof.Machine.execSt x f s
  | .storeRel x f => Sys2Proof.Machine.execStoreRel x f s
  | .ldAcq x f => Sys2Proof.Machine.execLdAcq x f s
  | .aadd x f => Sys2Proof.Machine.execAadd x f s
  | .aand x f => Sys2Proof.Machine.execAand x f s
  | .aor x f => Sys2Proof.Machine.execAor x f s
  | .axor x f => Sys2Proof.Machine.execAxor x f s
  | .aswap x f => Sys2Proof.Machine.execAswap x f s
  | .acas x f => Sys2Proof.Machine.execAcas x f s
  | .amin x f => Sys2Proof.Machine.execAmin x f s
  | .amax x f => Sys2Proof.Machine.execAmax x f s
  | .aminu x f => Sys2Proof.Machine.execAminu x f s
  | .amaxu x f => Sys2Proof.Machine.execAmaxu x f s
  | .afadd x f => Sys2Proof.Machine.execAfadd x f s
  | .afmin x f => Sys2Proof.Machine.execAfmin x f s
  | .afmax x f => Sys2Proof.Machine.execAfmax x f s
  | .vadd x f sc => Sys2Proof.Machine.execVadd x f sc s
  | .vsub x f sc => Sys2Proof.Machine.execVsub x f sc s
  | .vmul x f sc => Sys2Proof.Machine.execVmul x f sc s
  | .vmulh x f sc => Sys2Proof.Machine.execVmulh x f sc s
  | .vmulhu x f sc => Sys2Proof.Machine.execVmulhu x f sc s
  | .vand x f sc => Sys2Proof.Machine.execVand x f sc s
  | .vor x f sc => Sys2Proof.Machine.execVor x f sc s
  | .vxor x f sc => Sys2Proof.Machine.execVxor x f sc s
  | .vsll x f sc => Sys2Proof.Machine.execVsll x f sc s
  | .vsrl x f sc => Sys2Proof.Machine.execVsrl x f sc s
  | .vsra x f sc => Sys2Proof.Machine.execVsra x f sc s
  | .vmin x f sc => Sys2Proof.Machine.execVmin x f sc s
  | .vmax x f sc => Sys2Proof.Machine.execVmax x f sc s
  | .vminu x f sc => Sys2Proof.Machine.execVminu x f sc s
  | .vmaxu x f sc => Sys2Proof.Machine.execVmaxu x f sc s
  | .vabs x f sc => Sys2Proof.Machine.execVabs x f sc s
  | .vadds x f sc => Sys2Proof.Machine.execVadds x f sc s
  | .vsubs x f sc => Sys2Proof.Machine.execVsubs x f sc s
  | .vaddsu x f sc => Sys2Proof.Machine.execVaddsu x f sc s
  | .vsubsu x f sc => Sys2Proof.Machine.execVsubsu x f sc s
  | .vmuls x f sc => Sys2Proof.Machine.execVmuls x f sc s
  | .vslls x f sc => Sys2Proof.Machine.execVslls x f sc s
  | .vabss x f sc => Sys2Proof.Machine.execVabss x f sc s
  | .veq x f => Sys2Proof.Machine.execVeq x f s
  | .vne x f => Sys2Proof.Machine.execVne x f s
  | .vlt x f => Sys2Proof.Machine.execVlt x f s
  | .vle x f => Sys2Proof.Machine.execVle x f s
  | .vltu x f => Sys2Proof.Machine.execVltu x f s
  | .vleu x f => Sys2Proof.Machine.execVleu x f s
  | .vfeq x f => Sys2Proof.Machine.execVfeq x f s
  | .vflt x f => Sys2Proof.Machine.execVflt x f s
  | .vfle x f => Sys2Proof.Machine.execVfle x f s
  | .vfun x f => Sys2Proof.Machine.execVfun x f s
  | .vfadd x f sc => Sys2Proof.Machine.execVfadd x f sc s
  | .vfsub x f sc => Sys2Proof.Machine.execVfsub x f sc s
  | .vfmul x f sc => Sys2Proof.Machine.execVfmul x f sc s
  | .vfma x f sc => Sys2Proof.Machine.execVfma x f sc s
  | .vfnma x f sc => Sys2Proof.Machine.execVfnma x f sc s
  | .vfmin x f sc => Sys2Proof.Machine.execVfmin x f sc s
  | .vfmax x f sc => Sys2Proof.Machine.execVfmax x f sc s
  | .vfabs x f sc => Sys2Proof.Machine.execVfabs x f sc s
  | .vfneg x f sc => Sys2Proof.Machine.execVfneg x f sc s
  | .f32Bf16 x f => Sys2Proof.Machine.execF32Bf16 x f s
  | .bf16F32Lo x f => Sys2Proof.Machine.execBf16F32Lo x f s
  | .bf16F32Hi x f => Sys2Proof.Machine.execBf16F32Hi x f s
  | .i32F32 x f => Sys2Proof.Machine.execI32F32 x f s
  | .f32I32 x f => Sys2Proof.Machine.execF32I32 x f s
  | .widenLo x f => Sys2Proof.Machine.execWidenLo x f s
  | .widenHi x f => Sys2Proof.Machine.execWidenHi x f s
  | .widenuLo x f => Sys2Proof.Machine.execWidenuLo x f s
  | .widenuHi x f => Sys2Proof.Machine.execWidenuHi x f s
  | .narrow x f => Sys2Proof.Machine.execNarrow x f s
  | .narrowS x f => Sys2Proof.Machine.execNarrowS x f s
  | .narrowSu x f => Sys2Proof.Machine.execNarrowSu x f s
  | .vperm x f => Sys2Proof.Machine.execVperm x f s
  | .vbcast x f => Sys2Proof.Machine.execVbcast x f s
  | .vslideup x f => Sys2Proof.Machine.execVslideup x f s
  | .vslidedn x f => Sys2Proof.Machine.execVslidedn x f s
  | .vext x f => Sys2Proof.Machine.execVext x f s
  | .vins x f => Sys2Proof.Machine.execVins x f s
  | .viota x f => Sys2Proof.Machine.execViota x f s
  | .vmv x f => Sys2Proof.Machine.execVmv x f s
  | .vredadd x f => Sys2Proof.Machine.execVredadd x f s
  | .vredmin x f => Sys2Proof.Machine.execVredmin x f s
  | .vredmax x f => Sys2Proof.Machine.execVredmax x f s
  | .vredminu x f => Sys2Proof.Machine.execVredminu x f s
  | .vredmaxu x f => Sys2Proof.Machine.execVredmaxu x f s
  | .vfredadd x f => Sys2Proof.Machine.execVfredadd x f s
  | .vfredmin x f => Sys2Proof.Machine.execVfredmin x f s
  | .vfredmax x f => Sys2Proof.Machine.execVfredmax x f s
  | .tluI x f => Sys2Proof.Machine.execTluI x f s
  | .tluF x f => Sys2Proof.Machine.execTluF x f s
  | .rangeInit x f => Sys2Proof.Machine.execRangeInit x f s
  | .range x f => Sys2Proof.Machine.execRange x f s
  | .vld x f => Sys2Proof.Machine.execVld x f s
  | .vst x f => Sys2Proof.Machine.execVst x f s
  | .vlds x f => Sys2Proof.Machine.execVlds x f s
  | .vsts x f => Sys2Proof.Machine.execVsts x f s
  | .vldx x f => Sys2Proof.Machine.execVldx x f s
  | .vstx x f => Sys2Proof.Machine.execVstx x f s
  | .mand x f => Sys2Proof.Machine.execMand x f s
  | .mor x f => Sys2Proof.Machine.execMor x f s
  | .mxor x f => Sys2Proof.Machine.execMxor x f s
  | .mandn x f => Sys2Proof.Machine.execMandn x f s
  | .mnot x f => Sys2Proof.Machine.execMnot x f s
  | .mpop x f => Sys2Proof.Machine.execMpop x f s
  | .mfirst x f => Sys2Proof.Machine.execMfirst x f s
  | .msetN x f => Sys2Proof.Machine.execMsetN x f s
  | .gatherPool o => Sys2Proof.Machine.execGatherPool o s
  | .updateRows o => Sys2Proof.Machine.execUpdateRows o s
  | .tableSliceStart o k errors => Sys2Proof.Machine.execTableSliceStart o k errors s
  | .rowFetch o k => Sys2Proof.Machine.execRowFetch o k s
  | .sliceDelivery o k errors => Sys2Proof.Machine.execSliceDelivery o k errors s
  | .rowRmw o k errors => Sys2Proof.Machine.execRowRmw o k errors s
  | .replace o errors => Sys2Proof.Machine.execReplace o errors s
  | .hiveAdmit o => Sys2Proof.Machine.execHiveAdmit o s
  | .hiveEvict o => Sys2Proof.Machine.execHiveEvict o s
  | .hiveSlotFree entry => Sys2Proof.Machine.execHiveSlotFree entry s
  | .rebindMarkBegin o => Sys2Proof.Machine.execRebindMarkBegin o s
  | .rebindMarkEnd o => Sys2Proof.Machine.execRebindMarkEnd o s
  | .rebindMarkAbort o => Sys2Proof.Machine.execRebindMarkAbort o s
  | .stream o => Sys2Proof.Machine.execStream o s
  | .copyBlock o => Sys2Proof.Machine.execCopyBlock o s
  | .ringBlock o => Sys2Proof.Machine.execRingBlock o s
  | .waitBlock o => Sys2Proof.Machine.execWaitBlock o s
  | .signalBlock o => Sys2Proof.Machine.execSignalBlock o s
  | .chainBlock o => Sys2Proof.Machine.execChainBlock o s
  | .streamBlockReplay o fails => Sys2Proof.Machine.execStreamBlockReplay o fails s
  | .copyTensor o errors => Sys2Proof.Machine.execCopyTensor o errors s
  | .move o => Sys2Proof.Machine.execMove o s
  | .replicate o => Sys2Proof.Machine.execReplicate o s
  | .refresh o => Sys2Proof.Machine.execRefresh o s
  | .withdraw o => Sys2Proof.Machine.execWithdraw o s
  | .folioCopyStart o => Sys2Proof.Machine.execFolioCopyStart o s
  | .folioCopyDone o => Sys2Proof.Machine.execFolioCopyDone o s
  | .folioHoldExpiry o => Sys2Proof.Machine.execFolioHoldExpiry o s
  | .drainedInvalidationComplete o => Sys2Proof.Machine.execDrainedInvalidationComplete o s
  | .invalidateRange o => Sys2Proof.Machine.execInvalidateRange o s
  | .invalidateSpace o => Sys2Proof.Machine.execInvalidateSpace o s
  | .invalidatePartition o => Sys2Proof.Machine.execInvalidatePartition o s
  | .invalidateDrainComplete o => Sys2Proof.Machine.execInvalidateDrainComplete o s
  | .remoteWrite o => Sys2Proof.Machine.execRemoteWrite o s
  | .remoteGather o => Sys2Proof.Machine.execRemoteGather o s
  | .pageWalk => Sys2Proof.Machine.execPageWalk s
  | .tagEvictionComplete tt => Sys2Proof.Machine.execTagEvictionComplete tt s
  | .swarmTimerClose port => Sys2Proof.Machine.execSwarmTimerClose port s
  | .swarmPost port => Sys2Proof.Machine.execSwarmPost port s
  | .faultResumeRetry r port seq => Sys2Proof.Machine.execFaultResumeRetry r port seq s
  | .faultResumeFail r port seq => Sys2Proof.Machine.execFaultResumeFail r port seq s
  | .faultRingDisable r port => Sys2Proof.Machine.execFaultRingDisable r port s
  | .arbiterRound kk inst arrivals => Sys2Proof.Machine.execArbiterRound kk inst arrivals s
  | .grantEnd kk inst beats arrivals => Sys2Proof.Machine.execGrantEnd kk inst beats arrivals s
  | .contextSwitch cc => Sys2Proof.Machine.execContextSwitch cc s
  | .contextRestoreComplete cc => Sys2Proof.Machine.execContextRestoreComplete cc s
  | .clusterMoveHandover cc => Sys2Proof.Machine.execClusterMoveHandover cc s
  | .moveWaitExpiry cc => Sys2Proof.Machine.execMoveWaitExpiry cc s
  | .clusterSparingStart cc => Sys2Proof.Machine.execClusterSparingStart cc s
  | .spareSelfTestDone pass => Sys2Proof.Machine.execSpareSelfTestDone pass s
  | .handoverCopyComplete unreadable => Sys2Proof.Machine.execHandoverCopyComplete unreadable s
  | .handoverStopTimeout unit => Sys2Proof.Machine.execHandoverStopTimeout unit s
  | .coverChannelSparingStart nn => Sys2Proof.Machine.execCoverChannelSparingStart nn s
  | .coverChannelCopyComplete nn unreadable => Sys2Proof.Machine.execCoverChannelCopyComplete nn unreadable s
  | .rowRemapComplete chan row => Sys2Proof.Machine.execRowRemapComplete chan row s
  | .patrolScrub chan row corrected uncorrectable => Sys2Proof.Machine.execPatrolScrub chan row corrected uncorrectable s
  | .epochEnd sample => Sys2Proof.Machine.execEpochEnd sample s
  | .thermalLoopTick cover die => Sys2Proof.Machine.execThermalLoopTick cover die s
  | .channelBandwidthCap nn => Sys2Proof.Machine.execChannelBandwidthCap nn s
  | .hbmThermalCap stack => Sys2Proof.Machine.execHbmThermalCap stack s
  | .dieTempLimit cc => Sys2Proof.Machine.execDieTempLimit cc s
  | .thermTrip => Sys2Proof.Machine.execThermTrip s
  | .powerSample watts joules => Sys2Proof.Machine.execPowerSample watts joules s
  | .coreCurrentTrip => Sys2Proof.Machine.execCoreCurrentTrip s
  | .backstopLift => Sys2Proof.Machine.execBackstopLift s
  | .voltageRailReport mv => Sys2Proof.Machine.execVoltageRailReport mv s
  | .avsTimeout => Sys2Proof.Machine.execAvsTimeout s
  | .cxlLinkFail link => Sys2Proof.Machine.execCxlLinkFail link s
  | .cxlMemTimeout link => Sys2Proof.Machine.execCxlMemTimeout link s
  | .cxlEventRecord link severe dpa => Sys2Proof.Machine.execCxlEventRecord link severe dpa s
  | .writeFrame port f => Sys2Proof.Machine.execWriteFrame port f s
  | .readReq port f => Sys2Proof.Machine.execReadReq port f s
  | .readReply port f => Sys2Proof.Machine.execReadReply port f s
  | .gatherReq port r => Sys2Proof.Machine.execGatherReq port r s
  | .gatherReply port f => Sys2Proof.Machine.execGatherReply port f s
  | .fence port f => Sys2Proof.Machine.execFence port f s
  | .ack port f => Sys2Proof.Machine.execAck port f s
  | .nak port f => Sys2Proof.Machine.execNak port f s
  | .hello port m => Sys2Proof.Machine.execHello port m s
  | .claim port addr hash => Sys2Proof.Machine.execClaim port addr hash s
  | .lsa port m => Sys2Proof.Machine.execLsa port m s
  | .helloSend => Sys2Proof.Machine.execHelloSend s
  | .adjacencyTimeout port addr => Sys2Proof.Machine.execAdjacencyTimeout port addr s
  | .sharelLinkFault port => Sys2Proof.Machine.execSharelLinkFault port s
  | .sharelLinkUp port speed => Sys2Proof.Machine.execSharelLinkUp port speed s
  | .addressHeld => Sys2Proof.Machine.execAddressHeld s
  | .lsaRefresh => Sys2Proof.Machine.execLsaRefresh s
  | .routeCompute => Sys2Proof.Machine.execRouteCompute s
  | .ackSend peer cls => Sys2Proof.Machine.execAckSend peer cls s
  | .retransmitTimeout peer cls => Sys2Proof.Machine.execRetransmitTimeout peer cls s
  | .streamIdleClose peer cls => Sys2Proof.Machine.execStreamIdleClose peer cls s
  | .fabricTimeout peer cls => Sys2Proof.Machine.execFabricTimeout peer cls s
  | .cxlLinkUp link width speed capacity decoders accepted => Sys2Proof.Machine.execCxlLinkUp link width speed capacity decoders accepted s
  | .imageReportsAlive => Sys2Proof.Machine.execImageReportsAlive s
  | .transitFrame port f => Sys2Proof.Machine.execTransitFrame port f s
  | .pfcFrame port prio xoff => Sys2Proof.Machine.execPfcFrame port prio xoff s
  | .frameDiscard port reason => Sys2Proof.Machine.execFrameDiscard port reason s
  | .completionTimeout o port => Sys2Proof.Machine.execCompletionTimeout o port s
  | .hbmThermalCapRelease stack => Sys2Proof.Machine.execHbmThermalCapRelease stack s
  | .bulkGroupFailure group => Sys2Proof.Machine.execBulkGroupFailure group s
  | .mctpControlMessage path command arg => Sys2Proof.Machine.execMctpControlMessage path command arg s
  | .i3cDynamicAddress addr => Sys2Proof.Machine.execI3cDynamicAddress addr s
  | .configSpaceWrite ff reg v => Sys2Proof.Machine.execConfigSpaceWrite ff reg v s
  | .routerAdvertisement mtu prefix64 => Sys2Proof.Machine.execRouterAdvertisement mtu prefix64 s
  | .powerDown => Sys2Proof.Machine.execPowerDown s

end Sys2Proof.Machine
end

