-- ==== Sys2Proof/Machine/Tick.lean ====
section
/-! DEFINITION. What the device does of itself while no command waits: the posted word path lets its entries go
(10_streams_and_host_data.md, R232, R233), host accesses that were held take effect (R129, R206, R305, R466), and the Sharel ports serve
their ingress buffers (R373, R385; log entry 4). -/

namespace Sys2Proof.Machine

namespace State

/-- An entry may leave: a write to CXL memory whose folio is being copied is held (R129). -/
def mayLeave (s : State) (e : PathEntry) : Bool :=
  match e.target with
  | .cxl => !s.heldWrite e.addr
  | _ => true

/-- The entries that may leave now: of each core, the oldest for a target (R232). -/
def leavers (s : State) : List PathEntry → List PathEntry → List PathEntry
  | _, [] => []
  | before, e :: es =>
    if s.mayLeave e && !before.any (fun x => x.core == e.core && x.target == e.target) then e :: leavers s (e :: before) es
    else leavers s (e :: before) es

/-- The entry that leaves next: class 0 goes ahead of the others (R232). -/
def nextLeaver (s : State) : Option PathEntry :=
  let l := s.leavers [] s.path
  match l.find? fun e => e.cls == 0 with
  | some e => some e
  | none => l.head?

/-- A store that left for a host port which no longer takes it is discarded, and its task stops (R229). -/
def lostStore (s : State) (e : PathEntry) : State :=
  if ((s.core e.core).task).any fun t => t.o == e.o && t.index == e.index then
    let (v, s) := s.draw
    s.stopTask e.core Status.hostWriteFailed (causeOf Status.hostWriteFailed true v)
  else s

/-- An entry of the path leaves (R232, R234), poisoned where its check failed (R330). -/
def leave (s : State) (e : PathEntry) : State :=
  let s := { s with path := s.path.erase e }
  let s := if e.bad then s.transportError (if e.target = .cxl then e.addr else 0) else s
  let marks := List.replicate e.bytes.length e.bad
  match e.target with
  | .host p f => if s.hostUp p f then s.hostWrites p f e.addr e.bytes e.ro e.bad else s.lostStore e
  | .cxl => s.writeCarried e.addr e.bytes marks
  | .peer p => s.queueWrite p e.cls (some ⟨e.o, .core e.core, e.index⟩) e.addr e.bytes marks

/-- The first held host command that may now take effect: none of its port stands before it behind a held write, and its own hold has
ended. The state after it, and the commands that go on waiting. -/
def releaseHost (s : State) : List (Nat × Instr) → List (Nat × Instr) → Option State
  | _, [] => none
  | before, x :: xs =>
    if before.any (fun y => y.1 == x.1 && isBar2Write y.2) then releaseHost s (before ++ [x]) xs
    else
      match exec x.2 { s with trans := { s.trans with hostHeld := [] } } with
      | .next t =>
        if t.trans.hostHeld.isEmpty then some { t with trans := { t.trans with hostHeld := before ++ xs } }
        else releaseHost s (before ++ [x]) xs
      | _ => releaseHost s (before ++ [x]) xs

/-- A held host command takes effect, a waiting mailbox request goes on, or one entry of the path leaves and the records that waited for
their turn there are written. Where none of these is there, the Sharel ports try the frames they hold again. -/
def tick (s : State) : State :=
  if !s.running then s
  else
    match (s.releaseHost [] s.trans.hostHeld).or (s.mbox.findSome? fun x => s.mboxGoesOn x.1 x.2) with
    | some t => t
    | none =>
      match s.nextLeaver with
      | none => s.servePorts
      | some e => (s.leave e).issueAll

end State

end Sys2Proof.Machine
end

