-- ==== Sys2Proof/Safety.lean ====
section
/-! DEFINITION. What the statements are written in: when a command completes. -/

namespace Sys2Proof

open Machine (State)

/-- The command `i` answers a next state in `s`, and `P` holds of it. -/
def Completes (i : Instr) (s : State) (P : State → Prop) : Prop :=
  ∃ t, Machine.exec i s = .next t ∧ P t

/-- The events of supplies and reset pins (R469, R488, R497 to R499), which act on a device that does not run. -/
def BoardEvent : Instr → Bool
  | .powerOn _ | .boardReset | .resetStretchEnd | .devResetNRelease _ | .railUndervoltage | .thermTrip | .powerDown => true
  | _ => false

/-- `t` differs from `s` in dictionary objects, attention events and draws of free values alone. -/
def Noted (s t : State) : Prop := t = { s with objs := t.objs, attn := t.attn, free := t.free }

/-- The type code of a dictionary object. -/
def objType (index sub : Nat) : Nat := ((Machine.Catalog.find index sub).map (·.ty)).getD 0

/-- No held BAR2 write of its host port stands before what `r` sends (R206). -/
def Unheld (s : State) (r : Requester) : Prop := ∀ p, State.hostPortOf r = some p → s.behind p = false

/-- A write of `v` to object `index.sub` by `r` passes the checks of R429, and the firmware serves it. -/
def Permitted (s : State) (r : Requester) (index sub : Nat) (v : List (BitVec 8)) : Prop :=
  s.mgmtUp = true ∧ s.board.restartDue = false ∧ (r.session = 0 ∨ (s.sessionOf r).isSome = true) ∧
    (s.checkWrite r index sub (objType index sub) v true).isOk = true

open Machine

/-- The answer to a write of one object (R429): its item, with a status and a value. -/
def itemAnswer (r : Requester) (index sub status : Nat) (v : List (BitVec 8)) : Machine.Out :=
  .amiso r.path r.ident (Machine.itemReply index sub (objType index sub) status v)

/-- A message of `kind` by `r` with the head `h`, the payload `pl` and the trailer `tr` passes the checks of R426, R430, R441 and R442;
`u` is the state in which it is performed, and `key` authenticates its reply. -/
def Admitted (s u : State) (r : Requester) (kind : Nat) (h : MsgHead) (pl tr key : List (BitVec 8)) : Prop :=
  s.mgmtUp = true ∧ s.board.restartDue = false ∧ s.keptReply (State.partyOf r) h.tag = none ∧ s.stillServed r h.tag = false ∧
    pl.length ≤ (if h.version = 3 then 1024 else 1472) ∧
    ((r.session = 0 ∧ (h.version = 3 ∨ h.version = 4) ∧ key = [] ∧ u = s) ∨
      ∃ x, s.sessionOf r = some x ∧ h.version = x.version ∧ key = (if r.path = .mgmt then x.key else []) ∧
        u = s.setSession { x with lastTag := some h.tag } ∧
        (key ≠ [] → tr = kmac256 key (State.header h.version kind 0 h.tag pl.length r.session ++ pl) 128 "AMISO MSG" ∧
          State.tagFollows x.lastTag h.tag = true))

/-- The message `i` is answered: `t` is the state it leaves, and the reply has `status` and the payload `b`. -/
def Answered (i : Instr) (s t : State) (r : Requester) (kind : Nat) (h : MsgHead) (key : List (BitVec 8)) (status : Nat)
    (b : List (BitVec 8)) : Prop :=
  t.board.restartDue = false →
    Completes i s fun z => Noted (t.sendReply r (some h.tag) key (State.replyBytes r h.version kind status h.tag b)) z

/-- The bytes of an item: its head, its value and padding to four bytes (R428). -/
def itemBytes (index sub ty status : Nat) (v : List (BitVec 8)) : List (BitVec 8) :=
  leBytes 2 index ++ leBytes 1 sub ++ leBytes 1 ty ++ leBytes 2 status ++ leBytes 2 v.length ++ v ++
    List.replicate ((4 - v.length % 4) % 4) 0

/-! ### Tidy cores -/


/-- Core `x.core` executes task `t`, and `w` is the word at its program counter (R61, R64). -/
def Runs (s : State) (x : At) (w : Nat) (t : Task) : Prop :=
  (s.core x.core).task = some t ∧ s.coreRuns x.core = true ∧
    AMap.getD (s.core x.core).imem (s.core x.core).pc 0 = w

/-- The core past the instruction at its program counter, with no access of it left. -/
def past (c : Core) : Core := { c with pc := (c.pc + 1) % 16384, done := 0 }

/-- The state after an instruction of task `t` that passed and leaves core `c`. -/
def passed (s : State) (x : At) (t : Task) (c : Core) : State := (s.setCore x.core c).notePass x t

/-- Core `c` with what an access of core `n` has changed in state `u`: its data memory, its ports with stores outstanding and
its task's log; no access of the instruction that passed is left over. -/
def carried (u : State) (n : Nat) (c : Core) : Core :=
  { c with task := (u.core n).task, outstanding := (u.core n).outstanding, dmem := (u.core n).dmem, done := 0 }

/-- A value read as a signed number, clamped to the signed range of `w` bits, and whether it was clamped (R68). -/
def clampSigned (w : Nat) (z : Int) : BitVec w × Bool :=
  if z < (BitVec.intMin w).toInt then (BitVec.intMin w, true)
  else if (BitVec.intMax w).toInt < z then (BitVec.intMax w, true)
  else (BitVec.ofInt w z, false)

/-- A number clamped to the unsigned range of `w` bits, and whether it was clamped (R68). -/
def clampUnsigned (w : Nat) (z : Int) : BitVec w × Bool :=
  if z < 0 then (0, true) else if ((2 ^ w : Nat) : Int) ≤ z then (BitVec.allOnes w, true) else (BitVec.ofInt w z, false)

/-- A result that raises no flag. -/
def quiet {w : Nat} (v : BitVec w) : BitVec w × Nat := (v, 0)

/-- A clamped result, which raises `sat`. -/
def saturating {w : Nat} (r : BitVec w × Bool) : BitVec w × Nat := (r.1, if r.2 then 16 else 0)

/-- The scalar ALU operation `op`, in its register form `reg` and its immediate form `imm`, writes the value of `g` on the low
bits of its operands, extended to 64 bits, and raises the flags of `g` (R65, R68). -/
def AluLaw (op : Nat) (reg imm : At → Fields → Instr) (zeroExtend : Bool)
    (g : (w : Nat) → BitVec w → BitVec w → BitVec w × Nat) : Prop :=
  ∀ (s : State) (x : At) (f : Fields) (t : Task),
    let w := Tidy.width f.ew
    let c := s.core x.core
    let done := fun b : BitVec w =>
      let r := g w (BitVec.ofNat w (c.sreg f.a)) b
      let v : BitVec 64 := if zeroExtend then r.1.setWidth 64 else r.1.signExtend 64
      passed s x t (((past c).setS f.dst v.toNat).raiseFlags r.2)
    (Tidy.plain f = true → Runs s x (Tidy.word 0x01 op f) t → Machine.exec (reg x f) s = .next (done (BitVec.ofNat w (c.sreg f.b)))) ∧
    (Runs s x (Tidy.word 0x02 op f) t → Machine.exec (imm x f) s = .next (done (BitVec.ofInt w (Tidy.imm9 f))))

/-- A branch with the condition code `cond` goes to the instruction `off` away from it exactly where `p` holds (R65). -/
def BranchLaw (cond : Nat) (mk : At → Nat → Nat → Nat → Instr) (p : BitVec 64 → BitVec 64 → Bool) : Prop :=
  ∀ (s : State) (x : At) (a b off : Nat) (t : Task), Runs s x (Tidy.wordBr cond a b off) t →
    let c := s.core x.core
    Machine.exec (mk x a b off) s = .next (passed s x t (if p (BitVec.ofNat 64 (c.sreg a)) (BitVec.ofNat 64 (c.sreg b))
      then { past c with pc := (BitVec.ofNat 14 c.pc + (BitVec.ofNat 12 off).signExtend 14).toNat } else past c))

/-- An atomic `op` on an aligned, sound place of the executing cluster's store writes the value of `g`, if any, on the old
value, the operand and the compared register; the old value is in the low bits of `dst` (R80). -/
def AtomicLaw (op : Nat) (mk : At → Fields → Instr) (legal : Fields → Bool)
    (g : (w : Nat) → BitVec w → BitVec w → BitVec w → Option (BitVec w) × Nat) : Prop :=
  ∀ (s : State) (x : At) (f : Fields) (t : Task) (off : Nat),
    let n := 2 ^ (f.ew % 4)
    let w := 8 * n
    let c := s.core x.core
    let p := storeAddr (x.core / 4) off
    let old := s.readNat p n
    let r := g w (BitVec.ofNat w old) (BitVec.ofNat w (c.sreg f.b)) (BitVec.ofNat w (c.sreg f.dst))
    let u := s.logWord x.core off
    legal f = true → Tidy.plain f = true → 2 ≤ f.ew % 4 → Runs s x (Tidy.word 0x09 op f) t →
    coreAddr (c.sreg f.a) n = .store off → c.sreg f.a % n = 0 → s.anyPoison p n = false →
    ∃ v : BitVec 64, v.toNat % 2 ^ w = old ∧
      Machine.exec (mk x f) s = .next (
        let z := match r.1 with
          | some y => u.write p (leBytes n y.toNat)
          | none => u
        passed { z with free := s.free + 1 } x t (((carried u x.core (past c)).setS f.dst v.toNat).raiseFlags r.2))

/-- Element `e` of a vector register at width `w` (R62). -/
def element (w : Nat) (v : BitVec 2048) (e : Nat) : BitVec w := v.extractLsb' (w * e) w

/-- Where an active element holds `xs e` and raises its flags, `v` and `fl` are the destination and the flags that an instruction
writes under mask and `zero`: an inactive element keeps its value or becomes zero, and raises nothing (R66). -/
def Written (c : Core) (f : Fields) (w : Nat) (xs : Nat → BitVec w × Nat) (v : BitVec 2048) (fl : Nat) : Prop :=
  (∀ e, e < 2048 / w → element w v e =
    if (c.mreg f.mask).getLsbD e then (xs e).1 else if f.zero % 2 = 1 then 0 else element w (c.vreg f.dst) e) ∧
  ∀ k, fl.testBit k = true ↔ ∃ e, e < 2048 / w ∧ (c.mreg f.mask).getLsbD e = true ∧ (xs e).2.testBit k = true

/-- An instruction `mk x f` whose word is `word f` writes vector `dst` under mask and `zero` with the elements `xs`, `wo` bits wide,
and raises their flags; it changes nothing else of the core. -/
def VectorLaw (mk : At → Fields → Instr) (word : Fields → Nat) (legal : Fields → Bool) (wo : Fields → Nat)
    (xs : (f : Fields) → Core → Nat → BitVec (wo f) × Nat) : Prop :=
  ∀ (s : State) (x : At) (f : Fields) (t : Task), legal f = true → Runs s x (word f) t →
    ∃ v fl, Machine.exec (mk x f) s = .next (passed s x t (((past (s.core x.core)).setV f.dst v).raiseFlags fl)) ∧
      Written (s.core x.core) f (wo f) (xs f (s.core x.core)) v fl

/-- An elementwise operation of A, B and the old destination; in its scalar form B is a scalar register (R64, R65). -/
def ElementwiseLaw (cls op : Nat) (mk : At → Fields → Bool → Instr) (legal : Fields → Bool)
    (g : (w : Nat) → BitVec w → BitVec w → BitVec w → BitVec w × Nat) : Prop :=
  ∀ sc : Bool, VectorLaw (fun x f => mk x f sc) (Tidy.word cls (op + b2n sc * 32)) legal (fun f => Tidy.width f.ew) fun f c e =>
    let w := Tidy.width f.ew
    g w (element w (c.vreg f.a) e) (if sc then BitVec.ofNat w (c.sreg f.b) else element w (c.vreg f.b) e)
      (element w (c.vreg f.dst) e)

/-- A compare writes the bits of its destination mask under mask and `zero`, clears the bits above the elements, and raises the
flags of the active elements (R66). -/
def CompareLaw (op : Nat) (mk : At → Fields → Instr) (legal : Fields → Bool)
    (g : (w : Nat) → BitVec w → BitVec w → Bool × Nat) : Prop :=
  ∀ (s : State) (x : At) (f : Fields) (t : Task),
    let w := Tidy.width f.ew
    let c := s.core x.core
    let r := fun e => g w (element w (c.vreg f.a) e) (element w (c.vreg f.b) e)
    f.dst % 8 ≠ 0 → legal f = true → Runs s x (Tidy.word 0x12 op f) t →
    ∃ m fl, Machine.exec (mk x f) s = .next (passed s x t (((past c).setM f.dst m).raiseFlags fl)) ∧
      (∀ e, m.getLsbD e = (decide (e < 2048 / w) && if (c.mreg f.mask).getLsbD e then (r e).1
        else f.zero % 2 == 0 && (c.mreg f.dst).getLsbD e)) ∧
      ∀ k, fl.testBit k = true ↔ ∃ e, e < 2048 / w ∧ (c.mreg f.mask).getLsbD e = true ∧ (r e).2.testBit k = true

/-- The format of float elements of width `w` (R69). -/
def formatOf (w : Nat) : Fmt := if w = 16 then bf16 else fp32

/-- A float result of width `w` with the flags it raises (R70). -/
def floatResult (w : Nat) (r : Nat × FF) : BitVec w × Nat := (BitVec.ofNat w r.1, Tidy.flagBits r.2)

/-- Flag `nv` where an operand is a signalling NaN (R70). -/
def signalling (w : Nat) (xs : List (BitVec w)) : Nat := b2n (anySignalling (formatOf w) (xs.map BitVec.toNat))

/-- The active elements of A, in order. -/
def activeOf (c : Core) (f : Fields) (w : Nat) : List (BitVec w) :=
  ((List.range (2048 / w)).filter (c.mreg f.mask).getLsbD).map (element w (c.vreg f.a))

/-- A reduction writes `g` to element 0 of `dst` and zero to the others (R67). -/
def ReductionLaw (op : Nat) (mk : At → Fields → Instr) (legal : Fields → Bool)
    (g : (w : Nat) → Core → Fields → BitVec w × Nat) : Prop :=
  ∀ (s : State) (x : At) (f : Fields) (t : Task),
    let w := Tidy.width f.ew
    let r := g w (s.core x.core) f
    legal f = true → Runs s x (Tidy.word 0x15 op f) t →
      Machine.exec (mk x f) s = .next (passed s x t (((past (s.core x.core)).setV f.dst (r.1.setWidth 2048)).raiseFlags r.2))

/-- Element `j` of level `l` of the tree that adds neighbours, with the flags raised below it; inactive elements enter as zero
(R67). -/
def sumTree (c : Core) (f : Fields) (w : Nat) : Nat → Nat → Nat × Nat
  | 0, j => (if (c.mreg f.mask).getLsbD j then (element w (c.vreg f.a) j).toNat else 0, 0)
  | l + 1, j =>
    let a := sumTree c f w l (2 * j)
    let b := sumTree c f w l (2 * j + 1)
    let r := fadd (formatOf w) a.1 b.1
    (r.1, Tidy.flagBits r.2 ||| a.2 ||| b.2)

/-- The byte at address `a` of core `n` where it lies in the core's data memory or in the store of its cluster, else zero (R74). -/
def localByte (s : State) (n a : Nat) : BitVec 8 :=
  match coreAddr a 1 with
  | .data off => AMap.getD (s.core n).dmem off 0
  | .store off => s.memByte (storeAddr (n / 4) off)
  | _ => 0

/-- `n` bytes at `a` lie in the core's data memory, or soundly in its cluster's store. -/
def localOk (s : State) (core a n : Nat) : Prop :=
  (∃ off, coreAddr a n = .data off) ∨ ∃ off, coreAddr a n = .store off ∧ s.anyPoison (storeAddr (core / 4) off) n = false

/-- In `u` core `n` has stopped its task `t`, and slice `y` of its op keeps the status and cause (R85). -/
def TaskStopped (s u : State) (n : Nat) (t : Task) (y : Slice) (status cause : Nat) : Prop :=
  (u.core n).task = none ∧ ∀ next fl, y.work = .tc next fl none →
    u.slice? t.o t.k = some { y with work := .tc next (fl ||| (s.core n).flags) (some (t.index, status, cause)) }

/-! ### Ops -/

/-- Op `o` has the opcode `code` and may be dispatched: once the ops that have become ready are numbered it is `x`, its dependencies
and waits are met, it is first in line, and its context's space has a tag; `t` is the state in which it has it (R258, R266, R208). -/
def MayDispatch (s t : State) (o : OpRef) (x : Op) (code : Nat) : Prop :=
  s.running = true ∧ (∃ y, s.op? o = some y ∧ y.word = x.word) ∧ OpHdr.opcode x.word = code ∧
    let u := s.numberReady
    u.op? o = some x ∧ u.ready o = true ∧ u.firstInLine o = true ∧ u.headerFail o = none ∧ u.acquireTag o.ctx = (t, true)

/-! ### The fabric -/

/-- Frame `f` of a type arrives on a port that is up, is well formed and is for this device, which holds its address (R369, R370, R379). -/
def Arrives (s : State) (port : Nat) (f : Frame) (type : Nat) : Prop :=
  s.running = true ∧ (s.sharelPort port).up = true ∧ State.frameOk f type = true ∧ f.dst = s.fabric.addr ∧ s.fabric.held = true ∧
    f.dstCheck = leNat (identityHash.take 2)

/-- The frame is the next one of its stream, none of which the port still holds; `t` is the state in which it is delivered, its
acknowledgement taken, and `r` the receiving half of the stream (R374, R375). -/
def InOrder (s t : State) (port : Nat) (f : Frame) (type : Nat) (r : RecvStream) : Prop :=
  let u := (s.addObj 0x8052 port 1).acked f.src f.cls f.ack
  Arrives s port f type ∧ s.standsBehind port f = false ∧ u.recvStream? (streamKey f.src f.cls) = some r ∧ (f.opens = true → r.opened = f.seq) ∧ f.seq = r.expect ∧
    t = u.setRecv (streamKey f.src f.cls) r

/-- A Sharel port without what a pause keeps at its egress. -/
def Bare (x : SharelPort) : SharelPort := { x with waiting := [] }

/-- Class 1, in which HELLO, CLAIM and LSA go (R372), is not paused at a port. -/
def ControlOpen (s : State) (p : Nat) : Bool := !(s.sharelPort p).paused.contains (s.pcpOf 1)

/-- From `s` to `t` the frame `m p` has left every port `p` that is up, or waits at its egress where class 1 is paused there (R373); memory
is unchanged. -/
def FloodedOn (s : State) (m : Nat → Control) (t : State) : Prop :=
  t.out = s.out ++ (s.upPorts.filter (ControlOpen s)).map (fun p => .control p 0x03D7E1000001 (s.pcpOf 1) (s.obj 0x8012 1) (m p)) ∧
    (∀ p, t.sharelPort p = if s.upPorts.contains p && !ControlOpen s p then
      { s.sharelPort p with waiting := (s.sharelPort p).waiting ++ [m p] } else s.sharelPort p) ∧ t.mem = s.mem

/-- From `s` to `t` frame `f` has been put into the ingress buffer of a port, and PFC follows: a priority of `pfc_mask` is paused exactly while
its frames there exceed its threshold, and each change has been sent and counted (R373, R393). -/
def HeldAt (port : Nat) (f : Frame) (s t : State) : Prop :=
  let x := s.sharelPort port
  let y := t.sharelPort port
  let changed := (List.range 8).filter fun p => x.xoff.contains p != y.xoff.contains p
  y.ingress = x.ingress ++ [{ f := f }] ∧
    (∀ p, p < 8 → y.xoff.contains p = (flag (s.obj 0x8011 2) p && t.ingressUse port p != 0 &&
      decide (Config.pfcThreshold port p < t.ingressUse port p))) ∧
    t.out = s.out ++ changed.map (fun p => .pfc port p (y.xoff.contains p)) ∧
    t.obj 0x8054 port = (if changed = [] then s.obj 0x8054 port else (s.obj 0x8054 port + changed.length) % 2 ^ 64) ∧
    (∀ q, q ≠ port → t.sharelPort q = s.sharelPort q) ∧ t.mem = s.mem ∧ t.ctxs = s.ctxs ∧ t.fabric.recv = s.fabric.recv

/-- `s` with frame `f` counted as delivered in its stream. -/
def delivered (s : State) (f : Frame) (r : RecvStream) : State :=
  s.setRecv (streamKey f.src f.cls) { r with expect := (r.expect + 1) % 2 ^ 32, sinceAck := r.sinceAck + 1, gapSent := false }

end Sys2Proof
end

