-- ==== Sys2Proof/Certificates/Slice0/Obligations.lean ====
section
/-! DEFINITION. The statements for the provers. -/

open Sys2Proof Sys2Proof.Machine

/-- A step runs the command at the front of the queue. For every command and state, a step with the command at the front of
the queue answers what the command answers on the state with the rest of the queue. -/
def Obligations.StepRunsFrontCommand : Prop :=
  ∀ (i : Instr) (rest : List Instr) (s : State),
    step { s with pending := i :: rest } = exec i { s with pending := rest }

/-- A step with no command waiting idles, but for what is held inside. With an empty queue a step answers what the device
does of itself: a held host command, a waiting mailbox request, a store of the posted word path or a frame held at a Sharel
port goes on. Where none of these is there, or the device does not run, it answers the same state. What a step does without
a command is the model's choice (log entry 4): no command stands for a tick. -/
def Obligations.StepIdlesOnEmptyQueue : Prop :=
  ∀ s : State, s.pending = [] →
    step s = .next s.tick ∧
      ((s.running = false ∨ (s.path = [] ∧ s.trans.hostHeld = [] ∧ (∀ x ∈ s.mbox, x.2.waiting = none) ∧
        ∀ p, (s.sharelPort p).ingress = [] ∧ (s.sharelPort p).waiting = [])) → step s = .next s)

/-- Every command answers a next state. No command faults and none is refused, whatever its operands and whatever the state.
-/
def Obligations.EveryCommandAnswers : Prop :=
  ∀ (i : Instr) (s : State), ∃ t, exec i s = .next t

/-- A step takes one command off the queue and adds none. Whatever command runs, the queue after a step is the queue before
it without its front command. -/
def Obligations.StepTakesOneCommand : Prop :=
  ∀ s t : State, step s = .next t → t.pending = s.pending.tail

/-- Device memory keeps its canonical form over every step. From every state whose device memory lists strictly rising
addresses and no byte equal to zero, a step leads to such a state again, whatever command it runs: equal memories stay equal
data. -/
def Obligations.MemoryStaysCanonical : Prop :=
  ∀ s t : State, Memory.wf s.mem = true → step s = .next t → Memory.wf t.mem = true

/-- What is fused stays fused over every step. Whatever command a step runs: a key slot that holds a key keeps that key, a
revoked slot stays revoked, the rollback floor does not fall, and the owner banks enrolled so far stay the first ones. -/
def Obligations.FusesOnlyGain : Prop :=
  ∀ s t : State, step s = .next t →
    (∀ k v, AMap.get? s.fuses.keySlots k = some v → AMap.get? t.fuses.keySlots k = some v) ∧
    (∀ k, k ∈ s.fuses.revoked → k ∈ t.fuses.revoked) ∧ s.fuses.floor ≤ t.fuses.floor ∧ s.fuses.owners <+: t.fuses.owners

/-- What the device has sent stays sent. Whatever command a step runs, everything sent to the outside so far is still the
beginning of what has been sent, and arbitrary values are drawn in order: the count of draws does not fall. -/
def Obligations.SentStaysSent : Prop :=
  ∀ s t : State, step s = .next t → s.out <+: t.out ∧ s.free ≤ t.free

/-- On a device that does not run, only supplies and reset pins act. While the rails are off, DEV_RESET_N is low, the reset
stretch runs or the clocks are stopped, every command but POWER_ON, BOARD_RESET, RESET_STRETCH_END, DEV_RESET_N_RELEASE,
RAIL_UNDERVOLTAGE, THERM_TRIP and POWER_DOWN leaves the whole state as it is. -/
def Obligations.OnlyTheBoardActsOnAStoppedDevice : Prop :=
  ∀ (i : Instr) (s : State), s.running = false → BoardEvent i = false → exec i s = .next s

/-- The state right after power-on meets the invariants. Right after power-on the memory has its canonical form, no queue
has an entry in progress, no reply is kept, and THERM_TRIP_N is not asserted. -/
def Obligations.ResetMeetsInvariants : Prop :=
  Memory.wf State.reset.mem = true ∧ (∀ n, (State.reset.ctx n).entries = []) ∧ State.reset.amiso.kept = [] ∧ State.reset.board.thermTrip = false

/-- The state right after power-on. Right after power-on the rails are on and DEV_RESET_N is low, so the device does not
run; no command waits and nothing has been sent; memory lists no byte and keeps its canonical form; no atom is poisoned;
every context is closed, every fence zero and unpoisoned; no partition is in service; logical clusters 0 to 63 are served by
physical 0 to 63; every link is down; the firmware is in the ROM stage and the rollback floor is 0. Empty fuses but for key
slot 0 are the model's choice (log entry 9). -/
def Obligations.ResetState : Prop :=
  State.reset.running = false ∧ State.reset.board.powered = true ∧ State.reset.board.resetN = false ∧
    State.reset.pending = [] ∧ State.reset.out = [] ∧ State.reset.mem = [] ∧ Memory.wf State.reset.mem = true ∧
    State.reset.poison = [] ∧ (∀ n, (State.reset.ctx n).phase = .closed) ∧
    (∀ f, State.reset.fence f = 0 ∧ State.reset.fencePoisoned f = false) ∧ (∀ p, State.reset.partValid p = false) ∧
    (∀ c, c < 64 → State.reset.physOf c = c) ∧ (∀ p, (State.reset.hostPort p).link = 0) ∧
    (∀ p, (State.reset.sharelPort p).up = false) ∧ State.reset.fw.stage = 0 ∧ State.reset.fuses.floor = 0

/-- What the supplies and DEV_RESET_N do. POWER_ON clears all of device memory, contexts, fences and queues, loads the maps
from the fuses, with a good cluster in the place of one that the fuses mark bad while there is one, keeps the fuses, and
leaves DEV_RESET_N low; RAIL_UNDERVOLTAGE does the same on a device out of reset and stops the clocks; BOARD_RESET clears
memory too, keeps the fuses, reports kind 1 in last_reset and starts the stretch; RESET_STRETCH_END ends the stretch and,
while DEV_RESET_N is low, starts nothing; DEV_RESET_N_RELEASE during the stretch samples the straps into the I3C address and
starts nothing yet; THERM_TRIP stops the clocks and keeps everything else; POWER_DOWN leaves the device without power. What
waits in the model's command queue is kept throughout. -/
def Obligations.SupplyEventsResetTheDevice : Prop :=
  (∀ straps s, Completes (.powerOn straps) s fun t => t.mem = [] ∧ t.poison = [] ∧ t.far = [] ∧ t.ctxs = [] ∧ t.fences = [] ∧
    t.graphs = [] ∧ t.fuses = s.fuses ∧ t.lanes = s.fuses.lanes ∧ t.obj 0x2000 2 = 0 ∧ t.running = false ∧
    t.board = { powered := true, straps := straps % 4 } ∧ t.pending = s.pending ∧
    let fused := fun (c : Nat) => AMap.getD s.fuses.maps (objKey 0x5002 c) c
    (∀ c, c < 64 → s.fuses.badClusters.contains (fused c) = false → t.physOf c = fused c) ∧
    (∀ c, c < 64 → s.fuses.badClusters.contains (fused c) = true → s.fuses.badClusters.contains (t.physOf c) = false ∨
      ∀ p, p < 66 → s.fuses.badClusters.contains p = true ∨ ∃ d, d < 64 ∧ t.physOf d = p)) ∧
  (∀ s, s.board.powered = true → s.board.resetN = true → s.board.clocksStopped = false →
    Completes .railUndervoltage s fun t => t.mem = [] ∧ t.poison = [] ∧ t.ctxs = [] ∧ t.fences = [] ∧ t.fuses = s.fuses ∧
      t.lanes = s.fuses.lanes ∧ t.obj 0x2000 2 = 0 ∧ t.board.clocksStopped = true ∧ t.running = false ∧ t.pending = s.pending) ∧
  (∀ s, s.board.powered = true → s.board.resetN = true → s.board.thermTrip = false → s.board.clocksStopped = false →
    Completes .boardReset s fun t => t.mem = [] ∧ t.poison = [] ∧ t.far = [] ∧ t.ctxs = [] ∧ t.fences = [] ∧ t.fuses = s.fuses ∧
      t.lanes = s.lanes ∧ t.obj 0x2000 2 = 1 ∧ t.board.resetN = false ∧ t.board.stretching = true ∧ t.running = false ∧
      t.pending = s.pending) ∧
  (∀ s, s.board.stretching = true → s.board.resetN = false →
    exec .resetStretchEnd s = .next { s with board := { s.board with stretching := false } }) ∧
  (∀ straps s, s.board.powered = true → s.board.resetN = false → s.board.clocksStopped = false → s.board.stretching = true →
    Completes (.devResetNRelease straps) s fun t => t.board = { s.board with resetN := true, straps := straps % 4 } ∧
      t.obj 0x1040 1 = 0x2C + straps % 4 ∧ t.mem = s.mem ∧ t.fuses = s.fuses ∧
      ∀ i j, objKey i j ≠ objKey 0x1040 1 → t.obj i j = s.obj i j) ∧
  (∀ s, s.board.powered = true →
    exec .thermTrip s = .next { s with board := { s.board with thermTrip := true, clocksStopped := true } }) ∧
  (∀ s, s.board.resetN = false ∨ s.board.thermTrip = true →
    Completes .powerDown s fun t => t.mem = [] ∧ t.ctxs = [] ∧ t.fuses = s.fuses ∧ t.board = { powered := false } ∧
      t.running = false ∧ t.pending = s.pending)

/-- Resets that were asked for, self-tests, training and the management port. DEVICE_RESET_BEGIN carries out the warm reset
that was answered: contexts and fences end, memory is cleared with kind 2 and kept outside the cluster stores with kind 3,
fuses and command queue stay, and the device reads as in reset. CLUSTER_SELF_TEST_COMPLETE of a spare cluster marks it
tested or bad and changes nothing else; of a starting cluster in use that passes, it makes the cluster ready and its store
zero. MEMORY_TRAINING_COMPLETE of a starting layer or stack makes it ready, or failed where every unit of it failed, and
changes nothing but dictionary objects and attention. ROUTER_ADVERTISEMENT takes the MTU, 1,280 at least, and the prefix;
I3C_DYNAMIC_ADDRESS takes the address; MCTP_CONTROL_MESSAGE answers on its carrier, and command 1 takes the endpoint ID (the
form of the answers is the model's choice, log entry 19). -/
def Obligations.BringUpEvents : Prop :=
  (∀ s k, s.running = true → s.board.warm = some k → Completes .deviceResetBegin s fun t =>
    t.ctxs = [] ∧ t.fences = [] ∧ t.graphs = [] ∧ t.fuses = s.fuses ∧ t.pending = s.pending ∧ t.out = s.out ∧
      t.board.inReset = decide (1 ≤ k) ∧ t.board.warm = none ∧
      t.mem = (if k = 3 then s.mem.filter (fun c => State.keptAddr c.1) else [])) ∧
  (∀ s p pass, s.running = true → s.logicalOf p = none → s.sparing.badClusters.contains p = false →
    exec (.clusterSelfTestComplete p pass) s = .next { s with sparing := if pass
      then { s.sparing with tested := State.insertNat p s.sparing.tested }
      else { s.sparing with badClusters := State.insertNat p s.sparing.badClusters } }) ∧
  (∀ s p c, s.running = true → s.logicalOf p = some c → s.obj 0x2002 c = 1 →
    Completes (.clusterSelfTestComplete p true) s fun t => t.obj 0x2002 c = 2 ∧
      (∀ a, storeAddr c 0 ≤ a → a < storeAddr c 0 + 0x300000 → t.memByte a = 0) ∧
      (∀ a, a < storeAddr c 0 ∨ storeAddr c 0 + 0x300000 ≤ a → t.memByte a = s.memByte a)) ∧
  (∀ s unit failed, s.running = true → unit ≤ 1 → s.obj 0x2003 unit = 1 →
    Completes (.memoryTrainingComplete unit failed) s fun t =>
      t.obj 0x2003 unit = (if (List.range 64).all failed.contains then 3 else 2) ∧ Noted s t) ∧
  (∀ s unit failed, s.running = true → 2 ≤ unit → unit ≤ 7 → s.obj 0x2004 (unit - 2) = 1 →
    Completes (.memoryTrainingComplete unit failed) s fun t =>
      t.obj 0x2004 (unit - 2) = (if (List.range 4).all failed.contains then 3 else 2) ∧ Noted s t) ∧
  (∀ s mtu pre, s.running = true → exec (.routerAdvertisement mtu pre) s =
    .next { s with board := { s.board with mtu := max 1280 mtu, prefix64 := pre % 2 ^ 64 } }) ∧
  (∀ s a, s.running = true → exec (.i3cDynamicAddress a) s = .next { s with board := { s.board with i3cDynamic := a } }) ∧
  (∀ s p c arg, s.mgmtUp = true → State.mctpCarrier p = some c → 0 < arg → arg < 255 →
    exec (.mctpControlMessage p 1 arg) s =
      .next (({ s with board := { s.board with eids := AMap.put 0 s.board.eids c arg } }).send
        (.mctp p ([1, 0, 0] ++ leBytes 1 arg ++ [0])))) ∧
  (∀ s p c arg, s.mgmtUp = true → State.mctpCarrier p = some c → exec (.mctpControlMessage p 2 arg) s =
    .next (s.send (.mctp p ([2, 0] ++ leBytes 1 (AMap.getD s.board.eids c 0) ++ [0, 0]))))

/-- Writes that ask for a reset or a restart. A permitted write of warm_reset is answered OK and makes the reset due,
changing nothing else but attention; one of cluster_reset, on a cluster that is neither moved nor spared, is answered OK,
sets the cluster resetting and its readiness to starting, and leaves its store zero; one of mgmt_restart is answered OK, and
the management core starts anew. WATCHDOG_EXPIRY restarts it too while an image runs. -/
def Obligations.ResetRequests : Prop :=
  (∀ s r, Permitted s r 0x2010 1 [0] → Completes (.warmResetRetrained r) s fun t =>
    Noted (({ s with board := { s.board with warm := some 2 } } : State).send (itemAnswer r 0x2010 1 0 [])) t) ∧
  (∀ s r, Permitted s r 0x2010 1 [1] → Completes (.warmResetRetained r) s fun t =>
    Noted (({ s with board := { s.board with warm := some 3 } } : State).send (itemAnswer r 0x2010 1 0 [])) t) ∧
  (∀ s r c, Permitted s r 0x2010 2 (leBytes 1 c) → c < 64 → (s.cluster c).moving = false → (s.cluster c).mode ≠ .handover →
    (s.sparing.active.any fun a => a.1 == c) = false → Completes (.clusterReset r c) s fun t =>
      (t.cluster c).mode = .resetting ∧ t.obj 0x2002 c = 1 ∧ itemAnswer r 0x2010 2 0 [] ∈ t.out ∧
      ∀ a, storeAddr c 0 ≤ a → a < storeAddr c 0 + 0x300000 → t.memByte a = 0) ∧
  (∀ s r, Permitted s r 0x2010 3 [1] → Completes (.mgmtRestart r) s fun t =>
    t.fw.alive = false ∧ itemAnswer r 0x2010 3 0 [] ∈ t.out ∧ t.board.restartDue = false ∧ t.fuses = s.fuses) ∧
  (∀ s, s.running = true → 1 ≤ s.fw.stage → Completes .watchdogExpiry s fun t =>
    t.fw.alive = false ∧ t.fuses = s.fuses ∧ t.out = s.out ∧ t.ctxs = s.ctxs)

/-- Staging, activating and attesting firmware. While an image runs and no activation is in progress, a permitted whole
image written to fw_stage is stored in the staging region and is staged exactly where R449 accepts it, with the code of its
rejection otherwise, and the answer says which; fw_activate with the version of the staged image starts the activation where
the image is acceptable and the record formats overlap. FW_QUIESCENT_POINT at a quiescent point hands over to the other
region; FW_QUIESCE_TIMEOUT takes the activation back with code 8; FW_ALIVE_TIMEOUT ends the hand-over; IMAGE_REPORTS_ALIVE
ends it and a device-wide reset (stated where no request waits); ROM_ANNOUNCE sends the announcement in the ROM stage;
ATTEST_NONCE makes a report to be signed, and ATTEST_SIGN_COMPLETE signs it with commit_seq as it is then. -/
def Obligations.FirmwareRequests : Prop :=
  (∀ s r img, Permitted s r 0xC020 1 img → s.fw.stage ≠ 4 → (s.amiso.bulks.any fun b => b.index == 0xC020) = false →
    Completes (.fwStage r img) s fun t => t.regionImage (1 - s.fw.region) = img ∧ t.fw.region = s.fw.region ∧
      t.fw.staged = (s.acceptCode img == 0) ∧ t.fw.stage = (if s.acceptCode img = 0 then 3 else 1) ∧
      t.fw.result = s.acceptCode img ∧
      itemAnswer r 0xC020 1 (if s.acceptCode img = 0 then 0 else 0x0206) [] ∈ t.out ∧ t.fuses = s.fuses) ∧
  (∀ s r v, Permitted s r 0xC020 2 (leBytes 4 v) → v < 2 ^ 32 → s.fw.stage ≠ 4 → s.fw.staged = true →
    v = Image.version s.stagedHead → Completes (.fwActivate r v) s fun t =>
      (s.acceptCode (s.regionImage (1 - s.fw.region)) = 0 → Image.recMin s.stagedHead ≤ Image.recMax s.runningHead →
        Image.recMax s.runningHead ≤ Image.recMax s.stagedHead →
          t.fw = { s.fw with stage := 4 } ∧ itemAnswer r 0xC020 2 0 [] ∈ t.out) ∧
      (s.acceptCode (s.regionImage (1 - s.fw.region)) ≠ 0 →
        t.fw = { s.fw with result := s.acceptCode (s.regionImage (1 - s.fw.region)) } ∧
          itemAnswer r 0xC020 2 0x0206 [] ∈ t.out)) ∧
  (∀ s, s.mgmtUp = true → s.fw.stage = 4 → s.quiescent = true → Completes .fwQuiescentPoint s fun t =>
    t.fw.region = 1 - s.fw.region ∧ t.fw.alive = false ∧ t.fw.handover = true ∧ t.fw.staged = false ∧
      t.fw.recFormat = Image.recMax s.runningHead ∧ t.amiso = s.amiso ∧ t.ctxs = s.ctxs) ∧
  (∀ s, s.mgmtUp = true → s.fw.stage = 4 →
    exec .fwQuiesceTimeout s = .next { s with fw := { s.fw with stage := 3, result := 8 } }) ∧
  (∀ s, s.running = true → s.fw.handover = true → s.fw.alive = false → Completes .fwAliveTimeout s fun t =>
    t.fw.handover = false ∧ t.fw.alive = false ∧ t.fuses = s.fuses) ∧
  (∀ s, s.running = true → s.fw.stage ≠ 0 → s.fw.alive = false → s.amiso.held = [] → s.amiso.commits = [] →
    Completes .imageReportsAlive s fun t => t.fw.alive = true ∧ t.fw.handover = false ∧ t.board.inReset = false ∧
      t.fw.recFormat = Image.recMax s.runningHead) ∧
  (∀ s, s.running = true → s.fw.stage = 0 → exec .romAnnounce s = .next (s.send (.announce s.announcement))) ∧
  (∀ s r nonce, Permitted s r 0xC050 3 nonce → Completes (.attestNonce r nonce) s fun t =>
    (t.amiso.reports.find? fun x => x.1 == State.partyOf r) = some (State.partyOf r, s.reportBytes nonce, none) ∧
      t.out = s.out ++ [itemAnswer r 0xC050 3 0 []] ∧ t.fuses = s.fuses ∧ t.fw = s.fw) ∧
  (∀ s r b, s.mgmtUp = true → (State.partyOf r, b, none) ∈ s.amiso.reports → Completes (.attestSignComplete r) s fun t =>
    let signed := b.take 72 ++ leBytes 4 (s.obj 0x1030 1) ++ b.drop 76
    (State.partyOf r, signed, some (Config.identitySign signed)) ∈ t.amiso.reports ∧ t.objs = s.objs ∧ t.fw = s.fw)

/-- Writes that fuse, and operator keys. A permitted write of key_provision to a blank slot 1 to 3 fuses its key; one of
key_revoke of a slot that is not the running image's, while another provisioned slot is unrevoked, revokes it; one of
rollback_raise above the floor, and not above the security version number of the running image, raises the floor; one of
owner_enroll fuses the next of four owner banks; each is answered OK and changes no other fuse. A permitted write of op_key
with a role of at most 2 and zero reserved bytes sets the slot's role and key and leaves the fuses as they are. -/
def Obligations.FuseRequests : Prop :=
  (∀ s r v slot, Permitted s r 0xC002 3 v → slot = leNat (v.take 1) → 1 ≤ slot → slot ≤ 3 →
    AMap.get? s.fuses.keySlots slot = none → Completes (.keyProvision r v) s fun t =>
      t.fuses = { s.fuses with keySlots := AMap.set s.fuses.keySlots slot (v.drop 1) } ∧
        t.out = s.out ++ [itemAnswer r 0xC002 3 0 []] ∧ t.fw = s.fw ∧ t.mem = s.mem) ∧
  (∀ s r k n, Permitted s r 0xC002 4 (leBytes 1 k) → k < 4 → k ≠ bits s.runningHead 47 40 → n < 4 → n ≠ k →
    (AMap.get? s.fuses.keySlots n).isSome = true → s.fuses.revoked.contains n = false → Completes (.keyRevoke r k) s fun t =>
      t.fuses = { s.fuses with revoked := State.insertNat k s.fuses.revoked } ∧
        t.out = s.out ++ [itemAnswer r 0xC002 4 0 []] ∧ t.fw = s.fw ∧ t.mem = s.mem) ∧
  (∀ s r v, Permitted s r 0xC002 5 (leBytes 1 v) → v < 256 → s.fuses.floor < v → v ≤ Image.svn s.runningHead →
    Completes (.rollbackRaise r v) s fun t => t.fuses = { s.fuses with floor := v } ∧
      t.out = s.out ++ [itemAnswer r 0xC002 5 0 []] ∧ t.fw = s.fw ∧ t.mem = s.mem) ∧
  (∀ s r h, Permitted s r 0xC012 3 h → s.fuses.owners.length < 4 → Completes (.ownerEnroll r h) s fun t =>
    t.fuses = { s.fuses with owners := s.fuses.owners ++ [h] } ∧ t.out = s.out ++ [itemAnswer r 0xC012 3 0 []] ∧
      t.fw = s.fw ∧ t.mem = s.mem) ∧
  (∀ s r slot v, Permitted s r 0xC011 slot v → slot < 8 → leNat (v.take 1) ≤ 2 → leNat ((v.drop 1).take 7) = 0 →
    Completes (.opKey r slot v) s fun t =>
      AMap.getD t.amiso.opKeys slot (0, List.replicate 32 0) = (leNat (v.take 1), (v.drop 8).take 32) ∧
        t.out = s.out ++ [itemAnswer r 0xC011 slot 0 []] ∧ t.fuses = s.fuses ∧ t.fw = s.fw ∧ t.mem = s.mem)

/-- Scalar ALU instructions. Each of the nineteen ALU instructions, with a register or an immediate as its second operand,
whose word stands at the program counter of an executing core, computes on the low bits of its operands, writes the result
extended to 64 bits (zero-extended for SLTU, MINU and MAXU) to its destination, which s0 discards, moves the program counter
on, and changes nothing else but what a retried instruction or a moved task notes; ADDS and SUBS raise sat where they clamp.
-/
def Obligations.ScalarArithmetic : Prop :=
  AluLaw 0x00 .add .addImm false (fun _ a b => quiet (a + b)) ∧
  AluLaw 0x01 .sub .subImm false (fun _ a b => quiet (a - b)) ∧
  AluLaw 0x02 .mul .mulImm false (fun _ a b => quiet (a * b)) ∧
  AluLaw 0x03 .mulh .mulhImm false (fun w a b => quiet (BitVec.ofInt w (a.toInt * b.toInt / (2 ^ w : Nat)))) ∧
  AluLaw 0x04 .mulhu .mulhuImm false (fun w a b => quiet (BitVec.ofNat w (a.toNat * b.toNat / 2 ^ w))) ∧
  AluLaw 0x05 .and .andImm false (fun _ a b => quiet (a &&& b)) ∧
  AluLaw 0x06 .or .orImm false (fun _ a b => quiet (a ||| b)) ∧
  AluLaw 0x07 .xor .xorImm false (fun _ a b => quiet (a ^^^ b)) ∧
  AluLaw 0x08 .sll .sllImm false (fun w a b => quiet (a <<< (b.toNat % w))) ∧
  AluLaw 0x09 .srl .srlImm false (fun w a b => quiet (a >>> (b.toNat % w))) ∧
  AluLaw 0x0A .sra .sraImm false (fun w a b => quiet (a.sshiftRight (b.toNat % w))) ∧
  AluLaw 0x0B .slt .sltImm false (fun w a b => quiet (if a.slt b then 1#w else 0#w)) ∧
  AluLaw 0x0C .sltu .sltuImm true (fun w a b => quiet (if a < b then 1#w else 0#w)) ∧
  AluLaw 0x0D .min .minImm false (fun _ a b => quiet (if a.slt b then a else b)) ∧
  AluLaw 0x0E .max .maxImm false (fun _ a b => quiet (if a.slt b then b else a)) ∧
  AluLaw 0x0F .minu .minuImm true (fun _ a b => quiet (if a < b then a else b)) ∧
  AluLaw 0x10 .maxu .maxuImm true (fun _ a b => quiet (if a < b then b else a)) ∧
  AluLaw 0x11 .adds .addsImm false (fun w a b => saturating (clampSigned w (a.toInt + b.toInt))) ∧
  AluLaw 0x12 .subs .subsImm false (fun w a b => saturating (clampSigned w (a.toInt - b.toInt)))

/-- Constants, branches, jumps and system instructions of a core. On an executing core whose program counter names the
instruction's word: LDK and SHK write their constant; a branch goes to the instruction its offset names exactly where its
comparison of two registers holds; JAL and JR write the return address and jump, JR to the low 14 bits of its register (the
model's reading, log entry 23); NOP does nothing; FLAGS.R reads the sticky flags and FLAGS.C clears them; CYCLE writes a
free value; TLOAD loads a lookup slot from 1,032 bytes of data memory; FENCE.DEV passes once the core's stores to peers and
CXL are acknowledged; FENCE.HOST, once its stores to host ports have left the posted-write path, reads back each host port
with stores outstanding, and FENCE.ALL does both; no later store joins one made before the fence. HALT does both and ends
the task, whose flags join its slice's. -/
def Obligations.ScalarControl : Prop :=
  (∀ (s : State) (x : At) (dst imm : Nat) (t : Task), let c := s.core x.core
    (Runs s x (Tidy.wordK 0x03 dst imm) t → exec (.ldk x dst imm) s = .next (passed s x t ((past c).setS dst (imm % 2 ^ 22)))) ∧
    (Runs s x (Tidy.wordK 0x04 dst imm) t → exec (.shk x dst imm) s = .next (passed s x t ((past c).setS dst
      ((BitVec.ofNat 64 (c.sreg dst) <<< 22) ||| BitVec.ofNat 64 (imm % 2 ^ 22)).toNat))) ∧
    (Runs s x (Tidy.wordK 0x06 dst imm) t → exec (.jal x dst imm) s = .next (passed s x t { ((past c).setS dst (past c).pc) with
      pc := (BitVec.ofNat 14 c.pc + (BitVec.ofNat 22 imm).setWidth 14).toNat }))) ∧
  BranchLaw 0 .brEq (fun a b => a == b) ∧ BranchLaw 1 .brNe (fun a b => a != b) ∧ BranchLaw 2 .brLt (fun a b => a.slt b) ∧
  BranchLaw 3 .brGe (fun a b => b.sle a) ∧ BranchLaw 4 .brLtu (fun a b => a.ult b) ∧ BranchLaw 5 .brGeu (fun a b => b.ule a) ∧
  (∀ (s : State) (x : At) (f : Fields) (t : Task), Tidy.sysOk f = true → let c := s.core x.core
    let asked : State → State := fun u => (c.outstanding.foldl (fun u p => u.send (.readBack p.1 (s.reqFn t.o.ctx p.1) p.2)) u)
    (Runs s x (Tidy.word 0 0x00 f) t → exec (.nop x f) s = .next (passed s x t (past c))) ∧
    (Runs s x (Tidy.word 0 0x05 f) t → exec (.jr x f) s = .next (passed s x t
      { ((past c).setS f.dst (past c).pc) with pc := c.sreg f.a % 16384 })) ∧
    (Runs s x (Tidy.word 0 0x08 f) t → exec (.flagsR x f) s = .next (passed s x t ((past c).setS f.dst c.flags))) ∧
    (Runs s x (Tidy.word 0 0x09 f) t → exec (.flagsC x f) s = .next (passed s x t { past c with flags := 0 })) ∧
    (Runs s x (Tidy.word 0 0x0A f) t → exec (.cycle x f) s = .next (passed { s with free := s.free + 1 } x t
      ((past c).setS f.dst (Config.freeValue s.free)))) ∧
    (∀ off, Runs s x (Tidy.word 0 0x0B f) t → c.sreg f.a = 2 ^ 63 + off → off + 1032 ≤ 0x10000 → exec (.tload x f) s = .next (passed s x t
      { past c with tables := AMap.put [] c.tables (f.b % 4) ((List.range 258).map fun i =>
          leNat ((List.range 4).map fun j => AMap.getD c.dmem (off + 4 * i + j) 0)) })) ∧
    (Runs s x (Tidy.word 0 0x02 f) t → s.peersDone x.core = true →
      exec (.fenceDev x f) s = .next (passed (s.closePath x.core) x t (past c))) ∧
    (Runs s x (Tidy.word 0 0x03 f) t → s.hostDone x.core = true →
      exec (.fenceHost x f) s = .next (passed ((asked s).closePath x.core) x t { past c with outstanding := [] })) ∧
    (Runs s x (Tidy.word 0 0x04 f) t → s.peersDone x.core = true → s.hostDone x.core = true →
      exec (.fenceAll x f) s = .next (passed ((asked (s.closePath x.core)).closePath x.core) x t { past c with outstanding := [] })) ∧
    (Runs s x (Tidy.word 0 0x01 f) t → s.peersDone x.core = true → s.hostDone x.core = true → ∀ y next fl stop, s.slice? t.o t.k = some y →
      y.work = .tc next fl stop → Completes (.halt x f) s fun u =>
        u.core x.core = { past c with outstanding := [], task := none } ∧ u.mem = s.mem ∧ u.out = (asked s).out ∧
        (∀ n, n ≠ x.core → u.core n = s.core n) ∧
        u.slice? t.o t.k = some { y with work := .tc next (fl ||| c.flags) stop }))

/-- Scalar loads and stores of a core. A load or store whose word stands at the program counter of an executing core, at a
naturally aligned address, makes one access of the core; where that access answers, LD and LD.ACQ write the value sign-
extended, LDU zero-extended, and ST and STORE.REL, the latter after what it waits for, have stored the low bytes of their
data register. STORE.REL waits for the core's stores to peers and CXL; in read-back mode it does what FENCE.HOST does where
its address is on a host port. Where it lies in the windows of the core, an access answers: a load the bytes there, and a
store changes those bytes alone. A misaligned access stops the task with cause 0x02. -/
def Obligations.ScalarMemory : Prop :=
  (∀ (s u : State) (x : At) (f : Fields) (t : Task) (v : Nat),
    let c := s.core x.core
    let n := 2 ^ (f.ew % 4)
    let a := memAddr c f
    a % n = 0 → (coreLoad x.core a n).run s = .ok v u →
    (Runs s x (Tidy.word 8 0 f) t → exec (.ld x f) s =
      .next (passed u x t ((carried u x.core (past c)).setS f.dst ((BitVec.ofNat (8 * n) v).signExtend 64).toNat))) ∧
    (Runs s x (Tidy.word 8 4 f) t → exec (.ldAcq x f) s =
      .next (passed u x t ((carried u x.core (past c)).setS f.dst ((BitVec.ofNat (8 * n) v).signExtend 64).toNat))) ∧
    (Runs s x (Tidy.word 8 1 f) t → exec (.ldu x f) s = .next (passed u x t ((carried u x.core (past c)).setS f.dst v)))) ∧
  (∀ (s u : State) (x : At) (f : Fields) (t : Task),
    let c := s.core x.core
    let n := 2 ^ (f.ew % 4)
    let a := memAddr c f
    a % n = 0 →
    (Runs s x (Tidy.word 8 2 f) t → (coreStore x.core a (leBytes n (c.sreg f.dst)) true).run s = .ok () u →
      exec (.st x f) s = .next (passed u x t (carried u x.core (past c)))) ∧
    (∀ s1, Runs s x (Tidy.word 8 3 f) t → (releaseStep x.core a).run s = .ok () s1 →
      (coreStore x.core a (leBytes n (c.sreg f.dst)) false).run s1 = .ok () u →
      exec (.storeRel x f) s = .next (passed u x t (carried u x.core (past c))))) ∧
  (∀ (s : State) (core a : Nat) (t : Task), (s.core core).task = some t → s.peersDone core = true →
    (2 ^ 63 ≤ a ∨ (s.ctx t.o.ctx).readback = false → (releaseStep core a).run s = .ok () (s.closePath core)) ∧
    (∀ p b u, a < 2 ^ 63 → (s.ctx t.o.ctx).readback = true →
      (translate (s.coreReq core t) a .write).run (s.closePath core) = .ok (.host p b) u →
      (releaseStep core a).run s = (fenceHostStep core).run u)) ∧
  (∀ (s : State) (core a : Nat) (t : Task), (s.core core).task = some t → s.peersDone core = false →
    (releaseStep core a).run s = .error .pause s) ∧
  (∀ (s : State) (core a n : Nat), core < 256 → ((s.core core).task).isSome = true → 0 < n → localOk s core a n →
    (coreLoad core a n).run s = .ok (leNat ((List.range n).map fun i => localByte s core (a + i))) s) ∧
  (∀ (s : State) (core a : Nat) (bytes : List (BitVec 8)) (ro : Bool), core < 256 → ((s.core core).task).isSome = true → bytes ≠ [] →
    localOk s core a bytes.length → (s.core core).done = 0 → Memory.wf s.mem = true → ∃ u, (coreStore core a bytes ro).run s = .ok () u ∧
      (∀ i, i < bytes.length → localByte u core (a + i) = bytes.getD i 0) ∧
      (∀ b, b < a ∨ a + bytes.length ≤ b → localByte u core b = localByte s core b) ∧
      (∀ b, b < storeAddr (core / 4) 0 ∨ storeAddr (core / 4) 0 + 0x300000 ≤ b → u.memByte b = s.memByte b) ∧
      (∀ k, k ≠ core → u.core k = s.core k) ∧ u.out = s.out) ∧
  (∀ (s : State) (x : At) (f : Fields) (t : Task) (y : Slice) (next fl : Nat), memAddr (s.core x.core) f % 2 ^ (f.ew % 4) ≠ 0 →
    s.slice? t.o t.k = some y → y.work = .tc next fl none →
    ∀ p ∈ [(0, Instr.ld), (1, .ldu), (2, .st), (3, .storeRel), (4, .ldAcq)], Runs s x (Tidy.word 8 p.1 f) t →
      Completes (p.2 x f) s fun u => (u.core x.core).task = none ∧ u.mem = s.mem ∧ u.slice? t.o t.k =
        some { y with work := .tc next (fl ||| (s.core x.core).flags) (some (t.index, Status.descriptorInvalid, 0x02)) })

/-- Atomics on the cluster store. Each atomic whose word stands at the program counter of an executing core, at an aligned
and sound place of its own cluster's store, logs the place as a store does, writes the new value the operation gives (ACAS
only where the compared register agrees), returns the old value in the low bits of its destination, raises the flags of the
float forms and moves the program counter on. The destination's bits above a 32-bit old value are the model's free value
(log entry 24). At an address outside the executing cluster's store but inside the address space of a core the task stops,
so the statement is of the addresses where R80 lets an atomic be performed. -/
def Obligations.ScalarAtomics : Prop :=
  AtomicLaw 0x00 .aadd (fun _ => true) (fun _ old b _ => (some (old + b), 0)) ∧
  AtomicLaw 0x01 .aand (fun _ => true) (fun _ old b _ => (some (old &&& b), 0)) ∧
  AtomicLaw 0x02 .aor (fun _ => true) (fun _ old b _ => (some (old ||| b), 0)) ∧
  AtomicLaw 0x03 .axor (fun _ => true) (fun _ old b _ => (some (old ^^^ b), 0)) ∧
  AtomicLaw 0x04 .aswap (fun _ => true) (fun _ _ b _ => (some b, 0)) ∧
  AtomicLaw 0x05 .acas (fun _ => true) (fun _ old b d => (if old = d then some b else none, 0)) ∧
  AtomicLaw 0x06 .amin (fun _ => true) (fun _ old b _ => (some (if old.slt b then old else b), 0)) ∧
  AtomicLaw 0x07 .amax (fun _ => true) (fun _ old b _ => (some (if old.slt b then b else old), 0)) ∧
  AtomicLaw 0x08 .aminu (fun _ => true) (fun _ old b _ => (some (if old < b then old else b), 0)) ∧
  AtomicLaw 0x09 .amaxu (fun _ => true) (fun _ old b _ => (some (if old < b then b else old), 0)) ∧
  AtomicLaw 0x0A .afadd (fun f => f.ew % 4 == 2) (fun w old b _ =>
    let r := fadd fp32 old.toNat b.toNat
    (some (BitVec.ofNat w r.1), Tidy.flagBits r.2)) ∧
  AtomicLaw 0x0B .afmin (fun f => f.ew % 4 == 2) (fun w old b _ => (some (BitVec.ofNat w (fmin fp32 old.toNat b.toNat)), signalling w [old, b])) ∧
  AtomicLaw 0x0C .afmax (fun f => f.ew % 4 == 2) (fun w old b _ => (some (BitVec.ofNat w (fmax fp32 old.toNat b.toNat)), signalling w [old, b]))

/-- Elementwise integer instructions. Each elementwise integer instruction, wrapping or saturating, in its vector and its
scalar form, whose word stands at the program counter of an executing core, gives every active element the result of its
operation on the elements of A and B; inactive elements are kept, or zero when zero is set, and raise nothing; the
saturating ones raise sat where an active element clamps. Nothing else of the core changes but the program counter. -/
def Obligations.VectorInteger : Prop :=
  ElementwiseLaw 0x10 0x00 .vadd (fun _ => true) (fun _ a b _ => quiet (a + b)) ∧
  ElementwiseLaw 0x10 0x01 .vsub (fun _ => true) (fun _ a b _ => quiet (a - b)) ∧
  ElementwiseLaw 0x10 0x02 .vmul (fun _ => true) (fun _ a b _ => quiet (a * b)) ∧
  ElementwiseLaw 0x10 0x03 .vmulh (fun _ => true) (fun w a b _ => quiet (BitVec.ofInt w (a.toInt * b.toInt / (2 ^ w : Nat)))) ∧
  ElementwiseLaw 0x10 0x04 .vmulhu (fun _ => true) (fun w a b _ => quiet (BitVec.ofNat w (a.toNat * b.toNat / 2 ^ w))) ∧
  ElementwiseLaw 0x10 0x05 .vand (fun _ => true) (fun _ a b _ => quiet (a &&& b)) ∧
  ElementwiseLaw 0x10 0x06 .vor (fun _ => true) (fun _ a b _ => quiet (a ||| b)) ∧
  ElementwiseLaw 0x10 0x07 .vxor (fun _ => true) (fun _ a b _ => quiet (a ^^^ b)) ∧
  ElementwiseLaw 0x10 0x08 .vsll (fun _ => true) (fun w a b _ => quiet (a <<< (b.toNat % w))) ∧
  ElementwiseLaw 0x10 0x09 .vsrl (fun _ => true) (fun w a b _ => quiet (a >>> (b.toNat % w))) ∧
  ElementwiseLaw 0x10 0x0A .vsra (fun _ => true) (fun w a b _ => quiet (a.sshiftRight (b.toNat % w))) ∧
  ElementwiseLaw 0x10 0x0D .vmin (fun _ => true) (fun _ a b _ => quiet (if a.slt b then a else b)) ∧
  ElementwiseLaw 0x10 0x0E .vmax (fun _ => true) (fun _ a b _ => quiet (if a.slt b then b else a)) ∧
  ElementwiseLaw 0x10 0x0F .vminu (fun _ => true) (fun _ a b _ => quiet (if a < b then a else b)) ∧
  ElementwiseLaw 0x10 0x10 .vmaxu (fun _ => true) (fun _ a b _ => quiet (if a < b then b else a)) ∧
  ElementwiseLaw 0x10 0x11 .vabs (fun _ => true) (fun _ a _ _ => quiet (if a.msb then -a else a)) ∧
  ElementwiseLaw 0x11 0x00 .vadds (fun _ => true) (fun w a b _ => saturating (clampSigned w (a.toInt + b.toInt))) ∧
  ElementwiseLaw 0x11 0x01 .vsubs (fun _ => true) (fun w a b _ => saturating (clampSigned w (a.toInt - b.toInt))) ∧
  ElementwiseLaw 0x11 0x02 .vaddsu (fun _ => true) (fun w a b _ => saturating (clampUnsigned w (a.toNat + b.toNat))) ∧
  ElementwiseLaw 0x11 0x03 .vsubsu (fun _ => true) (fun w a b _ => saturating (clampUnsigned w (a.toNat - b.toNat))) ∧
  ElementwiseLaw 0x11 0x04 .vmuls (fun _ => true) (fun w a b _ => saturating (clampSigned w (a.toInt * b.toInt))) ∧
  ElementwiseLaw 0x11 0x05 .vslls (fun _ => true) (fun w a b _ => saturating (clampSigned w (a.toInt * 2 ^ (b.toNat % w)))) ∧
  ElementwiseLaw 0x11 0x06 .vabss (fun _ => true) (fun w a _ _ => saturating (clampSigned w a.toInt.natAbs))

/-- Elementwise float instructions and compares. Each elementwise float instruction with a bf16 or fp32 element width, and
each compare, whose word stands at the program counter of an executing core, gives every active element (or mask bit) the
result of its operation, leaves inactive ones as mask and zero say, clears the mask bits above the elements, raises the
flags of the active elements, and changes nothing else of the core but the program counter. -/
def Obligations.VectorFloat : Prop :=
  ElementwiseLaw 0x13 0x00 .vfadd Tidy.floatEw (fun w a b _ => floatResult w (fadd (formatOf w) a.toNat b.toNat)) ∧
  ElementwiseLaw 0x13 0x01 .vfsub Tidy.floatEw (fun w a b _ => floatResult w (fsub (formatOf w) a.toNat b.toNat)) ∧
  ElementwiseLaw 0x13 0x02 .vfmul Tidy.floatEw (fun w a b _ => floatResult w (fmul (formatOf w) a.toNat b.toNat)) ∧
  ElementwiseLaw 0x13 0x03 .vfma Tidy.floatEw (fun w a b d => floatResult w (ffma (formatOf w) a.toNat b.toNat d.toNat)) ∧
  ElementwiseLaw 0x13 0x04 .vfnma Tidy.floatEw (fun w a b d => floatResult w (ffnma (formatOf w) a.toNat b.toNat d.toNat)) ∧
  ElementwiseLaw 0x13 0x05 .vfmin Tidy.floatEw (fun w a b _ => (BitVec.ofNat w (fmin (formatOf w) a.toNat b.toNat), signalling w [a, b])) ∧
  ElementwiseLaw 0x13 0x06 .vfmax Tidy.floatEw (fun w a b _ => (BitVec.ofNat w (fmax (formatOf w) a.toNat b.toNat), signalling w [a, b])) ∧
  ElementwiseLaw 0x13 0x07 .vfabs Tidy.floatEw (fun _ a _ _ => quiet (a &&& (BitVec.allOnes _ >>> 1))) ∧
  ElementwiseLaw 0x13 0x08 .vfneg Tidy.floatEw (fun w a _ _ => quiet (a ^^^ BitVec.intMin w)) ∧
  CompareLaw 0x00 .veq (fun _ => true) (fun _ a b => (a == b, 0)) ∧
  CompareLaw 0x01 .vne (fun _ => true) (fun _ a b => (a != b, 0)) ∧
  CompareLaw 0x02 .vlt (fun _ => true) (fun _ a b => (a.slt b, 0)) ∧
  CompareLaw 0x03 .vle (fun _ => true) (fun _ a b => (a.sle b, 0)) ∧
  CompareLaw 0x04 .vltu (fun _ => true) (fun _ a b => (a.ult b, 0)) ∧
  CompareLaw 0x05 .vleu (fun _ => true) (fun _ a b => (a.ule b, 0)) ∧
  CompareLaw 0x08 .vfeq Tidy.floatEw (fun w a b => (feq (formatOf w) a.toNat b.toNat, signalling w [a, b])) ∧
  CompareLaw 0x09 .vflt Tidy.floatEw (fun w a b => (flt (formatOf w) a.toNat b.toNat, signalling w [a, b])) ∧
  CompareLaw 0x0A .vfle Tidy.floatEw (fun w a b => (fle (formatOf w) a.toNat b.toNat, signalling w [a, b])) ∧
  CompareLaw 0x0B .vfun Tidy.floatEw (fun w a b => (isNan (formatOf w) a.toNat || isNan (formatOf w) b.toNat, signalling w [a, b]))

/-- Conversions, widening and narrowing. Each conversion whose word stands at the program counter of an executing core, with
an element width its operation allows, writes its result elements under mask and zero: F32.BF16 and the NARROW forms take
their low half from A and their high half from B, the LO and HI forms read the low or high half of A, and I32.F32 and
F32.I32 convert element by element; the saturating forms raise sat and the float forms their flags. The element width names
the source (the model's reading, log entry 14). -/
def Obligations.VectorConversions : Prop :=
  VectorLaw .f32Bf16 (Tidy.word 0x14 0x00) (fun f => f.ew % 4 == 2) (fun _ => 16) (fun f c e =>
    floatResult 16 (fconv fp32 bf16 (if e < 64 then element 32 (c.vreg f.a) e else element 32 (c.vreg f.b) (e - 64)).toNat)) ∧
  VectorLaw .bf16F32Lo (Tidy.word 0x14 0x01) (fun f => f.ew % 4 == 1) (fun _ => 32) (fun f c e =>
    floatResult 32 (fconv bf16 fp32 (element 16 (c.vreg f.a) e).toNat)) ∧
  VectorLaw .bf16F32Hi (Tidy.word 0x14 0x02) (fun f => f.ew % 4 == 1) (fun _ => 32) (fun f c e =>
    floatResult 32 (fconv bf16 fp32 (element 16 (c.vreg f.a) (e + 64)).toNat)) ∧
  VectorLaw .i32F32 (Tidy.word 0x14 0x03) (fun f => f.ew % 4 == 2) (fun _ => 32) (fun f c e =>
    floatResult 32 (fofInt fp32 (element 32 (c.vreg f.a) e).toInt)) ∧
  VectorLaw .f32I32 (Tidy.word 0x14 0x04) (fun f => f.ew % 4 == 2) (fun _ => 32) (fun f c e =>
    let r := ftoInt fp32 32 (element 32 (c.vreg f.a) e).toNat
    (BitVec.ofInt 32 r.1, Tidy.flagBits r.2)) ∧
  VectorLaw .widenLo (Tidy.word 0x14 0x05) (fun f => f.ew % 4 != 3) (fun f => 2 * Tidy.width f.ew) (fun f c e =>
    quiet ((element (Tidy.width f.ew) (c.vreg f.a) e).signExtend _)) ∧
  VectorLaw .widenHi (Tidy.word 0x14 0x06) (fun f => f.ew % 4 != 3) (fun f => 2 * Tidy.width f.ew) (fun f c e =>
    quiet ((element (Tidy.width f.ew) (c.vreg f.a) (e + 1024 / Tidy.width f.ew)).signExtend _)) ∧
  VectorLaw .widenuLo (Tidy.word 0x14 0x07) (fun f => f.ew % 4 != 3) (fun f => 2 * Tidy.width f.ew) (fun f c e =>
    quiet ((element (Tidy.width f.ew) (c.vreg f.a) e).setWidth _)) ∧
  VectorLaw .widenuHi (Tidy.word 0x14 0x08) (fun f => f.ew % 4 != 3) (fun f => 2 * Tidy.width f.ew) (fun f c e =>
    quiet ((element (Tidy.width f.ew) (c.vreg f.a) (e + 1024 / Tidy.width f.ew)).setWidth _)) ∧
  (∀ both : (f : Fields) → Core → Nat → BitVec (Tidy.width f.ew),
    (∀ f c e, both f c e = if e < 2048 / Tidy.width f.ew then element _ (c.vreg f.a) e
      else element _ (c.vreg f.b) (e - 2048 / Tidy.width f.ew)) →
    VectorLaw .narrow (Tidy.word 0x14 0x09) (fun f => f.ew % 4 != 0) (fun f => Tidy.width f.ew / 2) (fun f c e =>
      quiet ((both f c e).setWidth _)) ∧
    VectorLaw .narrowS (Tidy.word 0x14 0x0A) (fun f => f.ew % 4 != 0) (fun f => Tidy.width f.ew / 2) (fun f c e =>
      saturating (clampSigned _ (both f c e).toInt)) ∧
    VectorLaw .narrowSu (Tidy.word 0x14 0x0B) (fun f => f.ew % 4 != 0) (fun f => Tidy.width f.ew / 2) (fun f c e =>
      saturating (clampUnsigned _ (both f c e).toInt)))

/-- Permutes, moves and mask logic. Each permute or move and each mask instruction whose word stands at the program counter
of an executing core has its effect. VPERM, VSLIDEUP and VSLIDEDN write the elements their indices name; VBCAST, VIOTA and
VMV write a scalar, the index or the element; VEXT moves an element to a scalar; VINS moves a scalar into one active
element, and zero clears its inactive ones. What a permute by indices writes, the index that names no element, and the bits
VEXT writes above the element, are readings and free values of the model (log entry 15): the statement leaves such elements
and bits open. The mask operations compute bit by bit on whole masks and write a mask other than m0, with m0 read as all
ones; MPOP counts, MFIRST finds the lowest set bit or answers 256, MSET.N sets the lowest bits. -/
def Obligations.VectorMovesAndMasks : Prop :=
  (∀ (s : State) (x : At) (f : Fields) (t : Task),
    let w := Tidy.width f.ew
    let n := 2048 / w
    let c := s.core x.core
    let drawn := { s with free := s.free + 1 }
    let moves := fun (mk : At → Fields → Instr) (g : Nat → Option (BitVec w)) => ∃ v,
      exec (mk x f) s = .next (passed drawn x t ((past c).setV f.dst v)) ∧
      ∀ e, e < n → ∀ y, (if (c.mreg f.mask).getLsbD e then g e else some (if f.zero % 2 = 1 then 0 else element w (c.vreg f.dst) e)) = some y →
        element w v e = y
    (Runs s x (Tidy.word 0x15 0 f) t → moves .vperm fun e => let i := (element w (c.vreg f.b) e).toNat
      if i < n then some (element w (c.vreg f.a) i) else none) ∧
    (Runs s x (Tidy.word 0x15 1 f) t → moves .vbcast fun _ => some (BitVec.ofNat w (c.sreg f.a))) ∧
    (Runs s x (Tidy.word 0x15 2 f) t → moves .vslideup fun e =>
      if c.sreg f.b ≤ e then some (element w (c.vreg f.a) (e - c.sreg f.b)) else none) ∧
    (Runs s x (Tidy.word 0x15 3 f) t → moves .vslidedn fun e =>
      if e + c.sreg f.b < n then some (element w (c.vreg f.a) (e + c.sreg f.b)) else none) ∧
    (Runs s x (Tidy.word 0x15 6 f) t → moves .viota fun e => some (BitVec.ofNat w e)) ∧
    (Runs s x (Tidy.word 0x15 7 f) t → moves .vmv fun e => some (element w (c.vreg f.a) e)) ∧
    (Runs s x (Tidy.word 0x15 4 f) t → ∃ v : BitVec 64, exec (.vext x f) s = .next (passed drawn x t ((past c).setS f.dst v.toNat)) ∧
      (c.sreg f.b < n → v.setWidth w = element w (c.vreg f.a) (c.sreg f.b))) ∧
    (Runs s x (Tidy.word 0x15 5 f) t → ∃ v, exec (.vins x f) s = .next (passed drawn x t ((past c).setV f.dst v)) ∧
      (c.sreg f.b < n → ∀ e, e < n → element w v e = if (c.mreg f.mask).getLsbD e then
          (if e = c.sreg f.b then BitVec.ofNat w (c.sreg f.a) else element w (c.vreg f.dst) e)
        else if f.zero % 2 = 1 then 0 else element w (c.vreg f.dst) e))) ∧
  (∀ (s : State) (x : At) (f : Fields) (t : Task), Tidy.plain f = true →
    let c := s.core x.core
    let gives := fun (i : Instr) (m : BitVec 256) => exec i s = .next (passed s x t ((past c).setM f.dst m))
    (f.dst % 8 ≠ 0 →
      (Runs s x (Tidy.word 0x1A 0 f) t → gives (.mand x f) (c.mreg f.a &&& c.mreg f.b)) ∧
      (Runs s x (Tidy.word 0x1A 1 f) t → gives (.mor x f) (c.mreg f.a ||| c.mreg f.b)) ∧
      (Runs s x (Tidy.word 0x1A 2 f) t → gives (.mxor x f) (c.mreg f.a ^^^ c.mreg f.b)) ∧
      (Runs s x (Tidy.word 0x1A 3 f) t → gives (.mandn x f) (c.mreg f.a &&& ~~~(c.mreg f.b))) ∧
      (Runs s x (Tidy.word 0x1A 4 f) t → gives (.mnot x f) (~~~(c.mreg f.a))) ∧
      (Runs s x (Tidy.word 0x1A 7 f) t → ∃ m, gives (.msetN x f) m ∧
        ∀ e, m.getLsbD e = decide (e < 256 ∧ (e : Int) < (BitVec.ofNat 64 (c.sreg f.a)).toInt))) ∧
    (Runs s x (Tidy.word 0x1A 5 f) t → exec (.mpop x f) s = .next (passed s x t ((past c).setS f.dst
      ((List.range 256).filter (c.mreg f.a).getLsbD).length))) ∧
    (Runs s x (Tidy.word 0x1A 6 f) t → ∃ k, exec (.mfirst x f) s = .next (passed s x t ((past c).setS f.dst k)) ∧
      (∀ e, e < k → (c.mreg f.a).getLsbD e = false) ∧ (k = 256 ∨ (c.mreg f.a).getLsbD k = true)))

/-- Reductions, table lookups and ranges. Each reduction whose word stands at the program counter of an executing core
combines the active elements of A from its identity, writes the result to element 0 and zero to the rest; VFREDADD adds
neighbours in a tree of roundings. TLU.I writes the entry that the low eight bits of each element name; TLU.F writes the
canonical NaN for a NaN (its flags are not stated here), the end entries outside the table and elsewhere the interpolation
of R71; RANGE.INIT empties the side-band entry in element 0, under mask and zero, and RANGE merges the finite active
elements into it. -/
def Obligations.VectorReductionsAndLookups : Prop :=
  ReductionLaw 0x10 .vredadd (fun _ => true) (fun w c f => quiet ((activeOf c f w).foldl (· + ·) 0)) ∧
  ReductionLaw 0x11 .vredmin (fun _ => true) (fun w c f => quiet ((activeOf c f w).foldl (fun m a => if m.slt a then m else a) (BitVec.intMax w))) ∧
  ReductionLaw 0x12 .vredmax (fun _ => true) (fun w c f => quiet ((activeOf c f w).foldl (fun m a => if m.slt a then a else m) (BitVec.intMin w))) ∧
  ReductionLaw 0x13 .vredminu (fun _ => true) (fun w c f => quiet ((activeOf c f w).foldl (fun m a => if m < a then m else a) (BitVec.allOnes w))) ∧
  ReductionLaw 0x14 .vredmaxu (fun _ => true) (fun w c f => quiet ((activeOf c f w).foldl (fun m a => if m < a then a else m) 0)) ∧
  ReductionLaw 0x18 .vfredadd Tidy.floatEw (fun w c f => if activeOf c f w = [] then quiet 0
    else let r := sumTree c f w (Nat.log2 (2048 / w)) 0
      (BitVec.ofNat w r.1, r.2)) ∧
  ReductionLaw 0x19 .vfredmin Tidy.floatEw (fun w c f => match activeOf c f w with
    | [] => quiet (BitVec.ofNat w ((formatOf w).infBits false))
    | a :: xs => (BitVec.ofNat w (((a :: xs).map BitVec.toNat).foldl (fmin (formatOf w)) a.toNat), signalling w (a :: xs))) ∧
  ReductionLaw 0x1A .vfredmax Tidy.floatEw (fun w c f => match activeOf c f w with
    | [] => quiet (BitVec.ofNat w ((formatOf w).infBits true))
    | a :: xs => (BitVec.ofNat w (((a :: xs).map BitVec.toNat).foldl (fmax (formatOf w)) a.toNat), signalling w (a :: xs))) ∧
  VectorLaw .tluI (Tidy.word 0x16 0) (fun f => f.ew % 4 == 2) (fun _ => 32) (fun f c e =>
    quiet (BitVec.ofNat 32 (slotEntry c f.b ((element 32 (c.vreg f.a) e).toNat % 256)))) ∧
  (∀ (s : State) (x : At) (f : Fields) (t : Task), f.ew % 4 = 2 → Runs s x (Tidy.word 0x16 1 f) t →
    let c := s.core x.core
    ∃ v fl, exec (.tluF x f) s = .next (passed { s with free := s.free + 1 } x t (((past c).setV f.dst v).raiseFlags fl)) ∧
      ∀ e, e < 64 → (c.mreg f.mask).getLsbD e = true →
        let a := (element 32 (c.vreg f.a) e).toNat
        let i := (fmul fp32 (fsub fp32 a (slotEntry c f.b 256)).1 (slotEntry c f.b 257)).1
        (isNan fp32 a = true → element 32 v e = BitVec.ofNat 32 fp32.nanBits) ∧
        (isNan fp32 a = false → flt fp32 i 0 = true → element 32 v e = BitVec.ofNat 32 (slotEntry c f.b 0)) ∧
        (isNan fp32 a = false → flt fp32 i 0 = false → fle fp32 (fofInt fp32 255).1 i = true →
          element 32 v e = BitVec.ofNat 32 (slotEntry c f.b 255)) ∧
        (∀ neg m ex, isNan fp32 a = false → flt fp32 i 0 = false → fle fp32 (fofInt fp32 255).1 i = false →
          fdecode fp32 i = .fin neg m ex → let n := (floorInt neg m ex).toNat
          element 32 v e = BitVec.ofNat 32 (ffma fp32 (fsub fp32 i (fofInt fp32 n).1).1
            (fsub fp32 (slotEntry c f.b (n + 1)) (slotEntry c f.b n)).1 (slotEntry c f.b n)).1)) ∧
  (∀ (s : State) (x : At) (f : Fields) (t : Task),
    let c := s.core x.core
    (Runs s x (Tidy.word 0x17 0 f) t → ∃ v, exec (.rangeInit x f) s = .next (passed s x t ((past c).setV f.dst v)) ∧
      ∀ e, e < 32 → element 64 v e = if (c.mreg f.mask).getLsbD e then
          (if e = 0 then 0xFF8000007F800000 else element 64 (c.vreg f.dst) e)
        else if f.zero % 2 = 1 then 0 else element 64 (c.vreg f.dst) e) ∧
    (Tidy.floatEw f = true → f.zero % 2 = 0 → Runs s x (Tidy.word 0x17 1 f) t →
      let xs := if f.ew % 4 = 1 then (((activeOf c f 16).map BitVec.toNat).filter (isFinite bf16)).map (· * 65536)
        else ((activeOf c f 32).map BitVec.toNat).filter (isFinite fp32)
      let old := element 64 (c.vreg f.dst) 0
      ∃ v, exec (.range x f) s = .next (passed s x t ((past c).setV f.dst v)) ∧
        (element 64 v 0).setWidth 32 = BitVec.ofNat 32 (xs.foldl (fmin fp32) (old.setWidth 32).toNat) ∧
        (element 64 v 0) >>> 32 = BitVec.ofNat 64 (xs.foldl (fmax fp32) (old >>> 32).toNat) ∧
        ∀ e, 0 < e → e < 32 → element 64 v e = element 64 (c.vreg f.dst) e))

/-- Vector loads and stores of a core. VLD, VLDS and VLDX, and VST, VSTS and VSTX, whose word stands at the program counter
of an executing core: where every active element has a naturally aligned address in the core's windows, each active element
is loaded from its address, or stored to it; inactive elements make no access. A load leaves memory as it was; a store
changes no byte of the windows but those of the active elements, the highest-numbered of which holds where they overlap.
Unit stride, the stride of a scalar or the offsets of a vector give the addresses (log entry 16). -/
def Obligations.VectorMemory : Prop :=
  (∀ (s : State) (x : At) (f : Fields) (t : Task), x.core < 256 →
    let n := 2 ^ (f.ew % 4)
    let c := s.core x.core
    ∀ p ∈ [(0, Instr.vld), (2, .vlds), (4, .vldx)], Runs s x (Tidy.word 0x18 p.1 f) t →
      (∀ e, e < 256 / n → (c.mreg f.mask).getLsbD e = true → elemAddr c f p.1 e % n = 0 ∧ localOk s x.core (elemAddr c f p.1 e) n) →
      ∃ v, exec (p.2 x f) s = .next (passed s x t ((past c).setV f.dst v)) ∧
        Written c f (8 * n) (fun e => quiet (BitVec.ofNat _ (leNat ((List.range n).map fun i => localByte s x.core (elemAddr c f p.1 e + i))))) v 0) ∧
  (∀ (s : State) (x : At) (f : Fields) (t : Task), x.core < 256 → (s.core x.core).done = 0 → Memory.wf s.mem = true →
    let n := 2 ^ (f.ew % 4)
    let c := s.core x.core
    ∀ p ∈ [(1, Instr.vst), (3, .vsts), (5, .vstx)], Runs s x (Tidy.word 0x18 p.1 f) t →
      (∀ e, e < 256 / n → (c.mreg f.mask).getLsbD e = true → elemAddr c f p.1 e % n = 0 ∧ localOk s x.core (elemAddr c f p.1 e) n) →
      let on := fun e b => e < 256 / n ∧ (c.mreg f.mask).getLsbD e = true ∧ elemAddr c f p.1 e ≤ b ∧ b < elemAddr c f p.1 e + n
      Completes (p.2 x f) s fun u =>
        (∀ e b, on e b → (∀ e', e < e' → ¬ on e' b) →
          localByte u x.core b = ((element (8 * n) (c.vreg f.dst) e).extractLsb' (8 * (b - elemAddr c f p.1 e)) 8)) ∧
        (∀ b, (∀ e, ¬ on e b) → localByte u x.core b = localByte s x.core b) ∧
        (∀ b, b < storeAddr (x.core / 4) 0 ∨ storeAddr (x.core / 4) 0 + 0x300000 ≤ b → u.memByte b = s.memByte b) ∧
        (u.core x.core).v = c.v ∧ (u.core x.core).s = c.s ∧ (u.core x.core).pc = (past c).pc ∧ u.out = s.out ∧
        ∀ k, k ≠ x.core → u.core k = s.core k)

/-- VECTOR_RUN, its tasks, and their replay. A VECTOR_RUN that may be dispatched, with a legal record and an eligible
cluster, is cut into slices whose task ranges follow R268. TASK_START loads the next task of the slice at the head of its
class on the lowest free core, with the registers of R84, where its images can be read. CYCLE_LIMIT_EXCEEDED stops a task
whose op sets a limit, with cause 0x09. TASK_MOVE moves a task with all its registers to the lowest free core, counts it and
runs the canary of the first core, which stays out of use exactly where both its runs fail; for a task already moved it
stops the task with cause 0x08. TASK_RESTART starts a restartable task again on another core, and stops any other with cause
0x08; after a first parity failure of instruction memory it fetches the code image again and the task goes on. Both wait
until the core has no access outstanding. CANARY_RUN runs the due canaries of a cluster. -/
def Obligations.TasksAndCanaries : Prop :=
  (∀ (s t : State) (o : OpRef) (x : Op), MayDispatch s t o x 0x02 → VecOp.ok x.word = true → t.eligibles o.ctx 1 ≠ [] →
    Completes (.vectorRun o) s fun u => ∃ y, u.op? o = some y ∧ y.phase = .dispatched ∧ y.word = x.word ∧
      let c := min (VecOp.clusters x.word) ((List.range 64).filter (t.member o.ctx)).length
      y.slices.length = c ∧ ∀ j z, y.slices[j]? = some z → z.unit = 1 ∧ z.lo = j * VecOp.tasks x.word / c ∧
        z.hi = (j + 1) * VecOp.tasks x.word / c ∧ z.work = .tc z.lo 0 none) ∧
  (∀ (s v : State) (cc k next fl : Nat) (r : SliceRef) (x : Op) (y z : Slice) (stop : Option (Nat × Nat × Nat)),
    s.running = true → s.atHead cc 1 = some r → s.op? r.o = some x → s.slice? r.o r.k = some y → s.freeCore cc = some k →
    y.work = .tc next fl stop → next < y.hi → s.opStopped r.o = false →
    (State.runsChecked x = true → s.mayUseArea cc r.o = true) →
    let t : Task := { o := r.o, k := r.k, index := next, checked := State.runsChecked x, restartable := State.runsChecked x }
    (State.loadTask (4 * cc + k) x t).run (s.startSlice r.o r.k) = .ok () v → v.slice? r.o r.k = some z → z.work = .tc next fl stop →
    Completes (.taskStart cc) s fun u =>
      let d := u.core (4 * cc + k)
      d.task = some t ∧ d.pc = VecOp.entry x.word ∧ d.flags = 0 ∧ d.sreg 1 = VecOp.arg0 x.word ∧ d.sreg 2 = VecOp.arg1 x.word ∧
      d.sreg 28 = (4 * cc + k) / 4 % 2 ^ 64 ∧ d.sreg 29 = (4 * cc + k) % 4 ∧ d.sreg 30 = next % 2 ^ 64 ∧ d.sreg 31 = VecOp.tasks x.word ∧
      (∀ i, 3 ≤ i → i < 28 → d.sreg i = 0) ∧ d.v = [] ∧ d.m = [] ∧ d.tables = [] ∧
      (u.slice? r.o r.k).map (·.work) = some (.tc (next + 1) fl stop)) ∧
  (∀ (s : State) (n : Nat) (t : Task) (x : Op) (y : Slice), (s.core n).task = some t → s.coreRuns n = true → s.op? t.o = some x →
    s.slice? t.o t.k = some y →
    (VecOp.cycleLimit x.word ≠ 0 → Completes (.cycleLimitExceeded n) s fun u => TaskStopped s u n t y Status.internal 0x09) ∧
    (t.moved = true → s.coreBusy n = 0 → ∀ first second, Completes (.taskMove n first second) s fun u => TaskStopped s u n t y Status.silentError 0x08) ∧
    (t.restarted = true ∨ t.restartable = false → s.coreBusy n = 0 → ∀ first second parity, (parity = true → t.refetched = true) →
      Completes (.taskRestart ⟨n, parity⟩ first second) s fun u => TaskStopped s u n t y Status.silentError 0x08)) ∧
  (∀ (s : State) (n k : Nat) (t : Task) (first second : Bool), (s.core n).task = some t → s.coreRuns n = true →
    s.freeCore (n / 4) = some k →
    (t.moved = false → s.coreBusy n = 0 → Completes (.taskMove n first second) s fun u =>
      u.core (4 * (n / 4) + k) = { s.core n with task := some { t with moved := true }, mustPass := false } ∧
      (u.core n).task = none ∧ (u.core n).mustPass = (first && second) ∧ u.mem = s.mem ∧
      (∀ m, m ≠ n → m ≠ 4 * (n / 4) + k → u.core m = s.core m)) ∧
    (∀ (x : Op) (v : State) (parity : Bool), s.op? t.o = some x → t.restarted = false → t.restartable = true → s.coreBusy n = 0 →
      (parity = true → t.refetched = true) →
      let t' : Task := { o := t.o, k := t.k, index := t.index, checked := t.checked, restartable := t.checked, restarted := true }
      (State.loadTask (4 * (n / 4) + k) x t').run ((s.undoLog n t).setCore n { mustPass := true }) = .ok () v →
      Completes (.taskRestart ⟨n, parity⟩ first second) s fun u =>
        (u.core (4 * (n / 4) + k)).task = some t' ∧ (u.core (4 * (n / 4) + k)).pc = VecOp.entry x.word ∧ u.mem = v.mem)) ∧
  (∀ (s v : State) (n : Nat) (t : Task) (x : Op) (first second : Bool) (im : AMap Nat), (s.core n).task = some t →
    s.coreRuns n = true → s.op? t.o = some x → t.refetched = false → (State.fetchImage (s.coreReq n t) x.word).run s = .ok im v →
    Completes (.taskRestart ⟨n, true⟩ first second) s fun u =>
      u.core n = { v.core n with imem := im, task := some { t with refetched := true } } ∧ u.mem = v.mem ∧ u.ctxs = v.ctxs ∧
      ∀ m, m ≠ n → u.core m = v.core m) ∧
  (∀ (s : State) (cc first second : Nat), s.running = true →
    (∀ k ∈ (s.cluster cc).canaryDue, k < 4 ∧ (s.core (4 * cc + k)).task = none) →
    Completes (.canaryRun cc first second) s fun u => (u.cluster cc).canaryDue = [] ∧ u.mem = s.mem ∧ u.ctxs = s.ctxs ∧
      (∀ k ∈ (s.cluster cc).canaryDue, u.core (4 * cc + k) = { s.core (4 * cc + k) with mustPass := flag first k && flag second k }) ∧
      ∀ n, (∀ k ∈ (s.cluster cc).canaryDue, n ≠ 4 * cc + k) → u.core n = s.core n)

/-- MATMUL, its tiles, and the lanes of an engine. A MATMUL that may be dispatched, with a legal record and descriptors that
can be read and pass R58, is cut into slices by row blocks, each with its tiles, or with an empty tensor and no side-band is
settled OK. MATMUL_TILE on dark lanes asks for a ramp token; on lit lanes it fills a free buffer with the next tile of the
slice at the head of its class, where the tile's operands can be read (R42's staging rule is met on every cluster that takes
a slice). TILE_DRAIN of a tile that passed its compare writes its outputs, where they can be written, frees its buffer, and
ends the slice with its last tile. A tile that passes on the other engine is drained there; one that fails there fails its
op as unrecovered. LANE_MAP_OUT_RECORD enters the map-out in the fuses. IDLE_HOLD_END asks to ramp down, and
RAMP_TOKEN_GRANT switches the lanes of the engine whose turn it is. -/
def Obligations.MatrixEngines : Prop :=
  (∀ (s t t1 t2 t3 : State) (o : OpRef) (x : Op) (a b out : Nat), MayDispatch s t o x 0x01 → MatOp.ok x.word = true →
    let r := t.spineReq o.ctx (.op o 1000)
    (readDesc r (MatOp.aDesc x.word)).run t = .ok a t1 → (readDesc r (MatOp.bDesc x.word)).run t1 = .ok b t2 →
    (readDesc r (MatOp.outDesc x.word)).run t2 = .ok out t3 → matmulOk x.word a b out = true → t3.op? o = some x →
    let rb := ceilDiv (Desc.extent a 1) 64
    let nb := ceilDiv (Desc.extent b 1) (MatOp.tileCols x.word)
    (Desc.empty a = false → Desc.empty b = false → t3.eligibles o.ctx 0 ≠ [] →
      (∀ z ∈ matmulSlices rb nb ((t3.eligibles o.ctx 0).filter (t3.freeFor 0)), ∀ cc, z.place = some cc →
        t3.stagingOk (t3.engineReq cc 0 o) cc x.word a b out = true) →
      Completes (.matmul o) s fun u => ∃ y, u.op? o = some y ∧ y.phase = .dispatched ∧ y.copies = [a, b, out] ∧
      let k := max 1 (min rb ((t3.eligibles o.ctx 0).filter (t3.freeFor 0)).length)
      y.slices.length = k ∧ ∀ j z, y.slices[j]? = some z → z.unit = 0 ∧ z.lo = j * rb / k ∧ z.hi = (j + 1) * rb / k ∧
        z.work = .me ((List.range ((z.hi - z.lo) * nb)).map (z.lo * nb + ·)) 0 false) ∧
    (Desc.empty a = true ∨ Desc.empty b = true → MatOp.sbMode x.word = 0 → x.slices = [] →
      Completes (.matmul o) s fun u => u.mem = t3.mem ∧
        ∃ y, u.op? o = some y ∧ y.phase = .settled ∧ y.status = Status.ok ∧ y.copies = [a, b, out])) ∧
  (∀ (s : State) (cc e tile : Nat) (q : SliceRef) (x : Op) (y : Slice) (todo : List Nat) (fl : Nat), s.running = true → e < 2 →
    s.atHead cc 0 = some q → s.op? q.o = some x → s.slice? q.o q.k = some y → y.work = .me todo fl true → y.phase ≠ .ended →
    s.nextTile cc e todo = some tile → (s.engine cc e).out = false → (s.engine cc e).bufs.length < 2 → (s.engine cc e).foreign = [] →
    ((s.engine cc e).ramp = .dark → s.power.waiting.contains (2 * cc + e) = false → exec (.matmulTile cc e) s =
      .next { s.setEngine cc e { s.engine cc e with ramp := .waitUp } with
        power := { s.power with waiting := s.power.waiting ++ [2 * cc + e] } }) ∧
    (∀ (inp : TileIn) (v : State) (z : Slice) (f : Nat), (s.engine cc e).ramp ≠ .dark → (s.engine cc e).ramp ≠ .waitUp →
      (readTile (s.engineReq cc e q.o) q.o q.k x.word (x.copies.getD 0 0) (x.copies.getD 1 0) tile).run
        ((s.noRamp cc e).startSlice q.o q.k) = .ok inp v →
      v.engine cc e = s.engine cc e → v.slice? q.o q.k = some z → z.work = .me todo f true →
      Completes (.matmulTile cc e) s fun u =>
        (u.engine cc e).bufs = (s.engine cc e).bufs ++ [fillBuf q.o q.k tile x.word inp] ∧
        (u.slice? q.o q.k).map (·.work) = some (.me (todo.filter (· != tile)) f true) ∧ u.mem = v.mem ∧
        u.power.waiting.contains (2 * cc + e) = v.power.waiting.contains (2 * cc + e))) ∧
  (∀ (s v : State) (cc e f : Nat) (b : TileBuf) (rest : List TileBuf) (x : Op) (y : Slice) (todo : List Nat) (runs : List TileRun),
    s.running = true → (s.engine cc e).bufs = b :: rest → s.op? b.o = some x → (s.cluster cc).mode = .serving →
    (s.cluster cc).resident = some b.o.ctx → (s.engine cc e).out = false → MatOp.mode x.word ≠ 2 → runs.head? = some ⟨false, []⟩ →
    (drainTile (s.engineReq cc e b.o) x.word (x.copies.getD 0 0) (x.copies.getD 1 0) (x.copies.getD 2 0) b).run s = .ok () v →
    v.engine cc e = s.engine cc e → v.slice? b.o b.k = some y → y.work = .me todo f true →
    Completes (.tileDrain cc e runs 0) s fun u => (u.engine cc e).bufs = rest ∧ u.mem = v.mem ∧ u.out = v.out ∧
      ∃ z, u.slice? b.o b.k = some z ∧ z.work = .me todo f true ∧ (todo ≠ [] → z.phase = y.phase) ∧
        (todo = [] → (∀ d, d < 2 → ∀ c ∈ (u.engine cc d).bufs ++ (u.engine cc d).foreign, ¬ (c.o = b.o ∧ c.k = b.k)) →
          z.phase = .ended ∧ z.status = Status.ok)) ∧
  (∀ (s v : State) (cc e : Nat) (b : TileBuf) (rest : List TileBuf) (x : Op) (inp : TileIn) (run : TileRun), s.running = true →
    (s.engine cc e).foreign = b :: rest → s.op? b.o = some x → (s.cluster cc).mode = .serving →
    (s.cluster cc).resident = some b.o.ctx → (s.engine cc e).out = false → (s.engine cc e).bufs = [] →
    (s.engine cc e).ramp ≠ .dark → (s.engine cc e).ramp ≠ .waitUp →
    (readTile (s.engineReq cc e b.o) b.o b.k x.word (x.copies.getD 0 0) (x.copies.getD 1 0) b.tile).run s = .ok inp v →
    v.engine cc e = s.engine cc e → v.op? b.o = some x →
    let fresh := fillBuf b.o b.k b.tile x.word inp
    let c := v.checkRun x.word inp fresh (v.laneOut cc e) run
    (c.2.2 = false → ∀ y, v.slice? b.o b.k = some y → Completes (.tileReplayOtherEngine cc e run) s fun u =>
      ∃ z, u.slice? b.o b.k = some z ∧ z.phase = .ended ∧ z.status = Status.silentError ∧ u.mem = v.mem) ∧
    (c.2.2 = true → ∀ w, let p := ((v.noRamp cc e).afterReplay cc e b.o b.k).notePassed b.o 0x5021 (2 * cc + (1 - e))
      (drainTile (p.engineReq cc e b.o) x.word (x.copies.getD 0 0) (x.copies.getD 1 0) (x.copies.getD 2 0) c.1).run p = .ok () w →
      (w.engine cc e).foreign = b :: rest → Completes (.tileReplayOtherEngine cc e run) s fun u =>
        (u.engine cc e).foreign = rest ∧ u.mem = w.mem)) ∧
  (∀ (s : State) (cc e : Nat), s.mgmtUp = true → (s.engine cc e).recordDue = true → s.obj 0x5060 1 ≠ 0 →
    Completes (.laneMapOutRecord cc e) s fun u => u.engine cc e = { s.engine cc e with recordDue := false } ∧
      u.fuses.lanes = s.lanes ∧ u.obj 0x5060 1 = s.obj 0x5060 1 - 1 ∧ u.lanes = s.lanes ∧ u.fuses.revoked = s.fuses.revoked) ∧
  (∀ (s : State) (cc e : Nat), s.running = true → (s.engine cc e).ramp = .hold → s.power.waiting.contains (2 * cc + e) = false →
    exec (.idleHoldEnd cc e) s = .next { s.setEngine cc e { s.engine cc e with ramp := .waitDown } with
      power := { s.power with waiting := s.power.waiting ++ [2 * cc + e] } }) ∧
  (∀ (s : State) (cc e : Nat), s.running = true → s.power.waiting.head? = some (2 * cc + e) →
    s.engineClass (2 * cc + e) = 0 ∨ (∀ m ∈ s.power.waiting, s.engineClass m ≠ 0) →
    Completes (.rampTokenGrant cc e) s fun u => u.power.waiting = s.power.waiting.filter (· != 2 * cc + e) ∧
      ((s.engine cc e).ramp = .waitUp → u.engine cc e = { s.engine cc e with ramp := .on }) ∧
      ((s.engine cc e).ramp = .waitDown → u.engine cc e = { s.engine cc e with ramp := .dark }) ∧ u.lanes = s.lanes)

/-- Writes to a doorbell page. While doorbells are taken, a write to a page that the writing function owns acts: SQ_PRODUCED
of a count that is ahead, and no further ahead of the taken entries than the ring is long, announces entries; one beyond the
ring is ignored, counted and raised; one behind is ignored. CQ_CONSUMED sets the count, and a FULL queue goes on where its
ring now has room. WAKE_ARM arms the wake-up, which is sent at once where the posted count has reached its target;
WAKE_DISARM disarms it. RELEASE of a HELD queue of an attached or owned context issues its records; the queue reads HELD
until the last one is written. A write from a function that does not own the page is counted and changes no context. Behind
a held BAR2 write of the same port every such write waits in the order of arrival. -/
def Obligations.Doorbells : Prop :=
  (∀ (s : State) (ff n v : Nat), s.portsUp = true → s.behind (ff / 8) = false → s.ownsPage ff n = true → (s.ctx n).orphaned = false → v < 2 ^ 32 →
    let c := s.ctx n
    let ahead := (BitVec.ofNat 32 v - BitVec.ofNat 32 c.produced).toNat
    let taken := (BitVec.ofNat 32 v - BitVec.ofNat 32 c.consumed).toNat
    c.produced < 2 ^ 32 → c.consumed < 2 ^ 32 →
    (0 < ahead → ahead < 2 ^ 31 → taken ≤ 2 ^ c.q.sqLog2 →
      exec (.sqProduced ff n v) s = .next (s.setCtx n { c with produced := v })) ∧
    (ahead = 0 ∨ 2 ^ 31 ≤ ahead → exec (.sqProduced ff n v) s = .next s) ∧
    (0 < ahead → ahead < 2 ^ 31 → 2 ^ c.q.sqLog2 < taken → Completes (.sqProduced ff n v) s fun u =>
      u.ctxs = s.ctxs ∧ u.obj 0x3091 1 = (s.obj 0x3091 1 + 1) % 2 ^ 64)) ∧
  (∀ (s : State) (ff n v : Nat), s.portsUp = true → s.behind (ff / 8) = false → s.ownsPage ff n = true → let c := s.ctx n
    let d := { c with cqConsumed := v % 2 ^ 32 }
    let u := s.setCtx n { d with mode := if d.mode == .full && State.ringRoom d then .run else d.mode }
    exec (.cqConsumed ff n v) s = .next (u.issue n) ∧
    ((c.entries = [] ∨ (u.ctx n).mode = .held) → Completes (.cqConsumed ff n v) s fun t =>
      (t.ctx n).cqConsumed = v % 2 ^ 32 ∧ (t.ctx n).cqPosted = c.cqPosted ∧ t.out = s.out)) ∧
  (∀ (s : State) (ff n target : Nat), s.portsUp = true → s.behind (ff / 8) = false → s.ownsPage ff n = true → target < 2 ^ 32 → (s.ctx n).cqPosted < 2 ^ 32 →
    let c := s.ctx n
    let reached := (BitVec.ofNat 32 c.cqPosted - BitVec.ofNat 32 target).toNat < 2 ^ 31
    (¬ reached → exec (.wakeArm ff n target) s = .next (s.setCtx n { c with wake := some target })) ∧
    (reached → Completes (.wakeArm ff n target) s fun u => (u.ctx n).wake = none ∧
      (c.q.msixEn = false → u.out = s.out) ∧
      (c.q.msixEn = true → (s.fn ff).msixEn = true → (s.fn ff).fnMask = false → (s.fn ff).unmasked.contains c.q.vector = true →
        s.hostUp (ff / 8) (ff % 8) = true → u.out = s.out ++ [.msix ff c.q.vector (s.messageOf ff c.q.vector).1 (s.messageOf ff c.q.vector).2])) ∧
    exec (.wakeDisarm ff n target) s = .next (s.setCtx n { c with wake := none })) ∧
  (∀ (s : State) (ff n : Nat), s.portsUp = true → s.behind (ff / 8) = false → s.ownsPage ff n = true → (s.ctx n).mode = .held → (s.ctx n).orphaned = false →
    exec (.release ff n 1) s = .next ((s.setCtx n { s.ctx n with mode := .releasing }).issue n)) ∧
  (∀ (s : State) (ff n v : Nat), s.portsUp = true → s.behind (ff / 8) = false → s.ownsPage ff n = false →
    ∀ i ∈ [Instr.sqProduced ff n v, .cqConsumed ff n v, .wakeArm ff n v, .wakeDisarm ff n v, .release ff n v],
      Completes i s fun u => u.ctxs = s.ctxs ∧ u.out = s.out ∧ u.obj 0x3091 2 = (s.obj 0x3091 2 + 1) % 2 ^ 64) ∧
  (∀ (s : State) (ff n v : Nat), s.behind (ff / 8) = true →
    ∀ i ∈ [Instr.sqProduced ff n v, .cqConsumed ff n v, .wakeArm ff n v, .wakeDisarm ff n v, .release ff n v],
      exec i s = .next (s.holdHost (ff / 8) i))

/-- Taking entries of a submission ring, and stored graphs. Where the next entry of a ring may be taken and can be read: a
SUBMIT whose header can be read and passes R253 becomes a quire in progress, and one whose header fails completes with that
check's status; a BIND of a legal quire into a store with room writes its records, makes generation 1 of the lowest free
handle and completes with the handle; a PATCH makes a new current generation with the entries applied; a LAUNCH pins the
current generation and becomes a quire in progress with the entry's fence base; an UNBIND makes the handle refuse later
entries. Each advances the taken count. An entry with a reserved field completes with DESCRIPTOR_INVALID and does nothing
else. OP_CHUNK_READ, in the queue's order, reads the records of up to 64 further ops where 64 places are free; a held record
that fails its check is read again first, and a second failure ends an op not yet dispatched with SILENT_ERROR. -/
def Obligations.SubmissionEntries : Prop :=
  let opens := fun (s t u : State) (n w kind : Nat) => s.mayTake n kind = true ∧ s.acquireTag n = (t, true) ∧
    (readNum (t.spineReq n (.spine n)) (State.entryPlace (t.ctx n) (t.ctx n).consumed) 64).run t = .ok w u ∧ SubEntry.kind w = kind ∧ kind ≠ 0
  let done := fun (u : State) (n w status result : Nat) => u.takeDone n (SubEntry.kind w) (SubEntry.seq w) status result
  (∀ (s t u v : State) (n w h : Nat), opens s t u n w 1 → SubEntry.ok w = true →
    (readNum (u.spineReq n (.spine n)) (SubEntry.addr w) 64).run u = .ok h v →
    (v.headerStatus n h = none → exec (.submit n) s = .next (v.take n
      { n := (v.ctx n).consumed, kind := 1, seq := SubEntry.seq w, quire := some { src := .mem (SubEntry.addr w), fenceBase := 0, hdr := h } })) ∧
    (∀ st, v.headerStatus n h = some st → exec (.submit n) s = .next (done v n w st 0))) ∧
  (∀ (s t u : State) (n w kind : Nat), opens s t u n w kind → SubEntry.ok w = false →
    ∀ p ∈ [(1, Instr.submit), (2, .bind), (3, .patch), (4, .launch), (5, .unbind)], p.1 = kind →
      exec (p.2 n) s = .next (done u n w Status.descriptorInvalid 0)) ∧
  (∀ (s t u v v' : State) (n w h b hd : Nat) (ws : List Nat) (places : List (Nat × Nat)), opens s t u n w 2 → SubEntry.ok w = true →
    (u.ctx n).verQuire ≠ 2 → (readNum (u.spineReq n (.spine n)) (SubEntry.addr w) 64).run u = .ok h v → v.headerStatus n h = none →
    (State.readRecords (u.spineReq n (.spine n)) (.mem (SubEntry.addr w)) (QuireHdr.lenM1 h + 1) 0).run v = .ok ws v' →
    State.opPlaces false (QuireHdr.lenM1 h) ws (QuireHdr.ops h) 0 1 = some places →
    v'.allocUnits (u.ctx n).partition (ceilDiv ws.length 64) = some b → v'.freeHandle = some hd → v'.graphsOf n < 64 →
    let z := v'.write (v'.storeAt (u.ctx n).partition + b * 4096) (ws.flatMap (leBytes 64))
    let g : Graph := { ctx := n, part := (u.ctx n).partition, current := 1, gens := [{ num := 1, len := ws.length, base := b, units := ceilDiv ws.length 64 }] }
    exec (.bind n) s = .next (done { z with graphs := AMap.set z.graphs hd g } n w Status.ok hd)) ∧
  (∀ (s t u v v' : State) (n w b : Nat) (g : Graph) (old : Gen) (bs : List (BitVec 8)) (ws patched : List Nat) (places : List (Nat × Nat)),
    opens s t u n w 3 → SubEntry.ok w = true → (u.ctx n).verQuire ≠ 2 → u.ownGraph n w = some g →
    g.gens.find? (fun x => x.num == g.current) = some old →
    (readVA (u.spineReq n (.spine n)) (SubEntry.addr w) (16 * SubEntry.count w)).run u = .ok bs v →
    (State.readRecords (u.spineReq n (.spine n)) (.graph (SubEntry.graph w) g.current) old.len 0).run v = .ok ws v' →
    State.opPlaces false (QuireHdr.lenM1 (ws.headD 0)) ws (QuireHdr.ops (ws.headD 0)) 0 1 = some places →
    State.applyPatches places (State.words16 (SubEntry.count w) bs) ws = some patched →
    v'.allocUnits g.part old.units = some b → g.gens.length < 4 →
    let z := v'.write (v'.storeAt g.part + b * 4096) (patched.flatMap (leBytes 64))
    let new : Graph := { g with current := g.current + 1, gens := g.gens ++ [{ num := g.current + 1, len := old.len, base := b, units := old.units }] }
    exec (.patch n) s = .next (done (({ z with graphs := AMap.set z.graphs (SubEntry.graph w) new } : State).freeGens (SubEntry.graph w)) n w Status.ok 0)) ∧
  (∀ (s t u v : State) (n w h : Nat) (g : Graph), opens s t u n w 4 → SubEntry.ok w = true → (u.ctx n).verQuire ≠ 2 →
    u.ownGraph n w = some g →
    (State.readRecord (u.spineReq n (.spine n)) (.graph (SubEntry.graph w) g.current) 0).run u = .ok h v → v.headerStatus n h = none →
    Completes (.launch n) s fun z =>
      (let q : Quire := { src := .graph (SubEntry.graph w) g.current, fenceBase := SubEntry.fenceBase w, hdr := h }
       let e : Entry := { n := (v.ctx n).consumed, kind := 4, seq := SubEntry.seq w, graph := some (SubEntry.graph w, g.current), quire := some q }
       (z.ctx n).entries = (v.ctx n).entries ++ [e]) ∧
      (z.ctx n).consumed = ((v.ctx n).consumed + 1) % 2 ^ 32 ∧ z.mem = v.mem ∧
      ((AMap.get? z.graphs (SubEntry.graph w)).map (·.gens)) = some (g.gens.map fun x => if x.num = g.current then { x with pins := x.pins + 1 } else x)) ∧
  (∀ (s t u : State) (n w : Nat) (g : Graph), opens s t u n w 5 → SubEntry.ok w = true → (u.ctx n).verQuire ≠ 2 → u.ownGraph n w = some g →
    exec (.unbind n) s = .next (done (({ u with graphs := AMap.set u.graphs (SubEntry.graph w) { g with unbound := true } } : State).freeGens (SubEntry.graph w)) n w
      Status.ok 0) ∧
    (∀ m w', SubEntry.graph w' = SubEntry.graph w → (({ u with graphs := AMap.set u.graphs (SubEntry.graph w) { g with unbound := true } } : State).freeGens
      (SubEntry.graph w)).ownGraph m w' = none)) ∧
  (∀ (s t u : State) (n e : Nat) (q q' : Quire), s.running = true → (s.ctx n).phase = .opened → (s.entry? n e).bind (·.quire) = some q →
    State.allRead q = false → s.chunkTurn n e q = true → s.chunkRoom n = true → s.acquireTag n = (t, true) →
    (State.readChunk (t.spineReq n (.spine n)) ((s.ctx n).verQuire == 2) 64 q).run t = .ok q' u →
    exec (.opChunkRead n ⟨e, none⟩) s = .next (((u.chunkPoison q q').modQuire n e fun _ => q').settleQuire n e) ∧
    q'.ops.length ≤ min (QuireHdr.ops q.hdr) (q.ops.length + 64) ∧ (q'.cut = false → q'.ops.length = min (QuireHdr.ops q.hdr) (q.ops.length + 64)) ∧
    q.ops <+: q'.ops) ∧
  (∀ (s : State) (n e i times : Nat) (q : Quire) (x : Op), s.running = true → (s.ctx n).phase = .opened →
    s.quire? ⟨n, e, i⟩ = some q → s.op? ⟨n, e, i⟩ = some x → x.over = false →
    exec (.opChunkRead n ⟨e, some (i, times)⟩) s = exec (.opChunkRead n ⟨e, none⟩) (s.rereadOp n e i times) ∧
    (2 ≤ times → x.phase = .waiting → s.rereadOp n e i times = s.failOp ⟨n, e, i⟩ Status.silentError 0) ∧
    (∀ ws v, (State.readRecords (s.spineReq n (.spine n)) q.src (1 + OpHdr.ext x.word) (State.recordPlace q i)).run s = .ok ws v →
      s.rereadOp n e i 1 = v.modOp ⟨n, e, i⟩ fun y => { y with word := ws.headD 0, ext := ws.drop 1 }))

/-- Ops the Spine runs itself. An op that may be dispatched and whose record is legal has its effect. NOP ends OK. BARRIER,
once every earlier op has ended, ends OK, or is cancelled where one was lost and it does not run after failures. FENCE_WAIT
ends OK where its waits are met at once, and otherwise stays dispatched. FENCE_SIGNAL applies its signals in ascending order
and ends OK. HOST_FLAG without read-backs writes its flag to its host port and ends OK; with them it sends them first.
INLINE_DATA writes its payload where that can be written, and ends OK or, with frames to peers outstanding, is settled. -/
def Obligations.SpineOps : Prop :=
  (∀ (s t : State) (o : OpRef) (x : Op), let ends := fun (u : State) (status : Nat) => u.endOp o status 0 0 0
    let sent := t.dispatched o x
    (MayDispatch s t o x 0x00 → t.op? o = some x → opFields x.word = 0 → exec (.nopOp o) s = .next (ends sent Status.ok)) ∧
    (∀ q, MayDispatch s t o x 0x11 → t.op? o = some x → s.quire? o = some q → State.earlierOver q o.op = true → BarrierOp.ok x.word = true →
      (BarrierOp.afterFailure x.word = true ∨ (q.ops.take o.op).any Op.lost = false → exec (.barrier o) s = .next (ends sent Status.ok)) ∧
      (BarrierOp.afterFailure x.word = false → (q.ops.take o.op).any Op.lost = true →
        exec (.barrier o) s = .next ((sent.modOp o fun y => { y with phase := .cancelled }).settleQuire o.ctx o.entry))) ∧
    (MayDispatch s t o x 0x09 → t.op? o = some x → FenceWaitOp.ok x.word = true →
      (∀ k, k < 3 → FenceWaitOp.en x.word k = true → t.fenceInRange (t.ctx o.ctx).partition (FenceWaitOp.fence x.word k) = true) →
      let u := (t.dispatched o { x with body := .fenceWait [] }).latchBodies
      ∀ y met, u.op? o = some y → y.phase = .dispatched → y.word = x.word → y.body = .fenceWait met →
        ((∀ k, k < 3 → FenceWaitOp.en x.word k = true → met.contains k = true) → exec (.fenceWait o) s = .next (ends u Status.ok)) ∧
        ((∃ k, k < 3 ∧ FenceWaitOp.en x.word k = true ∧ met.contains k = false) →
          (∀ k, k < 3 → FenceWaitOp.en x.word k = true → u.fencePoisoned (FenceWaitOp.fence x.word k) = false) → exec (.fenceWait o) s = .next u)) ∧
    (∀ q, MayDispatch s t o x 0x0A → s.quire? o = some q → FenceSignalOp.ok x.word = true →
      (∀ g ∈ State.signalsOf q x.word, t.fenceInRange (t.ctx o.ctx).partition g.fence = true) →
      let u := (State.signalsOf q x.word).foldl State.applySignal t
      (u.op? o).isSome = true → exec (.fenceSignal o) s = .next (ends (u.dispatched o x) Status.ok)) ∧
    (∀ q v w p a, MayDispatch s t o x 0x0B → s.quire? o = some q → HostFlagOp.ok x.word = true →
      (translate { t.spineReq o.ctx (.op o 1000) with targets := 6 } (HostFlagOp.addr x.word) .write).run t = .ok (.host p a) v → (v.op? o).isSome = true →
      (State.flagReadBacks (v.ctx o.ctx) x.word p = [] → (State.writeFlag x (t.spineReq o.ctx (.op o 1000))).run v = .ok () w → ∀ z, w.op? o = some z →
        exec (.hostFlag o) s = .next (ends (w.dispatched o { x with body := .flag [], hostPorts := z.hostPorts }) Status.ok)) ∧
      (∀ b bs, State.flagReadBacks (v.ctx o.ctx) x.word p = b :: bs → Completes (.hostFlag o) s fun u =>
        (∃ y, u.op? o = some y ∧ y.phase = .dispatched ∧ y.word = x.word ∧ y.body = .flag (b :: bs)) ∧
        u.out = v.out ++ (b :: bs).map (fun c => .readBack c (v.reqFn o.ctx c) (if c = p then a else State.firstWritten q o.op c a)))) ∧
    (∀ v, MayDispatch s t o x 0x10 → InlineOp.ok x.word x.ext = true →
      (State.postedWrite (t.spineReq o.ctx (.op o 1000)) 4 (InlineOp.dst x.word) (InlineOp.payload x.ext (InlineOp.len x.word))).run t = .ok () v →
      ∀ z, v.op? o = some z →
      (v.unackedOf o = false → exec (.inlineData o) s = .next (ends (v.dispatched o { x with hostPorts := z.hostPorts }) Status.ok)) ∧
      (v.unackedOf o = true → exec (.inlineData o) s = .next ((v.dispatched o { x with hostPorts := z.hostPorts }).modOp o fun y => { y with phase := .settled }))))

/-- Placement, ends and timeouts of ops and slices. SLICE_PLACEMENT puts a waiting slice on the Stitcher it is bound for, or
on the lowest-numbered eligible cluster free for its class; slices dispatched before it that wait for the same place go
first. SLICE_END reports a slice whose work has ended, and a VECTOR_RUN slice whose tasks have all ended OK; the last one
reported settles its op, with the status of its lowest-numbered failing slice. OP_COMPLETION ends a settled op whose frames
are acknowledged. FENCE_TIMEOUT fails an op whose wait is not met, in its header or its body. READ_BACK_COMPLETE of a
record's last read-back issues the record, and of a flag's last one writes the flag and ends the op. STATUS_ECHO writes an
echo record where the ring place can be written, and no record otherwise. While another op of its quire goes on, an op that
ends keeps its place with its status. -/
def Obligations.OpsAndSlicesEnd : Prop :=
  (∀ (s : State) (o : OpRef) (k c : Nat) (x : Op) (y : Slice), s.running = true → s.op? o = some x → s.slice? o k = some y →
    x.phase = .dispatched → y.phase = .waiting → y.unit ≤ 2 →
    (y.place = some c ∧ s.eligible o.ctx y.unit c = true ∧ (s.cluster c).queue.length < 16 ∧
        (s.cluster c).mode ≠ .handover ∧ s.outranked o k c none = false) ∨
      (y.place = none ∧ (s.eligibles o.ctx y.unit).find? (fun d => s.freeFor y.unit d && !s.outranked o k d (some y.unit)) = some c) →
    Completes (.slicePlacement o k) s fun u => u.slice? o k = some { y with place := some c, phase := .queued } ∧
      u.cluster c = { s.cluster c with queue := (s.cluster c).queue ++ [⟨o, k⟩] } ∧ (∀ d, d ≠ c → u.cluster d = s.cluster d)) ∧
  (∀ (s : State) (o : OpRef) (k c : Nat) (x : Op) (y : Slice), s.running = true → s.op? o = some x → s.slice? o k = some y →
    x.phase = .dispatched → y.place = some c → y.unit ≤ 1 →
    let ok := y.phase = .running ∧ y.unit = 1 ∧ s.heads o k c = true ∧ s.tasksOver o k y = true ∧ ∃ n fl, y.work = .tc n fl none
    (y.phase = .ended ∨ (ok ∧ y.status = 0) → Completes (.sliceEnd o k) s fun u => ∃ (z : Op) (w : Slice), u.op? o = some z ∧ u.slice? o k = some w ∧
      w.phase = .reported ∧ w.status = y.status ∧ ⟨o, k⟩ ∉ (u.cluster c).queue ∧
      ((∃ j, ∃ v : Slice, x.slices[j]? = some v ∧ j ≠ k ∧ v.phase ≠ .reported) → z.phase = .dispatched) ∧
      ((∀ j, ∀ v : Slice, x.slices[j]? = some v → j ≠ k → v.phase = .reported) → z.phase = .settled ∧
        (∀ i : Nat, (∀ j : Nat, ∀ v : Slice, z.slices[j]? = some v → Status.failed v.status = true → i ≤ j) →
          ∀ v : Slice, z.slices[i]? = some v → Status.failed v.status = true → z.status = v.status) ∧
        ((∀ v ∈ z.slices, Status.failed v.status = false) → z.status = Status.ok)))) ∧
  (∀ (s : State) (o : OpRef) (x : Op), s.running = true → s.op? o = some x →
    (x.phase = .settled → s.unackedOf o = false → exec (.opCompletion o) s = .next (s.endOp o x.status x.low x.high x.partMap)) ∧
    ((s.timeoutOf x.word).isSome = true → x.phase = .waiting → s.conditionsHold o = true → s.waitMet o = false →
      exec (.fenceTimeout o) s = .next (s.endOp o Status.fenceTimeout 0 0 0)) ∧
    (∀ met k, (s.timeoutOf x.word).isSome = true → x.phase = .dispatched → x.body = .fenceWait met → k < 3 → FenceWaitOp.en x.word k = true →
      met.contains k = false → exec (.fenceTimeout o) s = .next (s.endOp o Status.fenceTimeout 0 0 0)) ∧
    (∀ p v, x.phase = .dispatched → x.body = .flag [p] → (State.writeFlag x (s.spineReq o.ctx (.op o 1000))).run s = .ok () v →
      exec (.readBackComplete o.ctx o.entry (some o.op)) s = .next (v.endOp o Status.ok 0 0 0))) ∧
  (∀ (s : State) (n e p : Nat) (x : Entry), s.running = true → s.entry? n e = some x → x.readBacks = [p] →
    exec (.readBackComplete n e none) s = .next ((s.modEntry n e fun y => { y with readBacks := [], readBackDone := true }).issue n)) ∧
  (∀ (s t : State) (n : Nat), s.running = true → (s.ctx n).phase = .opened → (s.ctx n).echoUs ≠ 0 → (s.ctx n).mode = .run →
    (s.ctx n).orphaned = false →
    let r : Rec := { seq := (s.ctx n).lastSeq, status := Status.ok }
    (s.tryRecord n r true = .written t → exec (.statusEcho n) s = .next (t.checkWake n)) ∧
    (s.tryRecord n r true = .full → exec (.statusEcho n) s = .next s) ∧
    (∀ va, s.tryRecord n r true = .held va t → exec (.statusEcho n) s = .next t) ∧
    (s.tryRecord n r true = .wait t → exec (.statusEcho n) s = .next t)) ∧
  (∀ (s : State) (o : OpRef) (x : Op) (q : Quire) (status low high pm j : Nat) (y : Op), s.quire? o = some q → s.op? o = some x →
    q.ops[j]? = some y → j ≠ o.op → y.phase = .dispatched ∨ y.phase = .settled →
    ((s.endOp o status low high pm).op? o) = some { x with
      phase := .done, status := if status = Status.ok ∧ x.replayed = true then Status.okReplayed else status, low := low, high := high, partMap := pm, body := .none })

/-- Sessions and owner grants. A permitted read of sess_challenge answers with 32 bytes that become a challenge of the
reader. A permitted sess_open without a session, of a version 3 or 4 and a role 1 or 2 that the key slot allows, that names
a challenge issued to the writer and carries the response its key calls for, opens a session while fewer than 32 are open,
and uses the challenge up; one with another response is refused and opens nothing, and a version outside them names version
4. SESS_CLOSE by the session's own requester and SESSION_IDLE_TIMEOUT end a session with its stage set, its transfers,
snapshots and kept replies. A permitted owner_grant within a session of version 4, with every field as R443 asks, grants its
ranges and uses exactly where its signature verifies. -/
def Obligations.Sessions : Prop :=
  (∀ (s : State) (r : Requester) (d : ObjDef), s.mgmtUp = true → s.board.restartDue = false → s.present 0xC010 1 = some d → s.mayRead r d 1 = true →
    Completes (.sessChallenge r) s fun t => ∃ c : List (BitVec 8), c.length = 32 ∧
      t.amiso = { s.amiso with challenges := (r.path, r.ident, c) :: s.amiso.challenges } ∧ t.out = s.out ++ [itemAnswer r 0xC010 1 0 c] ∧
      t.mem = s.mem ∧ t.fuses = s.fuses) ∧
  (∀ (s : State) (r : Requester) (v : List (BitVec 8)), Permitted s r 0xC010 2 v → r.session = 0 →
    let byte := fun i => leNat ((v.drop i).take 1)
    let c := v.take 32
    let key := AMap.getD s.amiso.opKeys (byte 32) (0, [])
    let wanted := kmac256 key.2 (c ++ (v.drop 40).take 16 ++ leBytes 1 (State.pathNum r.path) ++ leBytes 1 (byte 33)) 256 "AMISO SESSION"
    leNat ((v.drop 35).take 5) = 0 → byte 33 = 1 ∨ byte 33 = 2 →
    ((byte 34 = 3 ∨ byte 34 = 4) → (s.amiso.challenges.any fun x => x == (r.path, r.ident, c)) = true → byte 33 ≤ key.1 →
      ((v.drop 56).take 32 = wanted → s.amiso.sessions.length < 32 → Completes (.sessOpen r v) s fun t =>
        let x : Session :=
          { n := s.amiso.nextSession, path := r.path, ident := r.ident, role := byte 33, version := byte 34
            key := kmac256 key.2 ((v.drop 56).take 32) 256 "AMISO SKEY", challenge := c }
        t.amiso.sessions = s.amiso.sessions ++ [x] ∧ (r.path, r.ident, c) ∉ t.amiso.challenges ∧
        t.out = s.out ++ [itemAnswer r 0xC010 2 0 (leBytes 4 s.amiso.nextSession ++ leBytes 1 (byte 34) ++ leBytes 1 (byte 33) ++ leBytes 2 0)] ∧
        t.fuses = s.fuses ∧ t.mem = s.mem) ∧
      ((v.drop 56).take 32 ≠ wanted → Completes (.sessOpen r v) s fun t => t.amiso.sessions = s.amiso.sessions ∧
        (r.path, r.ident, c) ∉ t.amiso.challenges ∧ t.out = s.out ++ [itemAnswer r 0xC010 2 0x0206 []])) ∧
    (byte 34 ≠ 3 → byte 34 ≠ 4 → Completes (.sessOpen r v) s fun t => t.amiso.sessions = s.amiso.sessions ∧
      t.out = s.out ++ [itemAnswer r 0xC010 2 0x0032 (leBytes 8 4)])) ∧
  (let ended := fun (s t : State) (n : Nat) => t.amiso.sessions = s.amiso.sessions.filter (fun x => x.n != n) ∧
      t.amiso.challenges = s.amiso.challenges ∧ t.amiso.opKeys = s.amiso.opKeys ∧
      (∀ st, (Party.session n, st) ∉ t.amiso.stages) ∧ (∀ x ∈ t.amiso.snapshots, x.party ≠ Party.session n) ∧
      (∀ b ∈ t.amiso.bulks, b.party ≠ Party.session n) ∧ (∀ l, (Party.session n, l) ∉ t.amiso.kept) ∧
      (∀ st p, p ≠ Party.session n → ((p, st) ∈ t.amiso.stages ↔ (p, st) ∈ s.amiso.stages)) ∧ t.mem = s.mem ∧ t.ctxs = s.ctxs ∧ t.fuses = s.fuses;
    (∀ (s : State) (r : Requester) (n : Nat), n < 2 ^ 32 → Permitted s r 0xC010 3 (leBytes 4 n) →
      (s.amiso.sessions.any fun x => x.n == n && x.path == r.path && x.ident == r.ident) = true →
      Completes (.sessClose r n) s fun t => ended s t n ∧ t.out = s.out ++ [itemAnswer r 0xC010 3 0 []]) ∧
    (∀ (s : State) (n : Nat), s.mgmtUp = true → Completes (.sessionIdleTimeout n) s fun t => ended s t n ∧ t.out = s.out ∧ t.objs = s.objs)) ∧
  (∀ (s : State) (r : Requester) (g : List (BitVec 8)) (x : Session), Permitted s r 0xC012 1 g → s.sessionOf r = some x → x.version ≠ 3 →
    let n := leNat ((g.drop 2).take 2)
    let pk := (g.drop 136).take 64
    let uses := leNat ((g.drop 68).take 4)
    g.length = 29992 → leNat (g.take 2) = 1 → 1 ≤ n → n ≤ 16 → (g.drop 4).take 32 = identityHash → (g.drop 36).take 32 = x.challenge →
    uses ≤ 65535 → leNat ((g.drop (72 + 4 * n)).take (64 - 4 * n)) = 0 → shake256 pk 32 = s.ownerHash → s.fuses.owners ≠ [] →
    Completes (.ownerGrant r g) s fun t =>
      let ranges := (List.range n).map fun i => (leNat ((g.drop (72 + 4 * i)).take 2), leNat ((g.drop (74 + 4 * i)).take 2))
      let granted : Session := { x with grant := some ⟨ranges, if uses = 0 then none else some uses⟩ }
      let ok := Config.slhVerify pk (g.take 200) (g.drop 200)
      t.amiso.sessions = s.amiso.sessions.map (fun y => if ok = true ∧ y.n = x.n then granted else y) ∧
      t.out = s.out ++ [itemAnswer r 0xC012 1 (if ok = true then 0 else 0x0206) []] ∧ t.fuses = s.fuses ∧ t.mem = s.mem)

/-- Messages to the dictionary. An admitted READ or WRITE performs its items in order and is answered with their results; a
READ item of a plain readable object answers its value; a WRITE item of a staged object that passes puts its value in the
writer's stage set and commits nothing. COMMIT takes the stage set: a refused one changes nothing and the answer names the
object, an accepted one is committed whole, counts in commit_seq and the answer carries it; COMMIT_DISCARD drops the set.
BULK_PUT's first chunk begins a transfer, and a later one is added; BULK_GET from offset 0 answers the first bytes and keeps
a snapshot of the rest. The timeouts drop the transfer or the snapshot. WIN_GO on an idle window performs the message its
bytes spell; a busy one counts it and changes nothing. Behind a held BAR2 write of its port WIN_GO, or a WRITE of a host
function, waits. -/
def Obligations.Messages : Prop :=
  (∀ (s u t : State) (r : Requester) (h : MsgHead) (pl tr key b : List (BitVec 8)) (l : List (ItemHead × Option (List (BitVec 8)))),
    Admitted s u r 1 h pl tr key → parseItems false 64 pl = some l → l ≠ [] → u.runReads r h.version l = (b, t) →
    Answered (.read r h pl tr) s t r 1 h key 0 b) ∧
  (∀ (s u : State) (r : Requester) (h : MsgHead) (tr key : List (BitVec 8)) (index sub : Nat) (d : ObjDef), let pl := itemBytes index sub d.ty 0 []
    Admitted s u r 1 h pl tr key → index < 65536 → sub < 256 → index ≠ 0xD020 → d.ty < 7 ∨ d.ty = 9 → d.acc ≠ .wo → u.present index sub = some d →
    u.mayRead r d sub = true →
    Answered (.read r h pl tr) s u r 1 h key 0 (itemBytes index sub d.ty 0 (leBytes (Catalog.bytesOf d) (u.objValue index sub)))) ∧
  (∀ (s u t : State) (r : Requester) (h : MsgHead) (pl tr key b : List (BitVec 8)) (l : List (ItemHead × Option (List (BitVec 8)))),
    Admitted s u r 2 h pl tr key → Unheld s r → parseItems true 64 pl = some l → l ≠ [] → u.runWrites r h.version l = (b, t, []) →
    Answered (.write r h pl tr) s t r 2 h key 0 b) ∧
  (∀ (s u : State) (r : Requester) (h : MsgHead) (tr key v : List (BitVec 8)) (index sub : Nat) (d : ObjDef), let pl := itemBytes index sub d.ty 0 v
    Admitted s u r 2 h pl tr key → Unheld s r → index < 65536 → sub < 256 → d.acc = .rwc → d.wr ≠ 4 → v.length < 65536 → u.checkWrite r index sub d.ty v false = .ok d →
    let st := u.stageSet (State.partyOf r)
    st.length < 256 →
    Answered (.write r h pl tr) s (u.setStage (State.partyOf r) (AMap.set st (objKey index sub) (leNat v))) r 2 h key 0 (itemBytes index sub d.ty 0 [])) ∧
  (∀ (s u : State) (r : Requester) (h : MsgHead) (tr key : List (BitVec 8)), Admitted s u r 3 h (leBytes 4 0) tr key → u.committing = false →
    let p := State.partyOf r
    let st := u.stageSet p
    let v := u.setStage p []
    (∀ k, st ≠ [] → v.refusing st = some k → Answered (.commit r h (leBytes 4 0) tr) s v r 3 h key 0x0206
      (leBytes 4 (s.obj 0x1030 1) ++ leBytes 2 (k / 256) ++ leBytes 2 (k % 256))) ∧
    (st = [] → Answered (.commit r h (leBytes 4 0) tr) s v r 3 h key 0 (leBytes 8 (s.obj 0x1030 1))) ∧
    (st ≠ [] → v.refusing st = none → (∀ e ∈ st, e.1 / 256 ∉ [0x3000, 0x3001, 0x3104, 0x7010, 0x7011, 0x7012, 0x7013, 0x7014, 0x7015, 0x9110]) →
      let t := ((v.putAll st).addObj 0x1030 1 1).bindPins
      Answered (.commit r h (leBytes 4 0) tr) s t r 3 h key 0 (leBytes 8 (t.obj 0x1030 1))) ∧
    (∀ t, st ≠ [] → v.commitSet st = .ok (t, []) → Answered (.commit r h (leBytes 4 0) tr) s t r 3 h key 0 (leBytes 8 (t.obj 0x1030 1)))) ∧
  (∀ (s u : State) (r : Requester) (h : MsgHead) (tr key : List (BitVec 8)), Admitted s u r 3 h (leBytes 4 1) tr key → u.committing = false → h.version = 4 →
    Answered (.commitDiscard r h (leBytes 4 1) tr) s (u.setStage (State.partyOf r) []) r 3 h key 0 (leBytes 8 (s.obj 0x1030 1))) ∧
  (∀ (s u : State) (r : Requester) (h : MsgHead) (tr key data : List (BitVec 8)) (index sub total : Nat) (d : ObjDef),
    index < 65536 → sub < 256 → u.present index sub = some d → u.mayWrite r d sub = true → d.acc = .wo → d.ty = 8 → total ≤ d.size → d.size < 2 ^ 32 →
    data.length ≤ chunkMax h.version → (u.amiso.bulks.any fun b => b.index == index && b.sub == sub && b.party != State.partyOf r) = false → index ≠ 0xC020 →
    let rest := u.amiso.bulks.filter fun b => !(b.index == index && b.sub == sub)
    let kept := fun got : List (BitVec 8) =>
      let b : Bulk := { party := State.partyOf r, index := index, sub := sub, total := total, got := got }
      ({ u with amiso := { u.amiso with bulks := b :: rest } } : State)
    (let pl := State.bulkHead index sub false data.length 0 total ++ data
     Admitted s u r 4 h pl tr key → data.length ≤ total →
     Answered (.bulkPut r h pl tr) s (kept data) r 4 h key 0 (State.bulkHead index sub false data.length 0 total)) ∧
    (∀ got, 0 < got.length → (u.amiso.bulks.find? fun b => b.index == index && b.sub == sub && b.party == State.partyOf r) =
        some { party := State.partyOf r, index := index, sub := sub, total := total, got := got } →
      let pl := State.bulkHead index sub false data.length got.length total ++ data
      Admitted s u r 4 h pl tr key → (got ++ data).length ≤ total →
      Answered (.bulkPut r h pl tr) s (kept (got ++ data)) r 4 h key 0 (State.bulkHead index sub false data.length got.length total))) ∧
  (∀ (s u t : State) (r : Requester) (h : MsgHead) (tr key b : List (BitVec 8)) (index sub want total : Nat) (d : ObjDef),
    index < 65536 → sub < 256 → want ≤ chunkMax h.version → total < 2 ^ 32 → let pl := State.bulkHead index sub false want 0 total
    Admitted s u r 5 h pl tr key → u.present index sub = some d → u.mayRead r d sub = true → d.acc ≠ .wo → d.ty = 8 →
    u.readObj r d sub = (some b, t) → b.length ≤ 262144 →
    let rest := t.amiso.snapshots.filter fun x => !(x.party == State.partyOf r && x.index == index && x.sub == sub)
    let more : List Snapshot := if b.length ≤ want then [] else [{ party := State.partyOf r, index := index, sub := sub, bytes := b }]
    Answered (.bulkGet r h pl tr) s { t with amiso := { t.amiso with snapshots := more ++ rest } } r 5 h key 0
      (State.bulkHead index sub false (min want b.length) 0 b.length ++ b.take want)) ∧
  (∀ (s : State) (r : Requester) (index sub : Nat), s.running = true →
    (Completes (.bulkTransferTimeout index sub) s fun t =>
      t.amiso = { s.amiso with bulks := s.amiso.bulks.filter fun b => b.index ≠ index ∨ b.sub ≠ sub } ∧ t.objs = s.objs ∧ t.out = s.out ∧ t.mem = s.mem) ∧
    let left := s.amiso.snapshots.filter fun x => x.party ≠ State.partyOf r ∨ x.index ≠ index ∨ x.sub ≠ sub
    exec (.snapshotTimeout r index sub) s = .next { s with amiso := { s.amiso with snapshots := left } }) ∧
  (∀ (s : State) (ff v kind session : Nat) (h : MsgHead) (body : List (BitVec 8)), s.fnUp ff = true → s.behind (ff / 8) = false → let w := AMap.getD s.wins ff {}
    (w.phase = 1 → exec (.winGo ff v) s = .next (s.addObj 0xC010 7 1)) ∧
    (w.phase ≠ 1 → 16 ≤ v → v ≤ 1488 → v ≤ w.req.length → body.length = v - 16 → h.tag < 2 ^ 32 → h.version < 256 → kind < 256 → session < 2 ^ 32 →
      w.req.take v = leBytes 1 h.version ++ leBytes 1 kind ++ leBytes 2 0 ++ leBytes 4 h.tag ++ leBytes 2 0 ++ leBytes 2 body.length ++ leBytes 4 session ++ body →
      let busy : State := { s with wins := AMap.set s.wins ff { w with phase := 1 } }
      let r : Requester := ⟨if ff < 8 then .hostA else .hostB, ff % 8, session⟩
      exec (.winGo ff v) s = .next (busy.request (.message r kind h.version h.tag body [])) ∧
      (kind = 1 → exec (.winGo ff v) s = exec (.read r h body []) busy) ∧
      (kind = 2 → exec (.winGo ff v) s = exec (.write r h body []) busy))) ∧
  (∀ (s : State) (ff v : Nat) (r : Requester) (h : MsgHead) (pl tr : List (BitVec 8)),
    (s.behind (ff / 8) = true → exec (.winGo ff v) s = .next (s.holdHost (ff / 8) (.winGo ff v))) ∧
    (∀ p, State.hostPortOf r = some p → s.behind p = true → exec (.write r h pl tr) s = .next (s.holdHost p (.write r h pl tr))))

/-- Writes of single objects. A permitted ATTN_ACK sets its reader's acknowledgement; ATTENTION_LOG_WRITE moves the oldest
waiting event into the log over the entry at its position; SPARE_REQUEST of a cluster that is not retired makes a sparing
due; INJECT_POISON marks its atom and changes no byte. An answer to a posted swarm takes it from the posted ones: RETRY has
its accesses walk again in order, FAIL fails them with their statuses; one to a swarm that is not posted changes nothing.
FAULT_RING_DISABLE clears the ring's enable, drops the swarms not yet posted and counts their entries. REGISTER_WRITE sets
an object that is read and written, or a register of BAR0 (here echo_us, and the bytes of an idle window). -/
def Obligations.DictionaryActions : Prop :=
  (∀ (s : State) (r : Requester) (rr v : Nat), Permitted s r 0xA020 rr (leBytes 4 v) → v < 2 ^ 32 →
    Completes (.attnAck r rr v) s fun t => Noted ((s.setObj 0xA020 rr v).send (itemAnswer r 0xA020 rr 0 [])) t) ∧
  (∀ (s : State) (e : Event) (rest : List Event), s.mgmtUp = true → s.attn.waiting = e :: rest → Completes .attentionLogWrite s fun t =>
    t.attn = { s.attn with waiting := rest, log := s.attn.log.filter (fun x => x.seq % 1024 ≠ e.seq % 1024) ++ [e] } ∧
    t.out = s.out ∧ t.mem = s.mem ∧ ((∀ x ∈ s.attn.log, x.seq % 1024 ≠ e.seq % 1024) → t.objs = s.objs)) ∧
  (∀ (s : State) (r : Requester) (c v : Nat), Permitted s r 0x5005 c (leBytes 1 v) → s.obj 0x5003 c ≠ 3 → Completes (.spareRequest r c v) s fun t =>
    (∀ x, x ∈ t.sparing.triggers ↔ x = c ∨ x ∈ s.sparing.triggers) ∧ t.sparing.active = s.sparing.active ∧ t.clusters = s.clusters ∧
    t.out = s.out ++ [itemAnswer r 0x5005 c 0 []]) ∧
  (∀ (s : State) (r : Requester) (a : Nat), Permitted s r 0xD010 1 (leBytes 8 a) → a < coverTop ∨ (bulkBase ≤ a ∧ a < 0x5800000000) → s.withdrawn a = false →
    Completes (.injectPoison r a) s fun t => (∀ x, x ∈ t.poison ↔ x = a / 64 ∨ x ∈ s.poison) ∧ t.mem = s.mem ∧ t.far = s.far ∧
      t.out = s.out ++ [itemAnswer r 0xD010 1 0 []]) ∧
  (∀ (s : State) (r : Requester) (port seq : Nat), let mine := fun y : Stall => y.port == port && y.seq == some (seq % 2 ^ 32)
    let posted := (s.swarmPort port).posted.any fun w => w.seq == seq % 2 ^ 32
    let stalls := s.trans.stalls.filter fun y => !mine y
    let left := { s.swarmPort port with posted := (s.swarmPort port).posted.filter fun w => w.seq != seq % 2 ^ 32 }
    (Permitted s r 0x4201 port (leBytes 8 (seq % 2 ^ 32)) → Unheld s r →
      (posted = true → Completes (.faultResumeRetry r port seq) s fun t => t.swarmPort port = left ∧ t.trans.stalls = stalls ∧
        t.trans.walks = s.trans.walks ++ (s.trans.stalls.filter mine).map (fun x => ⟨x.req, x.va, x.access⟩) ∧
        t.trans.failing = s.trans.failing ∧ t.out = s.out ++ [itemAnswer r 0x4201 port 0 []] ∧ t.mem = s.mem ∧ t.ctxs = s.ctxs) ∧
      (posted = false → Completes (.faultResumeRetry r port seq) s fun t => Noted (s.send (itemAnswer r 0x4201 port 0 [])) t)) ∧
    (Permitted s r 0x4201 port (leBytes 8 (seq % 2 ^ 32 + 2 ^ 32)) → Unheld s r → posted = true →
      Completes (.faultResumeFail r port seq) s fun t => t.swarmPort port = left ∧ t.trans.stalls = stalls ∧
        t.trans.failing = s.trans.failing ++ (s.trans.stalls.filter mine).map (fun x => (x.req.who, x.va / 4096, x.status)) ∧
        t.trans.walks = s.trans.walks ∧ t.out = s.out ++ [itemAnswer r 0x4201 port 0 []] ∧ t.mem = s.mem ∧ t.ctxs = s.ctxs)) ∧
  (∀ (s : State) (r : Requester) (port : Nat), let v := s.obj 0x4200 port
    Permitted s r 0x4200 port (leBytes 16 (setBits v 0 0 0)) → v < 2 ^ 128 → flag v 0 = true → Completes (.faultRingDisable r port) s fun t =>
      t.obj 0x4200 port = v - 1 ∧ (t.swarmPort port).opened = [] ∧ (t.swarmPort port).closed = [] ∧
      (t.swarmPort port).posted = (s.swarmPort port).posted ∧
      (∀ y ∈ t.trans.stalls, y.port = port → (s.swarmPort port).posted.any (fun w => some w.seq == y.seq) = true) ∧
      t.mem = s.mem ∧ t.ctxs = s.ctxs ∧ t.out = s.out ++ [itemAnswer r 0x4200 port 0 []]) ∧
  (∀ (s : State) (r : Requester) (index sub size v : Nat) (d : ObjDef), Permitted s r index sub (leBytes size v) → Unheld s r → v < 256 ^ size →
    Catalog.find index sub = some d → d.acc = .rw → d.wr ≠ 4 → index ∉ [0x4110, 0x4120, 0x4200, 0x6210] →
    Completes (.registerWrite (.object r index sub) size v) s fun t => Noted ((s.setObj index sub v).send (itemAnswer r index sub 0 [])) t) ∧
  (∀ (s : State) (ff n v size : Nat), s.fnUp ff = true → s.behind (ff / 8) = false →
    (n < 1024 → s.portsUp = true → s.ownsPage ff n = true → 100 ≤ v → v ≤ 10000000 →
      exec (.registerWrite (.bar0 ff (4096 * n + 0x28)) 8 v) s = .next (s.setCtx n { s.ctx n with echoUs := v })) ∧
    ((size = 4 ∨ size = 8) → n % size = 0 → n + size ≤ 2048 → let w := AMap.getD s.wins ff {}
      w.phase ≠ 1 → w.req.length = 2048 →
      let req := w.req.take n ++ leBytes size v ++ w.req.drop (n + size)
      exec (.registerWrite (.bar0 ff (0xC00000 + n)) size v) s = .next { s with wins := AMap.set s.wins ff { w with req := req } }))

/-- Contexts begin, end and change owner. While the device accepts contexts, a permitted creation that passes R316 opens the
lowest free context with what the request says and answers its number, and one that fails answers its status and opens
nothing. A permitted teardown of an open context by its function or an operator starts tearing it down: nothing of it is in
progress, and the answer waits; TEARDOWN_COMPLETE, with no write unacknowledged and no record left to write, closes it and
answers. CTX_ORPHAN and ORPHAN_MS_EXPIRY orphan shared contexts; CTX_ATTACH that passes R408 gives the context its new
owner; ORPHAN_LIMIT_EXPIRY tears an orphan down. -/
def Obligations.Contexts : Prop :=
  (∀ (s : State) (r : Requester) (w : Nat), Permitted s r 0x3020 1 (leBytes 64 w) → w < 2 ^ 512 → s.accepting = true →
    (∀ n, s.createStatus r w = 0 → s.freeCtx = some n → Completes (.ctxCreate r w) s fun t =>
      t.ctx n = s.newCtx w ∧ (t.ctx n).phase = .opened ∧ (t.ctx n).partition = CtxReq.partition w ∧ (t.ctx n).cls = CtxReq.cls w ∧
      (t.ctx n).root = CtxReq.root w ∧ (∀ m, m ≠ n → t.ctx m = s.ctx m) ∧
      (∀ c, c < 64 → t.cluster c = if CtxReq.cls w = 0 ∧ flag (CtxReq.c0 w) c = true then { s.cluster c with resident := some n } else s.cluster c) ∧
      t.out = s.out ++ [itemAnswer r 0x3020 1 0 (leBytes 8 n)] ∧ t.mem = s.mem) ∧
    (s.createStatus r w ≠ 0 → Completes (.ctxCreate r w) s fun t =>
      Noted (s.send (itemAnswer r 0x3020 1 0 (leBytes 8 (s.createStatus r w * 2 ^ 16)))) t)) ∧
  (∀ (s : State) (r : Requester) (n : Nat), Permitted s r 0x3020 2 (leBytes 2 n) → n < 1024 → (s.ctx n).phase = .opened →
    (s.operatorOf r 0x3020 = true ∨ hostFnOf r = some (8 * (s.ctx n).port + (s.ctx n).fn)) → Completes (.ctxTeardown r n) s fun t =>
      (t.ctx n).phase = .tearing ∧ (t.ctx n).entries = [] ∧
      (∃ b, t.amiso.answers = s.amiso.answers ++ [{ r := r, tag := none, bytes := b, waits := [n], key := [], commit := false }] ∧
        Out.amiso r.path r.ident b = itemAnswer r 0x3020 2 0 [])) ∧
  (∀ (s : State) (n : Nat), s.running = true → (s.ctx n).phase = .tearing → s.ctxUnacked n = false → (s.ctx n).tearing = [] →
    s.amiso.commits = [] →
    Completes (.teardownComplete n) s fun t => t.ctx n = {} ∧ (∀ m, m ≠ n → t.ctx m = s.ctx m) ∧ (∀ c, (t.cluster c).resident ≠ some n) ∧
      (∀ a ∈ t.amiso.answers, n ∉ a.waits) ∧ t.fuses = s.fuses) ∧
  (∀ (s : State) (r : Requester) (n : Nat), Permitted s r 0x9063 1 (leBytes 2 n) → n < 1024 → (s.ctx n).phase = .opened →
    (s.ctx n).shared = true → (s.ctx n).orphaned = false → Completes (.ctxOrphan r n) s fun t =>
      t.ctx n = { s.ctx n with orphaned := true, wake := none } ∧ (∀ m, m ≠ n → t.ctx m = s.ctx m) ∧
      t.out = s.out ++ [itemAnswer r 0x9063 1 0 []] ∧ t.mem = s.mem) ∧
  (∀ (s : State) (r : Requester) (w f : Nat), Permitted s r 0x9060 1 (leBytes 64 w) → w < 2 ^ 512 → hostFnOf r = some f → s.attachStatus f w = 0 →
    let n := State.attachCtx w
    let c := s.ctx n
    c.entries = [] → Completes (.ctxAttach r w) s fun t =>
      (t.ctx n).port = f / 8 ∧ (t.ctx n).fn = f % 8 ∧ (t.ctx n).orphaned = false ∧ (t.ctx n).attached = (f != s.partFn c.partition) ∧
      (t.ctx n).produced = c.consumed ∧ (t.ctx n).consumed = c.consumed ∧ (t.ctx n).cqConsumed = c.cqPosted ∧ (t.ctx n).mode = .run ∧
      itemAnswer r 0x9060 1 0 (leBytes 16 (c.consumed * 2 ^ 64 + c.cqPosted * 2 ^ 96)) ∈ t.out) ∧
  (∀ (s : State) (port : Nat), s.running = true → (s.hostPort port).link ≠ 2 → Completes (.orphanMsExpiry port) s fun t =>
    (∀ n, (s.ctx n).phase = .opened → (s.ctx n).port = port → (s.ctx n).fn < 8 → (s.ctx n).shared = true → (t.ctx n).orphaned = true) ∧
    (∀ n, (s.ctx n).shared = false → t.ctx n = s.ctx n) ∧ t.out = s.out ∧ t.mem = s.mem) ∧
  (∀ (s : State) (n : Nat), s.running = true → (s.ctx n).orphaned = true → (s.ctx n).phase = .opened → s.obj 0x9062 2 ≠ 0 →
    Completes (.orphanLimitExpiry n) s fun t => (t.ctx n).phase = .tearing ∧ (t.ctx n).entries = [] ∧ (t.ctx n).cqPosted = (s.ctx n).cqPosted ∧
      t.mem = s.mem)

/-- Walks, tag evictions, swarms and invalidations. PAGE_WALK serves the first request of class 0 among the first 64,
otherwise the oldest: its translation is filled, or its fault is reported, or its failure waits for the requester.
TAG_EVICTION_COMPLETE binds an evicting tag, once no walk under it is queued, to the root it was evicted for.
SWARM_TIMER_CLOSE closes an open swarm, which is posted where the ring and the link take it and otherwise waits and counts;
SWARM_POST posts the waiting one, and accesses without an entry walk again. A legal INVALIDATE of each scope that may be
dispatched removes every buffer entry in its scope; it stays dispatched while a tag is bound to its spaces, and ends OK
otherwise; while a tag is bound it takes its place among the drains, and removes its entries once it is one of the eight
drained at a time. INVALIDATE_DRAIN_COMPLETE ends one with nothing left to wait for. -/
def Obligations.WalksAndInvalidations : Prop :=
  (∀ (s : State) (w : Walk) (a b : List Walk), s.running = true → s.trans.walks = a ++ w :: b →
    ((w.req.cls = 0 ∧ a.length < 64 ∧ ∀ x ∈ a, x.req.cls ≠ 0) ∨ (a = [] ∧ ∀ x ∈ (w :: b).take 64, x.req.cls ≠ 0)) →
    (∀ x ∈ a ++ b, x.req.root ≠ w.req.root ∨ x.va / 4096 ≠ w.va / 4096) → (s.tagOf w.req.root).isSome = true →
    let u : State := { s with trans := { s.trans with walks := a ++ b } }
    (∀ x t, (translate w.req w.va w.access).run u = .ok x t → exec .pageWalk s = .next t) ∧
    (∀ r va level cause acc st t, (translate w.req w.va w.access).run u = .error (.stall r va level cause acc st) t →
      exec .pageWalk s = .next (u.addStall r va level cause acc st)) ∧
    (∀ st code t, (translate w.req w.va w.access).run u = .error (.fail st code) t → Completes .pageWalk s fun z =>
      z = { t with trans := { t.trans with failing := t.trans.failing ++ [(w.req.who, w.va / 4096, st)] } })) ∧
  (∀ (s : State) (tt : Nat), s.running = true → (s.tag tt).evicting = true →
    ((∃ w ∈ s.trans.walks, (s.tag tt).root = some w.req.root) → exec (.tagEvictionComplete tt) s = .next s) ∧
    let v : State := { s with trans := { s.trans with drains := s.trans.drains.filter (· != .tag tt) } }
    let u := v.setTag tt { root := some (s.tag tt).nextRoot, pinned := (s.tag tt).nextPinned && s.pinnedRoot (s.tag tt).nextRoot, left := s.trans.tick }
    ((∀ w ∈ s.trans.walks, (s.tag tt).root ≠ some w.req.root) → exec (.tagEvictionComplete tt) s = .next u.bindPins.issueAll) ∧ (tt < s.trans.tags.length → (u.tag tt).root = some (s.tag tt).nextRoot) ∧
    ((∀ nn, nn < 8 → flag (s.obj 0x3104 nn) 0 = false) → u.bindPins = u)) ∧
  (∀ (s : State) (p : Nat), p < 2 → s.running = true → s.ringEnabled p = true → let x := s.swarmPort p
    x.opened ≠ [] → x.closed = [] → let w : Swarm := ⟨x.nextSeq, 1, x.opened⟩
    (s.canPost p = true → Completes (.swarmTimerClose p) s fun t =>
      t.swarmPort p = { x with opened := [], nextSeq := (x.nextSeq + 1) % 2 ^ 32, posted := x.posted ++ [w] } ∧
      bits (t.obj 0x4200 p) 95 64 = (bits (s.obj 0x4200 p) 95 64 + 1) % 2 ^ 32 ∧ t.mem = s.mem ∧ t.trans.stalls = s.trans.stalls) ∧
    (s.canPost p = false → Completes (.swarmTimerClose p) s fun t =>
      t.swarmPort p = { x with opened := [], nextSeq := (x.nextSeq + 1) % 2 ^ 32, closed := [w], waited := true } ∧
      t.out = s.out ∧ t.mem = s.mem ∧ t.trans.stalls = s.trans.stalls)) ∧
  (∀ (s : State) (p : Nat) (w : Swarm) (more : List Swarm), p < 2 → s.running = true → let x := s.swarmPort p
    x.closed = w :: more → s.canPost p = true → x.opened.length ≠ 32 → Completes (.swarmPost p) s fun t =>
      t.swarmPort p = { x with closed := more, waited := !more.isEmpty, posted := x.posted ++ [w] } ∧
      t.trans.stalls = s.trans.stalls.filter (fun y => !(y.port == p && y.seq.isNone)) ∧
      t.trans.walks = s.trans.walks ++ (s.trans.stalls.filter (fun y => y.port == p && y.seq.isNone)).map (fun y => ⟨y.req, y.va, y.access⟩) ∧
      bits (t.obj 0x4200 p) 95 64 = (bits (s.obj 0x4200 p) 95 64 + 1) % 2 ^ 32 ∧ t.mem = s.mem) ∧
  (∀ (s t : State) (o : OpRef) (x : Op) (scope : Nat), MayDispatch s t o x 0x0D → t.op? o = some x → InvOp.ok x.word = true →
    InvOp.scope x.word = scope →
    let c := t.ctx o.ctx
    (c.placeRight = true ∨ (scope ≠ 2 ∧ (InvOp.root x.word = 0 ∨ InvOp.root x.word = c.root))) →
    let roots := if scope = 2 then t.partRoots c.partition else if InvOp.root x.word = 0 then [c.root] else [InvOp.root x.word]
    let covered := fun e : TEnt => t.tagIn roots e.tag &&
      (scope != 0 || (decide (e.page < InvOp.va x.word + InvOp.pages x.word) && decide (InvOp.va x.word < e.page + e.pages)))
    let v := if (List.range 32).any (t.tagIn roots) then t.queueDrain o else t
    let u := (v.dropEntries covered).dispatched o { x with body := .invalidate roots (InvOp.va x.word) (InvOp.pages x.word) (scope != 0) }
    let after := if (List.range 32).any (t.tagIn roots) then (if v.drainTurn o then u else v) else u.endOp o Status.ok 0 0 0
    (scope = 0 → exec (.invalidateRange o) s = .next after) ∧ (scope = 1 → exec (.invalidateSpace o) s = .next after) ∧
    (scope = 2 → exec (.invalidatePartition o) s = .next after) ∧ (∀ e ∈ u.trans.centralBuf, covered e = false) ∧
    (∀ k, ∀ e ∈ u.buffer (some k), covered e = false)) ∧
  (∀ (s : State) (o : OpRef) (x : Op) (roots : List Nat) (lo pages : Nat) (whole : Bool), s.running = true → s.op? o = some x →
    x.phase = .dispatched → x.body = .invalidate roots lo pages whole → s.drainPending roots lo pages whole = false →
    exec (.invalidateDrainComplete o) s = .next (s.endOp o Status.ok 0 0 0))

/-- Mailbox requests. While go words are taken and no held BAR2 write of the port stands before, one of a function in its
own enabled idle slot that passes R305 has its kind's effect and is answered: NOP with nothing; a READ with the bytes of an
access that goes through, or with the status of one that fails; a WRITE with nothing once its frames are acknowledged;
FENCE_SIGNAL applies a mode of 1 to 3 to a fence in range; FENCE_READ answers a sound fence in range, and POISON_CONSUMED
for a poisoned one; STATUS answers the queue's state, its counts and its records held. One that does not pass is answered
with its status; one of a foreign or disabled slot, or of a busy one, is counted and has no effect. A reply of a mailbox v2
context is written to the slot's reply buffer where the host can be reached, and one of v1 is kept in the slot; either way
the slot is idle. A READ or WRITE whose space has no tag yet, or whose access is held, keeps its slot busy. Behind a held
BAR2 write of its port a go word waits. -/
def Obligations.Mailboxes : Prop :=
  (∀ (s : State) (ff slot : Nat) (g : GoWord) (pl : List (BitVec 8)), let nn := ff / 8 * 32 + slot % 32
    let w := fun kind => ({ ctx := g.context, kind := kind, tag := g.tag, payload := pl.take g.len } : MboxWait)
    let p := pl.take g.len
    let part := (s.ctx g.context).partition
    let wait := fun kind => s.setMboxSlot nn { s.mboxSlot nn with waiting := some (w kind) }
    s.portsUp = true → s.behind (ff / 8) = false → flag (s.obj 0x9050 nn) 0 = true → s.mboxFn nn = ff → (s.mboxSlot nn).waiting = none →
    (s.mboxStatus nn 0 g = none → exec (.mboxNop ff slot g pl) s = .next (s.mboxReply nn (w 0) Status.ok [])) ∧
    (∀ z, s.mboxStatus nn 1 g = none → (wait 1).acquireTag g.context = (z, true) → let n := leNat ((p.drop 8).take 2)
      1 ≤ n → n ≤ 240 →
      (∀ bytes u, (readVA (z.mboxReq nn g.context) (leNat (p.take 8)) n).run z = .ok bytes u →
        exec (.mboxRead ff slot g pl) s = .next (u.mboxReply nn (w 1) Status.ok bytes)) ∧
      (∀ st code u, (readVA (z.mboxReq nn g.context) (leNat (p.take 8)) n).run z = .error (.fail st code) u →
        exec (.mboxRead ff slot g pl) s = .next (u.mboxReply nn (w 1) st [])) ∧
      (∀ u, (readVA (z.mboxReq nn g.context) (leNat (p.take 8)) n).run z = .error .hold u → exec (.mboxRead ff slot g pl) s = .next z)) ∧
    (∀ z, (wait 1).acquireTag g.context = (z, false) → s.mboxStatus nn 1 g = none → exec (.mboxRead ff slot g pl) s = .next z) ∧
    (∀ z, (wait 2).acquireTag g.context = (z, false) → s.mboxStatus nn 2 g = none → exec (.mboxWrite ff slot g pl) s = .next z) ∧
    (∀ z u, s.mboxStatus nn 2 g = none → (wait 2).acquireTag g.context = (z, true) →
      (writeVA (z.mboxReq nn g.context) (leNat (p.take 8)) (p.drop 8)).run z = .ok () u →
      (u.unackedOf (State.mboxOwner nn g.context) = false → exec (.mboxWrite ff slot g pl) s = .next (u.mboxReply nn (w 2) Status.ok [])) ∧
      (u.unackedOf (State.mboxOwner nn g.context) = true →
        exec (.mboxWrite ff slot g pl) s = .next (u.setMboxSlot nn { u.mboxSlot nn with waiting := some { w 2 with sent := true } }))) ∧
    (s.mboxStatus nn 3 g = none → let f := leNat ((p.drop 8).take 2)
      let mode := leNat ((p.drop 10).take 1)
      1 ≤ mode → mode ≤ 3 → s.fenceInRange part f = true →
      exec (.mboxFenceSignal ff slot g pl) s = .next ((s.applySignal ⟨f, mode, leNat (p.take 8)⟩).mboxReply nn (w 3) Status.ok [])) ∧
    (s.mboxStatus nn 4 g = none → s.fenceInRange part (leNat (p.take 2)) = true →
      exec (.fenceRead ff slot g pl) s = .next (if s.fencePoisoned (leNat (p.take 2)) then s.mboxReply nn (w 4) Status.poisonConsumed []
        else s.mboxReply nn (w 4) Status.ok (leBytes 8 (s.fence (leNat (p.take 2)))))) ∧
    (s.mboxStatus nn 5 g = none → let c := s.ctx g.context
      exec (.mboxStatus ff slot g pl) s = .next (s.mboxReply nn (w 5) Status.ok
        (leBytes 4 (s.qState g.context) ++ leBytes 4 c.consumed ++ leBytes 4 c.cqPosted ++ leBytes 1 (c.entries.filter (·.pooled)).length))) ∧
    (∀ kind st mk, (kind, mk) ∈ [(0, Instr.mboxNop), (1, .mboxRead), (2, .mboxWrite), (3, .mboxFenceSignal), (4, .fenceRead), (5, .mboxStatus)] →
      s.mboxStatus nn kind g = some st → exec (mk ff slot g pl) s = .next (s.mboxReply nn (w kind) st []))) ∧
  (∀ (s : State) (ff slot : Nat) (g : GoWord) (pl : List (BitVec 8)) (mk : Nat → Nat → GoWord → List (BitVec 8) → Instr), let nn := ff / 8 * 32 + slot % 32
    mk ∈ [Instr.mboxNop, .mboxRead, .mboxWrite, .mboxFenceSignal, .fenceRead, .mboxStatus] →
    (s.behind (ff / 8) = true → exec (mk ff slot g pl) s = .next (s.holdHost (ff / 8) (mk ff slot g pl))) ∧ (s.portsUp = true → s.behind (ff / 8) = false →
    (flag (s.obj 0x9050 nn) 0 = false ∨ s.mboxFn nn ≠ ff → exec (mk ff slot g pl) s = .next (s.addObj 0x9051 (ff / 8) 1)) ∧
    (flag (s.obj 0x9050 nn) 0 = true → s.mboxFn nn = ff → (s.mboxSlot nn).waiting ≠ none →
      exec (mk ff slot g pl) s = .next (s.addObj 0x9052 (ff / 8) 1)))) ∧
  (∀ (s : State) (nn : Nat) (w : MboxWait) (status : Nat) (pl : List (BitVec 8)), let t := s.mboxReply nn w status pl
    let ff := s.mboxFn nn
    (t.mboxSlot nn).waiting = none ∧ t.mem = s.mem ∧ t.ctxs = s.ctxs ∧
    (s.mboxV1 w.ctx = false → s.hostUp (ff / 8) (ff % 8) = true → t.out = s.out ++ [.hostWrite (ff / 8) (ff % 8)
      (bits (s.obj 0x9050 nn) 127 72 * 256) (mboxBytes w.tag status (s.statusWord ff) w.kind pl) false false]) ∧
    (s.mboxV1 w.ctx = true → t.out = s.out ∧ (t.mboxSlot nn).reply = mboxBytes (2 ^ 32 - 1) status (s.statusWord ff) w.kind pl))

/-- Host ports, configuration space and BAR2. HOST_PORT_READY brings a port's link up. PERST, or a hot reset or Link
Disable, puts a port and its functions at their defaults, orphans its shared contexts and tears its others down; the other
port, its functions and their contexts stay as they are, but that their records may take pool places that the ended ones
free (R301, R404). HOST_LINK_DOWN leaves configuration and contexts; FLR_PF and FLR_VF put the functions at their defaults
and tear down their contexts, shared or not; a VF's removal takes those above it along. BUS_MASTER_ENABLE_CLEAR and
CONFIG_SPACE_WRITE set what they name. A BAR2 access that is not refused, with no held write of its port before it and none
of its unit or folio to wait for, reads or writes the memory its window maps, and a write changes no byte outside it; a
refused one reads all ones or is discarded, and counts. One that has to wait is held, with what comes from its port after
it. COMPLETION_TIMEOUT counts, and fails the block whose read it was. -/
def Obligations.HostPorts : Prop :=
  (∀ (s : State) (port width speed : Nat) (flit : Bool), s.running = true → port < 2 → Completes (.hostPortReady port width speed flit) s fun t =>
    t.hostPort port = { s.hostPort port with link := 2, width := width, speed := speed, flit := flit } ∧ t.obj 0x2001 port = 2 ∧
    t.hostPort (1 - port) = s.hostPort (1 - port) ∧ t.fns = s.fns ∧ t.ctxs = s.ctxs ∧ t.mem = s.mem) ∧
  (∀ (s : State) (port kind : Nat), s.running = true → port < 2 → s.ctxs.sorted = true → Completes (.perst port kind) s fun t =>
    t.hostPort port = {} ∧ t.hostPort (1 - port) = s.hostPort (1 - port) ∧ t.obj 0x2001 port = 1 ∧ t.mem = s.mem ∧
    (∀ ff, t.fn ff = if ff / 8 = port then {} else s.fn ff) ∧
    (∀ n, let c := s.ctx n
      (c.phase = .opened → c.fn < 8 → c.port = port → c.shared = false → (t.ctx n).phase = .tearing ∧ (t.ctx n).entries = []) ∧
      (c.phase = .opened → c.fn < 8 → c.port = port → c.shared = true → (t.ctx n).orphaned = true ∧ (t.ctx n).phase = .opened) ∧
      (c.phase ≠ .opened ∨ (c.fn < 8 ∧ c.port ≠ port) → ({ t.ctx n with entries := [] } : Ctx) = { c with entries := [] } ∧ (t.ctx n).entries.map (·.n) = c.entries.map (·.n)))) ∧
  (∀ (s : State) (port : Nat), s.running = true → (s.hostPort port).link = 2 → Completes (.hostLinkDown port) s fun t =>
    t.hostPort port = { s.hostPort port with link := 1, width := 0, speed := 0, flit := false } ∧ (∀ p, p ≠ port → t.hostPort p = s.hostPort p) ∧
    t.obj 0x2001 port = 1 ∧ t.fns = s.fns ∧ t.ctxs = s.ctxs ∧ t.mem = s.mem) ∧
  (∀ (s : State) (port : Nat), s.running = true → (s.hostPort port).link = 2 → s.ctxs.sorted = true → Completes (.flrPf port) s fun t =>
    t.hostPort port = { s.hostPort port with numVFs := 0, pfBar2 := 34, vfBar2 := 30 } ∧ (∀ ff, t.fn ff = if ff / 8 = port then {} else s.fn ff) ∧
    (∀ p, p ≠ port → t.hostPort p = s.hostPort p) ∧ t.mem = s.mem ∧
    (∀ n, let c := s.ctx n
      (c.phase = .opened → c.fn < 8 → c.port = port → (t.ctx n).phase = .tearing ∧ (t.ctx n).entries = []) ∧
      (c.phase ≠ .opened ∨ (c.fn < 8 ∧ c.port ≠ port) → ({ t.ctx n with entries := [] } : Ctx) = { c with entries := [] } ∧ (t.ctx n).entries.map (·.n) = c.entries.map (·.n)))) ∧
  (∀ (s : State) (port vf : Nat) (removed : Bool), s.running = true → (s.hostPort port).link = 2 → 1 ≤ vf → vf ≤ (s.hostPort port).numVFs → vf < 8 →
    s.ctxs.sorted = true → let gone := fun (ff : Nat) => 8 * port + vf ≤ ff ∧ ff ≤ 8 * port + if removed then (s.hostPort port).numVFs else vf
    Completes (.flrVf port vf removed) s fun t =>
      t.hostPort port = (if removed then { s.hostPort port with numVFs := vf - 1 } else s.hostPort port) ∧ t.mem = s.mem ∧
      (∀ ff, (gone ff → t.fn ff = {}) ∧ (¬gone ff → t.fn ff = s.fn ff)) ∧
      (∀ n, let c := s.ctx n
        (c.phase = .opened → gone (8 * c.port + c.fn) → (t.ctx n).phase = .tearing ∧ (t.ctx n).entries = []) ∧
        (c.phase ≠ .opened ∨ ¬gone (8 * c.port + c.fn) → ({ t.ctx n with entries := [] } : Ctx) = { c with entries := [] } ∧ (t.ctx n).entries.map (·.n) = c.entries.map (·.n)))) ∧
  (∀ (s : State) (ff v : Nat), s.fnUp ff = true → let f := s.fn ff
    exec (.busMasterEnableClear ff false) s = .next (s.setFn ff { f with bme := false }) ∧
    exec (.busMasterEnableClear ff true) s = .next (s.setFn ff { f with d3hot := true }) ∧
    (v = 128 ∨ v = 256 ∨ v = 512 → exec (.configSpaceWrite ff .maxPayload v) s = .next (s.setFn ff { f with mps := v })) ∧
    (∀ e, 7 ≤ e → e ≤ 12 → exec (.configSpaceWrite ff .maxReadRequest (2 ^ e)) s = .next (s.setFn ff { f with mrrs := 2 ^ e })) ∧
    exec (.configSpaceWrite ff .relaxedOrdering v) s = .next (s.setFn ff { f with relaxed := v != 0 }) ∧
    (Completes (.configSpaceWrite ff .busMaster v) s fun t => (t.fn ff).bme = (v != 0) ∧ t.ctxs = s.ctxs ∧ t.mem = s.mem) ∧
    (Completes (.configSpaceWrite ff .powerState v) s fun t => (t.fn ff).d3hot = (v == 3) ∧ t.ctxs = s.ctxs ∧ t.mem = s.mem) ∧
    (Completes (.configSpaceWrite ff .msixEnable v) s fun t => (t.fn ff).msixEn = (v != 0) ∧ (t.fn ff).unmasked = f.unmasked ∧ t.ctxs = s.ctxs) ∧
    (Completes (.configSpaceWrite ff .msixFunctionMask v) s fun t => (t.fn ff).fnMask = (v != 0) ∧ (t.fn ff).msixEn = f.msixEn ∧ t.ctxs = s.ctxs) ∧
    (∀ n, Completes (.configSpaceWrite ff (.msixAddress n) v) s fun t => t.messageOf ff n = (v, (s.messageOf ff n).2) ∧
      (∀ m, m ≠ n → t.messageOf ff m = s.messageOf ff m) ∧ (t.fn ff).unmasked = f.unmasked ∧ t.out = s.out ∧ t.ctxs = s.ctxs) ∧
    (∀ n, Completes (.configSpaceWrite ff (.msixData n) v) s fun t => t.messageOf ff n = ((s.messageOf ff n).1, v) ∧
      (∀ m, m ≠ n → t.messageOf ff m = s.messageOf ff m) ∧ (t.fn ff).unmasked = f.unmasked ∧ t.out = s.out ∧ t.ctxs = s.ctxs) ∧
    (Completes (.configSpaceWrite ff .msixVectorMask v) s fun t => t.ctxs = s.ctxs ∧ (t.fn ff).msixEn = f.msixEn ∧
      ∀ x, x ∈ (t.fn ff).unmasked ↔ if x = v % 2048 then flag v 16 = false else x ∈ f.unmasked) ∧
    (ff % 8 = 0 → (s.hostPort (ff / 8)).numVFs ≤ v → v ≤ 7 →
      exec (.configSpaceWrite ff .numVFs v) s = .next (s.setHostPort (ff / 8) { s.hostPort (ff / 8) with numVFs := v })) ∧
    (ff % 8 = 0 → 30 ≤ v → v ≤ 39 →
      exec (.configSpaceWrite ff .bar2Size v) s = .next (s.setHostPort (ff / 8) { s.hostPort (ff / 8) with pfBar2 := v })) ∧
    (ff % 8 ≠ 0 → 28 ≤ v → v ≤ 36 →
      exec (.configSpaceWrite ff .bar2Size v) s = .next (s.setHostPort (ff / 8) { s.hostPort (ff / 8) with vfBar2 := v }))) ∧
  (∀ (s : State) (ff off n : Nat), s.fnUp ff = true → s.behind (ff / 8) = false → 0 < n → off + n ≤ s.bar2Size ff → let a := s.bar2Addr ff off
    (s.bar2Refused ff off n false = false → s.redirOf a = none → s.tierStarting a = false → Completes (.bar2Read ff off n) s fun t =>
      t = (s.readEffects a n).send (.readCompletion ff (s.readBytes a n) (s.anyPoison a n)) ∧ t.mem = s.mem) ∧
    (s.bar2Refused ff off n false = false → s.redirOf a = none → s.tierStarting a = true →
      exec (.bar2Read ff off n) s = .next (s.holdHost (ff / 8) (.bar2Read ff off n))) ∧
    (s.bar2Refused ff off n false = true → Completes (.bar2Read ff off n) s fun t => Noted (s.send (.readCompletion ff (List.replicate n 0xFF) false)) t ∧
      t.obj 0x9011 ff = (s.obj 0x9011 ff + 1) % 2 ^ 64) ∧
    (∀ (data : List (BitVec 8)) (ep : Bool), data.length = n →
      (s.bar2Refused ff off n true = true → Completes (.bar2Write ff off data ep) s fun t => Noted s t ∧ t.obj 0x9011 ff = (s.obj 0x9011 ff + 1) % 2 ^ 64) ∧
      (s.bar2Refused ff off n true = false → s.tierStarting a = true ∨ s.heldWrite a = true →
        exec (.bar2Write ff off data ep) s = .next (s.holdHost (ff / 8) (.bar2Write ff off data ep))) ∧
      (s.bar2Refused ff off n true = false → s.redirOf a = none → s.tierStarting a = false → bulkBase ≤ a → a + n ≤ 0x5800000000 →
        (∀ i, i < n → s.withdrawn (a + i) = false) → Completes (.bar2Write ff off data ep) s fun t =>
          (∀ x, t.memByte x = if a ≤ x ∧ x < a + n then data.getD (x - a) 0 else s.memByte x) ∧
          (ep = true → ∀ x, a ≤ x → x < a + n → t.poisonedAt x = true) ∧ t.ctxs = s.ctxs ∧ t.out = s.out))) ∧
  (∀ (s : State) (ff off n : Nat) (data : List (BitVec 8)) (ep : Bool), s.behind (ff / 8) = true →
    exec (.bar2Read ff off n) s = .next (s.holdHost (ff / 8) (.bar2Read ff off n)) ∧
    exec (.bar2Write ff off data ep) s = .next (s.holdHost (ff / 8) (.bar2Write ff off data ep))) ∧
  (∀ (s : State) (o : OpRef) (port : Nat), s.running = true → port < 2 → let u := s.addObj 0x9033 port 1
    (u.nextBlock o = none → exec (.completionTimeout o port) s = .next u) ∧
    (∀ x y w b, u.nextBlock o = some (x, y, w, b) → BlockEntry.kind b ≤ 1 →
      exec (.completionTimeout o port) s = .next ((u.beginStream o y).blockFails o w.blocks Status.poisonConsumed)))

/-- MIGRATE and its folios. A legal MIGRATE of each kind that may be dispatched, of a context with the placement right,
reads its frame list where its kind has one and begins. FOLIO_COPY_START skips a folio that R127 refuses with its outcome,
or begins it: a copy is entered and nothing is written yet; a WITHDRAW points its leaves at the home at once; a REFRESH
copies in place and ends. FOLIO_COPY_DONE copies the frame and points the leaves at it: a MOVE forwards from then on, a
REPLICATE mirrors. FOLIO_HOLD_EXPIRY abandons the oldest copy, which starts again twice and is given up the third time, with
a record of kind 3. DRAINED_INVALIDATION_COMPLETE, once it is due and one of the eight drained at a time, writes the
outcomes of the folios in force, and releases them with their records. -/
def Obligations.Migrations : Prop :=
  (∀ (s t : State) (o : OpRef) (x : Op), MayDispatch s t o x 0x0C → t.op? o = some x → MigrateOp.ok x.word = true → (t.ctx o.ctx).placeRight = true →
    MigrateOp.va x.word + MigrateOp.folios x.word * 65536 ≤ 2 ^ 52 →
    (∀ bs u, MigrateOp.kind x.word < 2 →
      (readVA (t.spineReq o.ctx (.op o 1000)) (MigrateOp.frameList x.word) (8 * MigrateOp.folios x.word)).run t = .ok bs u →
      let v := u.dispatched o { x with body := .migrate { frames := State.frameWords (MigrateOp.folios x.word) bs } }
      (MigrateOp.kind x.word = 0 → exec (.move o) s = .next v) ∧ (MigrateOp.kind x.word = 1 → exec (.replicate o) s = .next v)) ∧
    (let v := t.dispatched o { x with body := .migrate {} }
     (MigrateOp.kind x.word = 2 → exec (.refresh o) s = .next v) ∧ (MigrateOp.kind x.word = 3 → exec (.withdraw o) s = .next v))) ∧
  (∀ (s : State) (o : OpRef) (x : Op) (w : MigrateWork) (i tries : Nat), s.running = true → s.migrate? o = some (x, w) →
    State.nextFolio x.word w = some (i, tries) → (s.redirsOf o).length < 64 →
    let r := s.spineReq o.ctx (.op o 1000)
    (∀ code k t, s.planFolio (s.ctx o.ctx).root x.word w i tries = .skip code k → (writeOutcome r x.word i k code).run s = .ok () t →
      let u := if 2 ≤ code then t.modMigrate o fun w => { w with partMap := w.partMap ||| State.folioParts i k } else t
      exec (.folioCopyStart o) s = .next (((State.tookFolio o i k u).settleMigrate o).noteDrain o)) ∧
    (∀ f, s.planFolio (s.ctx o.ctx).root x.word w i tries = .start f → s.changeHeld f = false → let k := f.size / 65536
      (MigrateOp.kind x.word ≠ 2 → s.tiers.redirs.length < 256 → State.held f = true → ((s.redirsOf o).filter State.held).length < s.obj 0x4130 7 →
        Completes (.folioCopyStart o) s fun z => z = (State.tookFolio o i k (s.addRedir o f)).noteDrain o ∧ z.mem = s.mem ∧ z.tiers.redirs = s.tiers.redirs ++ [⟨o, f⟩]) ∧
      (MigrateOp.kind x.word ≠ 2 → s.tiers.redirs.length < 256 → State.held f = false →
        exec (.folioCopyStart o) s = .next ((State.tookFolio o i k ((s.putLeaves f.level f.pteAddr (State.homeLeaf f.pte f.dst)).addRedir o f)).noteDrain o)) ∧
      (∀ t, MigrateOp.kind x.word = 2 → (writeOutcome r x.word i k (b2n (s.anyPoison f.dst f.size))).run s = .ok () t →
        exec (.folioCopyStart o) s = .next (((State.tookFolio o i k (t.copyAtoms f.dst f.src (f.size / 64))).settleMigrate o).noteDrain o)))) ∧
  (∀ (s : State) (o : OpRef) (x : Op) (w : MigrateWork) (f : Folio), s.running = true → s.migrate? o = some (x, w) →
    (s.redirsOf o).find? State.held = some f →
    (s.changeHeld f = false → let u := s.copyAtoms f.src f.dst (f.size / 64)
      let bad := s.anyPoison f.src f.size
      (f.phase = .copying → exec (.folioCopyDone o) s = .next (((u.putLeaves f.level f.pteAddr (State.movedLeaf f.pte f.dst)).setRedir o f.i
        (some { f with phase := .forwarding, poisoned := bad })).noteDrain o)) ∧
      (f.phase = .filling → exec (.folioCopyDone o) s = .next ((((u.putLeaves f.level f.pteAddr (State.copyLeaf f.pte f.dst)).setHomes f.dst f.src f.size).setRedir o f.i
        (some { f with phase := .mirroring, poisoned := bad })).noteDrain o))) ∧
    (f.tries < 2 → exec (.folioHoldExpiry o) s =
      .next (((s.setRedir o f.i none).modMigrate o fun v => { v with again := v.again ++ [(f.i, f.tries + 1)] }).noteDrain o)) ∧
    (∀ t, 2 ≤ f.tries → let k := f.size / 65536
      (writeOutcome (s.spineReq o.ctx (.op o 1000)) x.word f.i k 6).run s = .ok () t → exec (.folioHoldExpiry o) s =
        .next (((((t.modMigrate o fun v => { v with partMap := v.partMap ||| State.folioParts f.i k }).setRedir o f.i none).migrateRecord o 3
          { f with dst := f.src }).settleMigrate o).noteDrain o))) ∧
  (∀ (s t : State) (o : OpRef) (x : Op) (w : MigrateWork), s.running = true → s.migrate? o = some (x, w) → s.drainDue o x.word w = true →
    (s.noteDrain o).drainTurn o = true → let fs := (s.redirsOf o).filter fun f => !State.held f
    (writeOutcomes (s.spineReq o.ctx (.op o 1000)) x.word fs).run (s.noteDrain o) = .ok () t →
    let u := (t.drainFolios o).drainOver o
    (MigrateOp.kind x.word < 2 → exec (.drainedInvalidationComplete o) s =
      .next ((fs.foldl (fun v f => v.migrateRecord o (MigrateOp.kind x.word) f) u).settleMigrate o)) ∧
    (2 ≤ MigrateOp.kind x.word → exec (.drainedInvalidationComplete o) s =
      .next ((fs.foldl (fun v f => v.migrateRecord o 2 f) (fs.foldl (fun v f => v.clearHomes f.src f.size) u)).settleMigrate o)) ∧
    (∀ y ∈ u.tiers.redirs, y.owner = o → State.held y.folio = true))

/-- Epochs, scrub, row remaps and heat caps. EPOCH_END latches the shard counts of the epoch and clears its folio counts;
while no grant is in act mode it changes no byte of memory and no context. PATROL_SCRUB of a channel in service counts its
corrected errors, poisons the uncorrectable atoms it names, gives the row a remap entry where the threshold is reached or an
atom was uncorrectable, and changes no byte; of a cluster's store it counts the corrected errors and poisons the
uncorrectable atoms, of the word path and of the network it marks what will be delivered poisoned, and of a translation
buffer it drops the entry that fails (how such errors are brought in is the model's choice, log entries 74 and 88);
ROW_REMAP_COMPLETE lets the entry take effect. CHANNEL_BANDWIDTH_CAP caps a channel whose cluster's last reading is 95
degrees or more; HBM_THERMAL_CAP caps a stack, and HBM_THERMAL_CAP_RELEASE lifts the cap. -/
def Obligations.EpochsAndScrub : Prop :=
  (∀ (s : State) (sample : Nat), s.running = true → (∀ nn, nn < 64 → State.grantMode (s.obj 0x4100 nn) ≠ 2) →
    Completes (.epochEnd sample) s fun t => t.weevils.latched = s.weevils.live ∧ t.tiers.counts = [] ∧ t.tiers.bursts = sample ∧ t.weevils.live = [] ∧ t.mem = s.mem ∧ t.poison = s.poison ∧ t.ctxs = s.ctxs) ∧
  (∀ (s : State) (chan row corrected : Nat) (bad : List Nat), s.running = true → chan < 320 → s.channelOut chan = false →
    let l := AMap.getD s.tiers.remaps chan []
    let mine := bad.filter fun a => State.channelOf a == some chan
    Completes (.patrolScrub chan row corrected bad) s fun t => t.mem = s.mem ∧ t.ctxs = s.ctxs ∧
      (chan < 128 → t.obj 0x4050 chan = (s.obj 0x4050 chan + corrected) % 2 ^ 32) ∧
      (128 ≤ chan → t.obj 0x4051 (chan - 128) = (s.obj 0x4051 (chan - 128) + corrected) % 2 ^ 32) ∧
      (∀ x, x ∈ t.poison ↔ x ∈ s.poison ∨ ∃ a ∈ mine, x = a / 64) ∧
      ((s.obj 0x4054 1 ≤ corrected ∨ mine ≠ []) → l.length < 1024 → (∀ e ∈ l, e.row = row → e.copying = false) →
        AMap.getD t.tiers.remaps chan [] = l ++ [⟨row, true⟩]) ∧
      (corrected < s.obj 0x4054 1 → mine = [] → t.tiers.remaps = s.tiers.remaps)) ∧
  (∀ (s : State) (c row corrected : Nat) (bad : List Nat), s.running = true → c < 64 →
    let mine := bad.filter fun a => match placeOf a with
      | .store x _ => x == c
      | .storeDevice x _ => x == c
      | _ => false
    Completes (.patrolScrub (320 + c) row corrected bad) s fun t => t.mem = s.mem ∧ t.ctxs = s.ctxs ∧
      t.obj 0x5040 c = (s.obj 0x5040 c + corrected) % 2 ^ 32 ∧ ∀ x, x ∈ t.poison ↔ x ∈ s.poison ∨ ∃ a ∈ mine, x = a / 64) ∧
  (∀ (s : State) (row corrected : Nat) (bad : List Nat), s.running = true →
    exec (.patrolScrub 384 row corrected bad) s =
      .next { s with path := s.path.mapIdx fun i e => if bad.contains i then { e with bad := true } else e } ∧
    Completes (.patrolScrub 385 row corrected bad) s fun t => t.mem = s.mem ∧ t.poison = s.poison ∧
      ∀ x, x ∈ t.tiers.transit ↔ x ∈ s.tiers.transit ∨ ∃ a ∈ bad, x = a / 64) ∧
  (∀ (s : State) (row tag page : Nat), s.running = true → let b := if row < 64 then some row else none
    exec (.patrolScrub 386 row tag [page]) s = .next (s.setBuffer b ((s.buffer b).filter fun e => !State.covers tag page e))) ∧
  (∀ (s : State) (chan row : Nat), s.running = true → let l := AMap.getD s.tiers.remaps chan []
    l ≠ [] → Completes (.rowRemapComplete chan row) s fun t =>
      AMap.getD t.tiers.remaps chan [] = l.map (fun x => if x.row = row then { x with copying := false } else x) ∧ t.mem = s.mem ∧ t.objs = s.objs) ∧
  (∀ (s : State) (nn : Nat), s.running = true → nn ∉ s.tiers.capped → 95 ≤ toSigned 32 (s.obj 0xB040 (nn % 64)) →
    Completes (.channelBandwidthCap nn) s fun t => (∀ x, x ∈ t.tiers.capped ↔ x = nn ∨ x ∈ s.tiers.capped) ∧ t.mem = s.mem ∧ t.power = s.power) ∧
  (∀ (s : State) (k : Nat), s.running = true → k ∉ s.tiers.stackCapped →
    (Completes (.hbmThermalCap k) s fun t => (∀ x, x ∈ t.tiers.stackCapped ↔ x = k ∨ x ∈ s.tiers.stackCapped) ∧ t.mem = s.mem ∧ t.power = s.power)) ∧
  (∀ (s : State) (k : Nat), s.running = true → exec (.hbmThermalCapRelease k) s =
    .next { s with tiers := { s.tiers with stackCapped := s.tiers.stackCapped.filter (· != k) } })

/-- Sparing of clusters and cover channels, and withdrawn groups. CLUSTER_SPARING_START takes a due trigger: with a spare
left its self-test begins, and without one the cluster stays degraded or is retired. An error in the state of the cluster's
Stitcher or stream engine, or a failed channel controller, that the command brings in is a trigger first (log entry 74). A
self-test that passes begins the handover of a serving cluster without a replay in progress; one that fails marks the spare
bad and tries the next. HANDOVER_STOP_TIMEOUT abandons what runs in the unit. HANDOVER_COPY_COMPLETE changes the map to the
spare, poisons the atoms that could not be read, marks the old physical cluster bad, and the cluster serves again.
COVER_CHANNEL_SPARING_START begins the copy onto a free channel or withdraws the channel; COVER_CHANNEL_COPY_COMPLETE
switches the map and empties the remap table. BULK_GROUP_FAILURE withdraws the group. None of them changes a byte of memory.
-/
def Obligations.Sparing : Prop :=
  (∀ (s : State) (c : Nat), s.mgmtUp = true → s.sparing.active = none → c < 64 → s.sparing.triggers.contains c = true →
    Completes (.clusterSparingStart ⟨c, false⟩) s fun t => t.sparing.triggers = s.sparing.triggers.filter (· != c) ∧ t.mem = s.mem ∧
      (∀ p, s.sparePhys.head? = some p → t.sparing.active = some (c, p, 1) ∧ t.obj 0x5003 c = 2 ∧ t.ctxs = s.ctxs) ∧
      (s.sparePhys = [] → t.sparing.active = none ∧ t.obj 0x5003 c = if s.useless c then 3 else 1)) ∧
  (∀ (s : State) (c nn : Nat), s.running = true →
    exec (.clusterSparingStart ⟨c, true⟩) s = exec (.clusterSparingStart ⟨c, false⟩) (s.stateFailed c) ∧
    exec (.coverChannelSparingStart ⟨nn, true⟩) s = exec (.coverChannelSparingStart ⟨nn, false⟩) (s.triggerChan nn none) ∧
    (s.obj 0x5003 c ≠ 3 → ((s.stateFailed c).cluster c).storeFailed = true ∧ (s.obj 0x5004 1 = 1 → c ∈ (s.stateFailed c).sparing.triggers)) ∧
    (s.obj 0x4012 nn = 0 → (∀ x ∈ s.sparing.chanTriggers, x.1 ≠ nn) → (nn, none) ∈ (s.triggerChan nn none).sparing.chanTriggers)) ∧
  (∀ (s : State) (c p : Nat), s.mgmtUp = true → s.sparing.active = some (c, p, 1) →
    ((s.cluster c).mode = .serving → s.replaying c = false → exec (.spareSelfTestDone true) s = .next { s.setCluster c { s.cluster c with mode := .handover } with
      sparing := { s.sparing with active := some (c, p, 3) } }) ∧
    (Completes (.spareSelfTestDone false) s fun t => p ∈ t.sparing.badClusters ∧ t.mem = s.mem ∧
      ∀ q, t.sparing.active = some (c, q, 1) → q ≠ p ∧ q ∈ s.sparePhys)) ∧
  (∀ (s : State) (c p unit : Nat), s.running = true → s.sparing.active = some (c, p, 3) →
    exec (.handoverStopTimeout unit) s = .next ((s.killSlices c (s.worksIn c unit) Status.internal 0x32).raise 2 2
      (2 ^ s.clusterPart c) 0x5003 c 0)) ∧
  (∀ (s : State) (c p : Nat) (unreadable : List Nat), s.running = true → s.sparing.active = some (c, p, 3) → c < 64 →
    (∀ off ∈ unreadable, off < 0x300000) → Completes (.handoverCopyComplete unreadable) s fun t =>
      t.obj 0x5002 c = p ∧ t.obj 0x5003 c = 0 ∧ t.obj 0x5038 c = 0 ∧ (t.cluster c).mode = .serving ∧ (t.cluster c).resident = (s.cluster c).resident ∧
      s.physOf c ∈ t.sparing.badClusters ∧ t.mem = s.mem ∧ t.ctxs = s.ctxs ∧
      (∀ x, x ∈ t.poison ↔ x ∈ s.poison ∨ ∃ off ∈ unreadable, x = storeAddr c off / 64) ∧ (∀ d, d < 64 → d ≠ c → t.obj 0x5002 d = s.obj 0x5002 d)) ∧
  (∀ (s : State) (nn : Nat), s.mgmtUp = true → nn < 128 →
    (s.sparing.chanTriggers.find? (fun x => x.1 == nn) = some (nn, none) → Completes (.coverChannelSparingStart ⟨nn, false⟩) s fun t =>
      t.sparing.chanTriggers = s.sparing.chanTriggers.filter (·.1 != nn) ∧ t.mem = s.mem ∧
      (∀ p, s.pickChan (nn / 64) = some p → t.obj 0x4012 nn = 1 ∧ AMap.get? t.tiers.chanSparing nn = some (p, false)) ∧
      (s.pickChan (nn / 64) = none → t.obj 0x4012 nn = 2 ∧ t.tiers = s.tiers)) ∧
    (∀ p, s.sparing.chanTriggers.find? (fun x => x.1 == nn) = some (nn, some p) → (s.freeChans (nn / 64)).contains p = true →
      Completes (.coverChannelSparingStart ⟨nn, false⟩) s fun t => t.obj 0x4012 nn = 1 ∧ AMap.get? t.tiers.chanSparing nn = some (p, true) ∧ t.mem = s.mem)) ∧
  (∀ (s : State) (nn p : Nat) (follows : Bool) (unreadable : List Nat), s.running = true → nn < 128 → AMap.get? s.tiers.chanSparing nn = some (p, follows) →
    Completes (.coverChannelCopyComplete nn unreadable) s fun t => t.obj 0x4010 nn = p ∧ t.obj 0x4012 nn = 0 ∧ t.obj 0x4055 nn = 0 ∧
      AMap.get? t.tiers.chanSparing nn = none ∧ AMap.get? t.tiers.remaps nn = none ∧ t.mem = s.mem ∧
      (follows = false → 68 * (nn / 64) + s.obj 0x4010 nn ∈ t.sparing.badChannels)) ∧
  (∀ (s : State) (g : Nat), s.running = true → g < 24 → s.obj 0x4062 g = 0 → Completes (.bulkGroupFailure g) s fun t => Noted s t ∧ t.obj 0x4062 g = 1)

/-- Clock islands, power and heat. THERMAL_LOOP_TICK sets the readings, and each island's cover and die demands by R144,
R145 and R487, leaving its other demands. DIE_TEMP_LIMIT drops the island's die demand to step 0. POWER_SAMPLE sets the
sample; over the limit it takes the first rung with room, and a margin below it gives the last one back, and the demands
follow the ladder. CORE_CURRENT_TRIP sets every island four steps below its step with cap 8 and counts; BACKSTOP_LIFT lifts
one step and cap 2. VOLTAGE_RAIL_REPORT sets the voltage; AVS_TIMEOUT keeps it and asks for it. None of them changes memory
or a context. -/
def Obligations.PowerAndHeat : Prop :=
  (let calm := fun (s t : State) => t.mem = s.mem ∧ t.ctxs = s.ctxs ∧ t.clusters = s.clusters
   (∀ (s : State) (cover die : List Nat), s.running = true → Completes (.thermalLoopTick cover die) s fun t => calm s t ∧ ∀ c, c < 64 →
      let rc := toSigned 32 (cover.getD c (s.obj 0xB040 c))
      let rd := toSigned 32 (die.getD c (s.obj 0xB042 c))
      let start : Int := s.obj 0xB041 1
      let hyst : Int := s.obj 0xB041 2
      let limit : Int := s.obj 0xB043 1
      let d := s.demand c
      let e := t.demand c
      e.power = d.power ∧ e.cap = d.cap ∧ e.backstop = d.backstop ∧ t.obj 0xB040 c = ofSigned 32 rc ∧ t.obj 0xB042 c = ofSigned 32 rd ∧
      e.cover = (if 95 ≤ rc then 0 else if start ≤ rc then min d.cover (s.clkStep c) - 1
        else if rc < start - hyst then State.stepUp d.cover ([s.obj 0xB010 c, d.power, d.die, d.backstop].foldl min 24) else d.cover) ∧
      e.die = (if 105 ≤ rd then 0 else if limit ≤ rd then d.die - 1
        else if rd < limit - hyst then State.stepUp d.die ([s.obj 0xB010 c, d.power, e.cover, d.backstop].foldl min 24) else d.die)) ∧
   (∀ (s : State) (c : Nat), s.running = true → c < 64 → Completes (.dieTempLimit c) s fun t => calm s t ∧ t.obj 0xB042 c = 105 ∧
      t.demand c = { s.demand c with die := 0 } ∧ ∀ x, x ≠ c → t.demand x = s.demand x) ∧
   (∀ (s : State) (watts joules : Nat), s.mgmtUp = true → Completes (.powerSample watts joules) s fun t => calm s t ∧
      t.obj 0xB001 1 = watts % 65536 ∧ t.obj 0xB001 2 = (s.obj 0xB001 2 + joules) % 2 ^ 64 ∧
      (∀ c, c < 64 → (t.demand c).power = s.ladderStep t.power.ladder c ∧ (t.demand c).cap = s.ladderCap t.power.ladder c ∧
        (t.demand c).cover = (s.demand c).cover ∧ (t.demand c).die = (s.demand c).die ∧ (t.demand c).backstop = (s.demand c).backstop) ∧
      (∀ r, s.obj 0xB000 1 < watts → [1, 2, 3, 4, 5].find? s.hasRoom = some r → t.power.ladder = r :: s.power.ladder) ∧
      (watts + s.obj 0xB000 3 < s.obj 0xB000 1 → t.power.ladder = s.power.ladder.tail) ∧
      (watts ≤ s.obj 0xB000 1 → s.obj 0xB000 1 ≤ watts + s.obj 0xB000 3 → t.power.ladder = s.power.ladder)) ∧
   (∀ (s : State), s.running = true → Completes .coreCurrentTrip s fun t => calm s t ∧ t.power.backstopCap = 8 ∧
      t.obj 0xB000 6 = (s.obj 0xB000 6 + 1) % 2 ^ 32 ∧ ∀ c, c < 64 → t.demand c = { s.demand c with backstop := s.clkStep c - 4 }) ∧
   (∀ (s : State), s.running = true → Completes .backstopLift s fun t => calm s t ∧ t.power.backstopCap = min 16 (s.power.backstopCap + 2) ∧ t.objs = s.objs ∧
      ∀ c, c < 64 → let d := s.demand c
        t.demand c = { d with backstop := State.stepUp d.backstop ([s.obj 0xB010 c, d.power, d.cover, d.die].foldl min 24) }) ∧
   (∀ (s : State) (mv : Nat), s.running = true →
      exec (.voltageRailReport mv) s = .next { s with power := { s.power with mv := mv, avsHeld := false } }) ∧
   (∀ (s : State), s.running = true → s.power.asked ≠ s.power.mv →
      Completes .avsTimeout s fun t => Noted { s with power := { s.power with asked := s.power.mv, avsHeld := true } } t))

/-- CXL links. CXL_LINK_UP ends the training of a link: up with what the expander says, or refused. CXL_LINK_FAIL of a link
that trains or is up fails it and loses its far memory and no other; CXL_MEM_TIMEOUT of one that is up counts and fails it
too. CXL_EVENT_RECORD of one that is up raises attention, and a severe one leaves the atom it names poisoned there (the
model's choice, log entry 93). Device memory stays. -/
def Obligations.CxlLinks : Prop :=
  (∀ (s : State) (l : Nat), l < 4 → s.running = true →
    let failed := fun (t : State) => t.cxlLink l = { s.cxlLink l with state := 4 } ∧ (∀ m, m ≠ l → t.cxlLink m = s.cxlLink m) ∧
      (∀ k, AMap.get? t.far k = if k / 2 ^ 52 = l then none else AMap.get? s.far k) ∧ (∀ x ∈ t.farPoison, x * 64 / 2 ^ 52 ≠ l) ∧
      t.obj 0x9101 l = 4 ∧ t.mem = s.mem ∧ t.ctxs = s.ctxs ∧ t.out = s.out;
    ((s.cxlLink l).state = 1 ∨ (s.cxlLink l).state = 2 → Completes (.cxlLinkFail l) s failed) ∧
    ((s.cxlLink l).state = 2 → Completes (.cxlMemTimeout l) s fun t => failed t ∧ t.obj 0x9123 l = (s.obj 0x9123 l + 1) % 2 ^ 64)) ∧
  (∀ (s : State) (l dpa : Nat) (severe : Bool), l < 4 → s.mgmtUp = true → let x := s.cxlLink l
    x.state = 2 → Completes (.cxlEventRecord l severe dpa) s fun t =>
      Noted (if severe then { s with farPoison := State.insertNat (State.farKey l dpa / 64) s.farPoison } else s) t ∧ t.obj 0x9101 l = x.width * 256 + x.speed * 16 + 10) ∧
  (∀ (s : State) (l width speed capacity decoders : Nat) (accepted : Bool), s.mgmtUp = true → (s.cxlLink l).state = 1 →
    Completes (.cxlLinkUp l width speed capacity decoders accepted) s fun t =>
      t.cxlLink l = (if accepted then { state := 2, width := width, speed := speed, capacity := capacity, decoders := decoders } else { state := 3 }) ∧
      (∀ m, m ≠ l → t.cxlLink m = s.cxlLink m) ∧ t.far = s.far ∧ t.mem = s.mem ∧ t.out = s.out)

/-- Frames of the fabric's streams. A frame that arrives in order has its type's effect and is counted as delivered.
WRITE_FRAME writes its payload through its sub-window where the write goes through; without a valid sub-window it is
refused. READ_REQ is answered with the bytes of a read that goes through. READ_REPLY adds its data to the read that asked,
or fails it with the status of a final reply. FENCE applies its signal to a fence in range. GATHER_REQ's first frame opens a
request, later ones add to it, and the last one serves it. GATHER_REPLY keeps its vectors, and the final one gives the
REMOTE_GATHER its part statuses and report. ACK takes the frames it covers from the stream; NAK resends, fails the stream,
or fails the frame it names. -/
def Obligations.FabricFrames : Prop :=
  (∀ (s t : State) (port : Nat) (f : Frame) (r : RecvStream), InOrder s t port f 0 r → let n := f.payload.length
    State.crossesPage f.offset n = false →
    (∀ v t1 u, t.subWindow f.offset = some v → f.offset % 2 ^ 29 + n ≤ 2 ^ 29 → t.needTag (bits v 81 46 * 65536) false = (t1, true) →
      (writeMarked (State.inboundReq v f) (State.windowVA v f.offset) f.payload (State.poisonMarks f.offset n f.poison) true).run t1 = .ok () u →
      exec (.writeFrame port f) s = .next (delivered u f r)) ∧
    (t.subWindow f.offset = none → exec (.writeFrame port f) s = .next ((delivered t f r).sendNak f 0x0103 f.seq))) ∧
  (∀ (s t : State) (port : Nat) (f : Frame) (r : RecvStream), InOrder s t port f 1 r → let n := leNat (f.payload.take 4)
    1 ≤ n → n ≤ 4096 → State.crossesPage f.offset n = false →
    ∀ v t1 u x, t.subWindow f.offset = some v → f.offset % 2 ^ 29 + n ≤ 2 ^ 29 → t.needTag (bits v 81 46 * 65536) false = (t1, true) →
      (readMarked (State.inboundReq v f) (State.windowVA v f.offset) n).run t1 = .ok x u →
      exec (.readReq port f) s = .next (delivered (State.replyFrames f.src f.cls f.tag f.offset 4 0 x.1 x.2 u) f r)) ∧
  (∀ (s t : State) (port : Nat) (f : Frame) (r : RecvStream), InOrder s t port f 2 r →
    let asked := t.fabric.reads.find? fun x => x.peer == f.src && x.tag == f.tag && !x.finished
    (asked = none → exec (.readReply port f) s = .next (delivered t f r)) ∧
    (∀ x, asked = some x → (f.last = true ∧ f.status ≠ 0) →
      exec (.readReply port f) s = .next (delivered (t.failRead (fun y => y == x) (peerStatus f.status) f.status) f r)) ∧
    (∀ x, asked = some x → (∀ nn, x.who ≠ .mailbox nn) → (f.last = false ∨ f.status = 0) →
      let y := { x with
        got := x.got ++ f.payload, marks := x.marks ++ State.poisonMarks (x.va + x.got.length) f.payload.length f.poison
        finished := f.last || decide (x.len ≤ (x.got ++ f.payload).length) }
      let u : State := { t with fabric := { t.fabric with reads := t.fabric.reads.map fun z => if z == x then y else z } }
      exec (.readReply port f) s = .next (delivered u f r))) ∧
  (∀ (s t : State) (port : Nat) (f : Frame) (r : RecvStream) (v : Nat), InOrder s t port f 5 r → t.subWindow f.offset = some v →
    (t.fenceInRange (bits v 3 1) f.fence = true →
      exec (.fence port f) s = .next (delivered (t.applySignal ⟨f.fence, f.sigMode, leNat (f.payload.take 8)⟩) f r)) ∧
    (t.fenceInRange (bits v 3 1) f.fence = false →
      exec (.fence port f) s = .next ((delivered t f r).sendNak f Status.faultPermission f.seq))) ∧
  (∀ (s t : State) (port : Nat) (f : Frame) (r : RecvStream), InOrder s t port f 3 r →
    let mine := fun (g : InGather) => g.peer == f.src && g.cls == f.cls && g.tag == f.tag
    let serving := fun l => ({ t with fabric := { t.fabric with serving := l } } : State)
    let rest := t.fabric.serving.filter fun g => !mine g
    let w := leNat f.payload * 2 ^ 128
    (t.fabric.serving.find? mine = none → f.version = 2 → (t.subWindow (RemoteGatherOp.tablesOff w)).isSome = true → f.payload.length = 48 →
      RemoteGatherOp.ok w = true → f.last = false →
      ∀ e, exec (.gatherReq port { f := f, errors := e }) s = .next (delivered (serving (rest ++ [{ peer := f.src, cls := f.cls, tag := f.tag, word := w }])) f r)) ∧
    (∀ g, t.fabric.serving.find? mine = some g → g.refused = false →
      let h := { g with got := g.got ++ f.payload, marks := g.marks ++ State.poisonMarks g.got.length f.payload.length f.poison }
      (f.last = false → ∀ e, exec (.gatherReq port { f := f, errors := e }) s = .next (delivered (serving (rest ++ [h])) f r)) ∧
      (∀ e u, f.last = true → State.serveGather { f := f, errors := e } h (serving rest) = (u, .done) →
        exec (.gatherReq port { f := f, errors := e }) s = .next (delivered u f r)))) ∧
  (∀ (s t : State) (port : Nat) (f : Frame) (r : RecvStream) (o : OpRef) (x : Op) (w : RemoteWork), InOrder s t port f 4 r →
    t.gatherOf f.src f.tag = some o → t.op? o = some x → x.body = .remote w →
    (f.last = false → Completes (.gatherReply port f) s fun z =>
      z.op? o = some { x with body := .remote { w with
        got := w.got ++ [(f.offset, f.payload, State.poisonMarks f.offset f.payload.length f.poison)] } } ∧ z.mem = t.mem ∧ z.out = t.out) ∧
    (f.last = true →
      let last := fun (v : RemoteWork) => { v with
        finished := true, status := if f.status = 0 then 0 else finalStatus f.status, code := f.status
        parts := (List.range 16).map fun p => leNat ((f.payload.drop (2 * p)).take 2), report := (f.payload.drop 32).take 32 }
      let u := t.modOp o fun y => match y.body with
        | .remote v => { y with body := .remote (last v) }
        | _ => y
      exec (.gatherReply port f) s = .next (delivered u f r))) ∧
  (∀ (s : State) (port : Nat) (f : Frame), let t := s.addObj 0x8052 port 1
    (Arrives s port f 6 → exec (.ack port f) s = .next (t.acked f.src f.cls f.ack)) ∧
    (Arrives s port f 7 →
      (f.status = 0x0100 → exec (.nak port f) s = .next ((t.acked f.src f.cls f.ack).resend f.src f.cls)) ∧
      (f.status = 0x0101 → exec (.nak port f) s =
        .next ((t.failStream f.src f.cls Status.fabricPeerFault 0x0101).acked f.src f.cls f.ack)) ∧
      (f.status ≠ 0x0100 → f.status ≠ 0x0101 → exec (.nak port f) s = .next ((t.refused f).acked f.src f.cls f.ack))))

/-- Frames that wait in the ingress buffer, and the sending of PFC. A WRITE that waits for the tag of its sub-window's
space, or arrives behind a held frame of its stream, stays in the ingress buffer of its port: nothing of it is performed or
acknowledged, and PFC XOFF goes to the neighbour for a priority of the mask whose frames there pass its threshold, XON once
they do not (the threshold is free, log entry 50). Where the buffer has no room the frame is discarded and counted. A step
without a command tries the one held frame of a port again. Once PFC resumes class 1, the HELLO, CLAIM and LSA frames kept
at the egress leave. -/
def Obligations.IngressBuffer : Prop :=
  (∀ (s : State) (port : Nat) (f : Frame), s.running = true → (s.sharelPort port).up = true → State.frameOk f 0 = true →
    s.standsBehind port f = true → let t := s.addObj 0x8052 port 1
    (t.ingressRoom port f = true → Completes (.writeFrame port f) s (HeldAt port f t)) ∧
    (t.ingressRoom port f = false → exec (.writeFrame port f) s = .next (t.addObj 0x8053 port 1))) ∧
  (∀ (s t u : State) (port : Nat) (f : Frame) (r : RecvStream) (v : Nat), InOrder s t port f 0 r →
    State.crossesPage f.offset f.payload.length = false → t.subWindow f.offset = some v → f.offset % 2 ^ 29 + f.payload.length ≤ 2 ^ 29 →
    t.needTag (bits v 81 46 * 65536) false = (u, false) →
    (u.ingressRoom port f = true → Completes (.writeFrame port f) s (HeldAt port f u)) ∧
    (u.ingressRoom port f = false → exec (.writeFrame port f) s = .next (u.addObj 0x8053 port 1))) ∧
  (∀ (s : State) (port : Nat) (r : Received), s.running = true → s.pending = [] → s.path = [] → s.trans.hostHeld = [] →
    (∀ x ∈ s.mbox, x.2.waiting = none) → port < 6 → (s.sharelPort port).ingress = [r] → (∀ p, (s.sharelPort p).waiting = []) →
    (∀ p, p < port → (s.sharelPort p).ingress = []) →
    (let t := s.setSharelPort port { s.sharelPort port with ingress := [] }
     let u := (State.takeIn r.f (State.frameAct r) t).1
     (∀ p, port < p → p < 6 → (u.sharelPort p).ingress = [] ∧ (u.sharelPort p).waiting = []) →
     step s = .next (State.updatePfc (if (State.takeIn r.f (State.frameAct r) t).2 then u else u.keepFrame port r) port))) ∧
  (∀ (s : State) (port prio : Nat), s.running = true → (s.sharelPort port).up = true → flag (s.obj 0x8011 2) prio = true →
    s.fabric.send = [] → Completes (.pfcFrame port prio false) s fun t =>
      let x := s.sharelPort port
      let still := x.paused.filter (· != prio)
      t.sharelPort port = { x with paused := still, waiting := if still.contains (s.pcpOf 1) then x.waiting else [] } ∧
      t.out = s.out ++ (if still.contains (s.pcpOf 1) then []
        else x.waiting.map fun m => .control port 0x03D7E1000001 (s.pcpOf 1) (s.obj 0x8012 1) m) ∧ t.mem = s.mem ∧ t.ctxs = s.ctxs)

/-- Discovery, addresses, routes and timers of the fabric. HELLO makes its sender heard, and adjacent exactly while it lists
this device; HELLO_SEND sends one on every port that is up, or keeps it at the egress while class 1 is paused there.
ADJACENCY_TIMEOUT removes the neighbour; SHAREL_LINK_FAULT leaves the port down, SHAREL_LINK_UP brings it up. A CLAIM of
this device's address by a higher hash is answered with its own claim, one by a lower hash has it derive its next address;
one of another address changes nothing. ADDRESS_HELD makes the address held. A newer LSA is stored; LSA_REFRESH floods this
device's own; ROUTE_COMPUTE makes the forwarding table anew. ACK_SEND acknowledges what is delivered, RETRANSMIT_TIMEOUT
resends, STREAM_IDLE_CLOSE closes a half with nothing unacknowledged, and where every send stream was taken lets those that
wait go on, FABRIC_TIMEOUT fails what is in flight. TRANSIT_FRAME goes on with one hop less; PFC_FRAME pauses or resumes its
priority, and what the pause kept leaves; FRAME_DISCARD counts. -/
def Obligations.FabricControl : Prop :=
  (∀ (s : State) (port : Nat) (m : HelloMsg), s.running = true → (s.sharelPort port).up = true → Completes (.hello port m) s fun t =>
    m.addr ∈ (t.sharelPort port).heard ∧ (t.sharelPort port).up = true ∧ (∀ p, p ≠ port → Bare (t.sharelPort p) = Bare (s.sharelPort p)) ∧
    (∀ a, a.addr ≠ m.addr → (a ∈ (t.sharelPort port).adjs ↔ a ∈ (s.sharelPort port).adjs)) ∧
    (m.heard.contains s.fabric.addr = true → s.claimsOver = false →
      ⟨m.addr, State.commonVersion m.versions, m.port, m.hash⟩ ∈ (t.sharelPort port).adjs) ∧
    (m.heard.contains s.fabric.addr = false ∨ s.claimsOver = true → ∀ a ∈ (t.sharelPort port).adjs, a.addr ≠ m.addr) ∧ t.mem = s.mem ∧ t.ctxs = s.ctxs) ∧
  (∀ (s : State), s.running = true → s.fabric.addr ≠ 0 → Completes .helloSend s (FloodedOn s fun p => .hello
    { addr := s.fabric.addr, held := s.fabric.held, port := p, versions := 6, heard := (s.sharelPort p).heard.take 16, hash := identityHash })) ∧
  (∀ (s : State) (port : Nat), s.running = true →
    (∀ addr, Completes (.adjacencyTimeout port addr) s fun t => (∀ a, a ∈ (t.sharelPort port).adjs ↔ a ∈ (s.sharelPort port).adjs ∧ a.addr ≠ addr) ∧
      addr ∉ (t.sharelPort port).heard ∧ (∀ p, p ≠ port → Bare (t.sharelPort p) = Bare (s.sharelPort p)) ∧ t.mem = s.mem ∧ t.ctxs = s.ctxs) ∧
    (Completes (.sharelLinkFault port) s fun t => t.sharelPort port = {} ∧ (∀ p, p ≠ port → Bare (t.sharelPort p) = Bare (s.sharelPort p)) ∧ t.mem = s.mem ∧ t.ctxs = s.ctxs) ∧
    (∀ speed, Completes (.sharelLinkUp port speed) s fun t => t.sharelPort port = { up := true, speed := speed } ∧
      (∀ p, p ≠ port → t.sharelPort p = s.sharelPort p) ∧ t.mem = s.mem ∧ t.ctxs = s.ctxs)) ∧
  (∀ (s : State) (port addr : Nat) (hash : List (BitVec 8)), s.mgmtUp = true → (s.sharelPort port).up = true → let t := s.addObj 0x8052 port 1
    (addr ≠ s.fabric.addr → exec (.claim port addr hash) s = .next t) ∧
    (addr = s.fabric.addr → s.fabric.addr ≠ 0 → hash ≠ identityHash → s.claimsOver = false →
      (leNat identityHash < leNat hash → exec (.claim port addr hash) s = .next t.floodClaim) ∧
      (leNat hash ≤ leNat identityHash → s.fabric.claims + 1 < 255 → Completes (.claim port addr hash) s fun u =>
        (u.fabric.addr, u.fabric.claims) = deriveAddr 255 (s.fabric.claims + 1) ∧ u.fabric.held = false ∧ u.mem = s.mem ∧ u.ctxs = s.ctxs))) ∧
  (∀ (s : State), s.mgmtUp = true →
    (s.fabric.held = false → s.fabric.addr ≠ 0 → s.claimsOver = false → Completes .addressHeld s fun t =>
      t.fabric.held = true ∧ t.fabric.addr = s.fabric.addr ∧ t.fabric.routes = s.fabric.routes ∧ t.mem = s.mem ∧ t.ctxs = s.ctxs) ∧
    (s.fabric.addr ≠ 0 → Completes .lsaRefresh s fun t => t.fabric.lsaSeq = s.fabric.lsaSeq + 1 ∧ t.fabric.lsas = s.fabric.lsas ∧
      FloodedOn s (fun _ => .lsa { s.ownLsa with seq := s.fabric.lsaSeq + 1 }) t) ∧
    (let others := (s.fabric.lsas.map (·.2)).filter fun l => l.addr != s.fabric.addr
     Completes .routeCompute s fun t => t.mem = s.mem ∧ t.ctxs = s.ctxs ∧ t.fabric.routes =
       others.foldl (fun m l => if s.nextHops (s.ownLsa :: others) l = [] then m else AMap.set m l.addr (s.nextHops (s.ownLsa :: others) l)) [])) ∧
  (∀ (s : State) (port : Nat) (m : LsaMsg), s.mgmtUp = true → (s.sharelPort port).up = true → m.addr ≠ s.fabric.addr →
    (match AMap.get? s.fabric.lsas m.addr with
      | some o => o.seq % 2 ^ 32 ≠ m.seq ∧ seqAfter m.seq (o.seq % 2 ^ 32) = true
      | none => s.fabric.lsas.length < 16384) →
    Completes (.lsa port m) s fun t => AMap.get? t.fabric.lsas m.addr = some m ∧
      (∀ a, a ≠ m.addr → AMap.get? t.fabric.lsas a = AMap.get? s.fabric.lsas a) ∧ t.mem = s.mem ∧ t.ctxs = s.ctxs) ∧
  (∀ (s : State) (peer cls : Nat), s.running = true → let k := streamKey peer cls
    (∀ r h, s.recvStream? k = some r → r.sinceAck ≠ 0 → s.fabric.held = true → s.hopOf s.fabric.addr peer cls = some h → s.hopOpen h cls = true →
      Completes (.ackSend peer cls) s fun t => t.recvStream? k = some { r with sinceAck := 0 } ∧
        ∃ mac pcp src f, t.out = s.out ++ [.frame h.1 mac pcp src f] ∧ f.type = 6 ∧ f.dst = peer ∧ f.ack = r.expect) ∧
    ((s.sendStream k).sent ≠ 0 → exec (.retransmitTimeout peer cls) s =
      .next (((s.setSendStream k { s.sendStream k with sent := 0 }).addObj 0x8051 1 (s.sendStream k).sent).pump peer cls)) ∧
    (∀ x, AMap.get? s.fabric.send k = some x → x.unacked = [] →
      (s.sendRoom = true → Completes (.streamIdleClose peer cls) s fun t =>
        AMap.get? t.fabric.send k = none ∧ t.fabric.recv = s.fabric.recv ∧ t.mem = s.mem ∧ t.ctxs = s.ctxs) ∧
      (s.sendRoom = false → exec (.streamIdleClose peer cls) s =
        .next ({ s with fabric := { s.fabric with send := AMap.erase s.fabric.send k } } : State).pumpAll)) ∧
    (∀ r, AMap.get? s.fabric.send k = none → s.recvStream? k = some r → r.sinceAck = 0 → Completes (.streamIdleClose peer cls) s fun t =>
      AMap.get? t.fabric.recv k = none ∧ t.mem = s.mem ∧ t.ctxs = s.ctxs) ∧
    ((s.sendStream k).unacked ≠ [] → exec (.fabricTimeout peer cls) s = .next (s.failStream peer cls Status.fabricUnreachable 0))) ∧
  (∀ (s : State) (port : Nat), s.running = true → (s.sharelPort port).up = true → let t := s.addObj 0x8052 port 1
    (∀ f, f.dst ≠ s.fabric.addr → State.frameOk f f.type = true → s.standsBehind port f = false →
      (f.hops ≤ 1 → exec (.transitFrame port f) s = .next (t.addObj 0x8051 2 1)) ∧
      (∀ h, 2 ≤ f.hops → s.hopOf f.src f.dst f.cls = some h → s.hopOpen h f.cls = true →
        exec (.transitFrame port f) s = .next (t.emitFrame h { f with hops := f.hops - 1 }))) ∧
    (∀ prio, flag (s.obj 0x8011 2) prio = true → let x := s.sharelPort port
      exec (.pfcFrame port prio true) s = .next (s.setSharelPort port { x with paused := State.insertNat prio x.paused }) ∧
      exec (.pfcFrame port prio false) s =
        .next ((s.setSharelPort port { x with paused := x.paused.filter (· != prio) }).releaseControl port).pumpAll) ∧
    (∀ reason, exec (.frameDiscard port reason) s = .next (s.addObj 0x8053 port 1)))

/-- Streams and their blocks. A STREAM that may be dispatched, with a legal record, its ring's fences in range and a list
that can be read and whose ring is memory of PTE target 0, is placed with its one slice or queued at its central engine.
Each block command acts on the stream whose turn it is and whose next block it names: COPY moves its rows, and fails where
source and destination overlap; what earlier copies may still be writing is a free value to it unless it is ordered after
them; RING, its fences sound and its ring as the rule asks, waits for a credit, then fills its buffer and raises fill_fence;
WAIT passes once it is met, fails on a poisoned fence, and waits otherwise; SIGNAL applies its signal; CHAIN goes on with
the next list. A block done moves the stream to its next block, or ends it after the last. A replayed block counts, or ends
the stream as unrecovered. -/
def Obligations.Streams : Prop :=
  (∀ (s t u : State) (o : OpRef) (x : Op) (l : List Nat), MayDispatch s t o x 0x07 → StreamOp.ok x.word = true →
    let r := t.spineReq o.ctx (.op o 1000)
    let e := StreamOp.engine x.word
    (StreamOp.ringCount x.word ≠ 0 → t.fenceInRange r.part (StreamOp.freeFence x.word) = true ∧ t.fenceInRange r.part (StreamOp.fillFence x.word) = true) →
    (readList r x.word (StreamOp.list x.word) (StreamOp.listLen x.word) 0).run t = .ok l u → u.op? o = some x →
    let y : Slice := if e = 0 then { unit := 2 } else { unit := 4, place := some (e - 1), phase := .queued }
    let v := u.dispatched o { x with waitMet := false, body := .stream { list := l }, slices := [y] }
    exec (.stream o) s = .next (((if e = 0 then v else v.queueAtLead o 0 (31 + e)).placeAll o).latchBodies)) ∧
  (∀ (s : State) (o : OpRef) (x : Op) (y : Slice) (w : StreamWork) (b : Nat), s.running = true → s.nextBlock o = some (x, y, w, b) →
    let v := s.beginStream o y
    let r := (v.streamEngine o y).1
    let nn := (v.streamEngine o y).2
    let k := StreamOp.ringStart x.word + w.rings
    let n := StreamOp.ringCount x.word
    let writing := if BlockEntry.after b then [] else w.writing
    (BlockEntry.kind b = 0 →
      (copyOverlaps b = true → exec (.copyBlock o) s = .next (v.blockFails o w.blocks Status.overlapRejected)) ∧
      (copyOverlaps b = false →
        (∀ u, (copyRows r b (BlockEntry.dst b) (BlockEntry.dstPitch b) false writing).run v = .ok () u →
          let w1 := { w with writing := writing ++ [(BlockEntry.dst b, BlockEntry.dstPitch b, BlockEntry.len b, BlockEntry.rows b)] }
          exec (.copyBlock o) s = .next (u.blockDone o w1) ∧
          exec (.streamBlockReplay o false) s = .next (((u.addObj 0x5041 nn 1).notePassed o 0x5041 nn).blockDone o w1)) ∧
        (∀ u st code, (copyRows r b (BlockEntry.dst b) (BlockEntry.dstPitch b) true writing).run v = .error (.fail st code) u →
          exec (.streamBlockReplay o true) s = .next (u.blockFails o w.blocks st (code % 256))))) ∧
    (BlockEntry.kind b = 1 → s.fencePoisoned (StreamOp.freeFence x.word) = false → s.fencePoisoned (StreamOp.fillFence x.word) = false →
      (w.ringChecked = true ∨ ringOk s x.word = true) →
      let w1 := { w with ringChecked := true }
      let v1 := v.modOp o fun z => { z with body := .stream w1 }
      (s.fence (StreamOp.freeFence x.word) < k + 1 - n → exec (.ringBlock o) s = .next v1) ∧
      (k + 1 - n ≤ s.fence (StreamOp.freeFence x.word) →
        ∀ u1 u, let dst := StreamOp.ringBase x.word + k % n * StreamOp.ringSize x.word
          (ringPages r (ceilDiv (BlockEntry.len b * BlockEntry.rows b) 4096) dst).run v1 = .ok () u1 →
          (copyRows r b dst (BlockEntry.len b) false writing).run u1 = .ok () u →
          exec (.ringBlock o) s = .next ((u.blockDone o { w1 with rings := w.rings + 1, writing := writing }).applySignal ⟨StreamOp.fillFence x.word, 1, 1⟩))) ∧
    (BlockEntry.kind b = 2 → let v1 := v.latchBodies
      ∀ z, v1.op? o = some z →
        (z.waitMet = true → exec (.waitBlock o) s = .next (v1.blockDone o w)) ∧
        (z.waitMet = false → v1.fencePoisoned (BlockEntry.fence b) = true →
          exec (.waitBlock o) s = .next (v1.blockFails o w.blocks Status.poisonConsumed)) ∧
        (z.waitMet = false → v1.fencePoisoned (BlockEntry.fence b) = false → exec (.waitBlock o) s = .next v1)) ∧
    (BlockEntry.kind b = 3 → exec (.signalBlock o) s =
      .next ((v.blockDone o { w with writing := [] }).applySignal ⟨BlockEntry.fence b, if BlockEntry.sigMax b then 2 else 1, BlockEntry.value b⟩)) ∧
    (BlockEntry.kind b = 4 → ∀ l u, (readList r x.word (BlockEntry.src b) (BlockEntry.len b) (w.blocks + 1)).run v = .ok l u →
      exec (.chainBlock o) s =
        .next ((u.modOp o fun z => { z with body := .stream { w with list := l, idx := 0, blocks := w.blocks + 1 } }).latchBodies))) ∧
  (∀ (s : State) (o : OpRef) (x : Op) (y : Slice) (w : StreamWork), s.op? o = some x → s.slice? o 0 = some y →
    (w.list.length ≤ w.idx + 1 → (s.blockDone o w).slice? o 0 = some { y with phase := .ended, status := Status.ok, low := 0, high := 0 }) ∧
    (w.idx + 1 < w.list.length → (s.blockDone o w).slice? o 0 = some y ∧
      (AMap.sorted s.ctxs = true → ((s.ctx o.ctx).entries.map (·.n)).Nodup →
        ((s.blockDone o w).op? o).map (·.body) = some (.stream { w with idx := w.idx + 1, blocks := w.blocks + 1 }))))

/-- COPY_TENSOR. A COPY_TENSOR that may be dispatched, whose descriptors and window can be read and pass the rule's checks,
is dispatched with them and placed, and runs if its turn has come. At the head of its cluster's class a copy is run. Where
its spans overlap it waits while another op holds the cluster's device area; its box is staged there first, and one over 1
MiB is rejected. It ends OK where it can be made; with one detected error it counts and still ends OK; with two it ends as
unrecovered. -/
def Obligations.TensorCopies : Prop :=
  (∀ (s t t1 t2 t3 : State) (o : OpRef) (x : Op) (src dst win errors : Nat), MayDispatch s t o x 0x08 → CopyOp.ok x.word = true →
    let r := t.spineReq o.ctx (.op o 1000)
    (readDesc r (CopyOp.srcDesc x.word)).run t = .ok src t1 → (readDesc r (CopyOp.dstDesc x.word)).run t1 = .ok dst t2 →
    (CopyOp.window x.word = 0 → win = 0 ∧ t3 = t2) → (CopyOp.window x.word ≠ 0 → (readNum r (CopyOp.window x.word) 64).run t2 = .ok win t3) →
    copyOk x.word src dst win = true → t3.op? o = some x →
    exec (.copyTensor o errors) s =
      .next (((t3.dispatched o { x with copies := [src, dst, win], slices := [{ unit := 2 }] }).placeAll o).copyRun o errors)) ∧
  (∀ (s : State) (o : OpRef) (x : Op) (y : Slice) (cc errors : Nat), s.running = true → s.op? o = some x → OpHdr.opcode x.word = 0x08 →
    s.slice? o 0 = some y → x.phase = .dispatched → y.place = some cc → y.phase = .queued ∨ y.phase = .running → s.heads o 0 cc = true →
    let b := copyBox x.word (x.copies.getD 0 0) (x.copies.getD 1 0) (x.copies.getD 2 0)
    let v := s.startSlice o 0
    let a := v.useArea cc o
    let ends := fun (u : State) =>
      (errors = 0 → exec (.copyTensor o errors) s = .next (u.stopSlice o 0 Status.ok 0 0)) ∧
      (errors = 1 → exec (.copyTensor o errors) s = .next (((u.addObj 0x5041 cc 1).notePassed o 0x5041 cc).stopSlice o 0 Status.ok 0 0)) ∧
      (2 ≤ errors → exec (.copyTensor o errors) s = .next (u.stopSlice o 0 Status.silentError 0 0))
    (b.overlaps = false → ∀ u, (runCopy (v.streamReq cc o 0) b none errors).run v = .ok () u → ends u) ∧
    (b.overlaps = true →
      (2 ^ 20 < b.bytes → exec (.copyTensor o errors) s = .next (v.stopSlice o 0 Status.overlapRejected 0 0)) ∧
      (b.bytes ≤ 2 ^ 20 → s.mayUseArea cc o = false → exec (.copyTensor o errors) s = .next s) ∧
      (b.bytes ≤ 2 ^ 20 → s.mayUseArea cc o = true →
        (x.copies.length = 4 → ∀ u, (runCopy (a.streamReq cc o 0) b (some cc) errors).run a = .ok () u → ends u) ∧
        (x.copies.length ≠ 4 → ∀ t1, (stageBox (a.streamReq cc o 0) b cc).run a = .ok () t1 →
          let t2 := t1.modOp o fun z => { z with copies := z.copies ++ [1] }
          ∀ u, (runCopy (t2.streamReq cc o 0) b (some cc) errors).run t2 = .ok () u → ends u))))

/-- Lookups in tables. A GATHER_POOL that may be dispatched and whose structures can be read and pass the rule's checks is
dispatched with its copies and one slice per table, queued at the leads. TABLE_SLICE_START of the slice at the head of its
lead takes its next segment in and starts it, while segments before it may be fetched; a detected error has the slice taken
in again from its first segment once, and a further one is a cause. ROW_FETCH keeps a row whose check passes; an unsound or
poisoned one leaves the cause poison consumed, an unsound one with a report. SLICE_DELIVERY of a slice whose rows are done
writes its vectors, or nothing where it met a cause, and ends it; an error has it redone once, and is a cause then. After
the last slice, with no frame outstanding, it makes the zeros, mask and report, and settles the op with the status of its
parts. -/
def Obligations.TableLookups : Prop :=
  (∀ (s t u : State) (o : OpRef) (x z : Op), MayDispatch s t o x 0x03 → (readGather x (t.spineReq o.ctx (.op o 1000))).run t = .ok z u →
    u.op? o = some x → exec (.gatherPool o) s = .next ((u.dispatched o z).queueSlices o) ∧
      ∃ b lists, ∃ ts : List (Nat × Nat), ∃ offs, z = { x with copies := [b], body := .tables lists (ts.map (·.1)) offs, slices := tableSlices (ts.map (·.2)) } ∧
        lists.all TableEntry.ok = true ∧ gatherOk x.word b lists (ts.map (·.1)) offs = true) ∧
  (∀ (s u : State) (o : OpRef) (k g errors : Nat) (x : Op) (y : Slice) (t t1 : TableWork),
    s.tableWork? o 0x03 k = some (x, y, t, g) → t.closed = false → y.phase ≠ .ended → y.phase ≠ .reported →
    let tcbs := (State.tablesOf x).2.1
    let offs := (State.tablesOf x).2.2
    let r := s.leadReq g o k
    let again := decide (errors ≠ 0) && !t.redone
    let t0 : TableWork := if again then { redone := true } else t
    (gatherIntake r x.word (x.copies.getD 0 0) (tcbs.getD y.lo 0) offs y.lo t0).run s = .ok t1 u → u.op? o = some x →
    let u1 := if again then (u.dropRows o k).addObj 0x6040 g 1 else u
    let t2 := if b2n again < errors then { t1 with causes := t1.causes ++ [Status.silentError] } else t1
    exec (.tableSliceStart o k errors) s =
      .next (((u1.countIntake o g (t2.taken - t0.taken) (t2.segments - t0.segments) (t2.skipped.length - t0.skipped.length)).modSlice o k fun z =>
        { z with phase := .running }).setWork o k (u1.resolveNew r x y.lo t0 t2))) ∧
  (∀ (s u : State) (o : OpRef) (k g n a : Nat) (x : Op) (y : Slice) (t : TableWork) (p : RowFetch) (bs : List (BitVec 8)) (bad : Bool),
    s.tableWork? o 0x03 k = some (x, y, t, g) → t.begun = true → s.nextRow o k t = some (n, p) →
    let tcb := (State.tablesOf x).2.1.getD y.lo 0
    let hit := (p.hive.bind fun e => AMap.get? s.weevils.hive e).bind fun e => t.near.map fun c => s.replicaAddr c e.slot
    (readRow (s.rowReq g o k n) tcb p.row hit).run s = .ok (a, bs, bad) u →
    let w := ownerAt g a
    let c := ((u.addObj 0x6020 w 1).addObj 0x6021 w (b2n hit.isSome)).countShard a
    (bad = false → Row.sound tcb bs = true → exec (.rowFetch o k) s =
      .next (c.rowDone o k n (Row.values tcb bs) none (b2n hit.isSome) true)) ∧
    (bad = true → exec (.rowFetch o k) s = .next (c.rowDone o k n [] (some Status.poisonConsumed) (b2n hit.isSome) true)) ∧
    (bad = false → Row.sound tcb bs = false → exec (.rowFetch o k) s =
      .next ((c.countRaise 1 2 (2 ^ (c.ctx o.ctx).partition) 0x6023 w a).rowDone o k n [] (some Status.poisonConsumed) (b2n hit.isSome) true))) ∧
  (∀ (s : State) (o : OpRef) (k g : Nat) (x : Op) (y : Slice) (t : TableWork), s.tableWork? o 0x03 k = some (x, y, t, g) →
    y.phase = .running → t.begun = true → t.closed = true → (∀ i, i < t.plan.length → (AMap.get? t.rows i).isSome = true) →
    (∀ errors, errors ≠ 0 →
      (t.redone = false → exec (.sliceDelivery o k errors) s = .next (((s.dropRows o k).setWork o k { redone := true }).addObj 0x6040 g 1)) ∧
      (t.redone = true → exec (.sliceDelivery o k errors) s =
        .next ((s.endTable o k g (topCause (t.causes ++ [Status.silentError]))).endGather o))) ∧
    (t.causes ≠ [] → exec (.sliceDelivery o k 0) s = .next ((s.endTable o k g (topCause t.causes)).endGather o)) ∧
    (t.causes = [] → ∀ l u, (writeVectors (s.leadReq g o k) (gatherOutputs x t y.lo)).run s = .ok l u →
      exec (.sliceDelivery o k 0) s =
        .next (((if t.redone then u.notePassed o 0x6040 g else u).endTable o k g (topCause l)).endGather o))) ∧
  (∀ (s u : State) (o : OpRef) (k errors : Nat) (x : Op) (fail : Option Nat), s.running = true → s.op? o = some x →
    x.phase = .dispatched → OpHdr.opcode x.word = 0x03 → x.slices.all (·.phase == .ended) = true → s.unackedOf o = false →
    let g := ((x.slices.head?).bind (·.place)).getD 0
    (finishGather (s.leadReq g o 999) (s.spineReq o.ctx (.op o 1000)) x).run s = .ok fail u → ∀ z, u.op? o = some z →
    let lists := (State.tablesOf z).1
    let e := partsEnd (partsNamed lists) (partStatuses lists z.slices)
    let st := if z.slices.any fun y => y.status == Status.internal then Status.internal else fail.getD e.1
    Completes (.sliceDelivery o k errors) s fun v => v.mem = u.mem ∧ v.out = u.out ∧
      v.op? o = some { z with
        phase := .settled, status := st, low := if st = Status.internal then 0x31 else 0, high := e.2.1, partMap := e.2.2
        slices := z.slices.map fun y => { y with phase := .reported } })

/-- Updates of rows. An UPDATE_ROWS that may be dispatched and whose structures can be read and pass the rule's checks is
dispatched with its copies and one slice per table, queued at the leads. TABLE_SLICE_START combines the gradients of the
next segment of the slice at the head of its lead and starts it; a detected error counts, and a second one is a cause.
ROW_RMW writes the next row back updated, counts it, and mirrors it into its replicas while it is resident; a row whose
check fails is reported and stops the slice, as does any other cause; a row that has to wait takes a place in its owner's
queue, which its write frees. A slice without a cause writes its random state back and ends with its last row. -/
def Obligations.TableUpdates : Prop :=
  (∀ (s t u : State) (o : OpRef) (x z : Op), MayDispatch s t o x 0x04 → (readUpdate x (t.spineReq o.ctx (.op o 1000))).run t = .ok z u →
    u.op? o = some x → exec (.updateRows o) s = .next ((u.dispatched o z).queueSlices o) ∧
      ∃ b lists, ∃ ts : List (Nat × Nat), ∃ offs, z = { x with copies := [b], body := .tables lists (ts.map (·.1)) offs, slices := tableSlices (ts.map (·.2)) } ∧
        lists.all TableEntry.ok = true ∧ updateOk x.word b lists (ts.map (·.1)) offs = true) ∧
  (∀ (s : State) (o : OpRef) (k g errors : Nat) (x : Op) (y : Slice) (t : TableWork),
    s.tableWork? o 0x04 k = some (x, y, t, g) → t.closed = false → y.phase ≠ .ended → y.phase ≠ .reported →
    let b := State.tablesOf x
    let t0 := { t with redone := t.redone || decide (errors ≠ 0) }
    ∀ t1 u, (errors < 2 → (updateIntake (s.leadReq g o k) x.word (x.copies.getD 0 0) (b.2.1.getD y.lo 0) (b.1.getD y.lo 0) (b.2.2.getD y.lo 0)
        (b.2.2.getD (y.lo + 1) 0) t0).run s = .ok t1 u) →
      (2 ≤ errors → u = s ∧ t1 = { t0 with begun := true, closed := true, openRows := [], causes := t0.causes ++ [Status.silentError] }) →
      u.op? o = some x →
    let u1 := if errors ≠ 0 then u.addObj 0x6040 g 1 else u
    let v := ((u1.countIntake o g (t1.taken - t0.taken) (t1.segments - t0.segments) (t1.skipped.length - t0.skipped.length)).modSlice o k fun z =>
      { z with phase := .running }).setWork o k t1
    exec (.tableSliceStart o k errors) s = .next ((v.endUpdate o k).finishUpdates o) ∧
    ((∀ e ∈ t1.rows, e.2 = []) → State.planDone t1 = false → exec (.tableSliceStart o k errors) s = .next v)) ∧
  (∀ (s u : State) (o : OpRef) (k g n errors : Nat) (x : Op) (y : Slice) (t : TableWork) (p : RowFetch) (d : State.Sent) (out : Rmw),
    s.tableWork? o 0x04 k = some (x, y, t, g) → y.phase = .running → t.begun = true → (∀ e ∈ t.rows, e.2 = []) →
    let tcb := (State.tablesOf x).2.1.getD y.lo 0
    s.nextUpdate o k g tcb t = some (n, p, d) →
    let close := fun (v : State) => (v.endUpdate o k).finishUpdates o
    (∀ w, d = .queue w → exec (.rowRmw o k errors) s =
      .next (close (s.queueUpdate w ⟨o, k, n, (s.ctx o.ctx).root * 2 ^ 52 + Tcb.rowAddr tcb p.row⟩))) ∧
    (d = .perform →
      (rowRmw (s.rowReq g o k n) x.word tcb g p (Row.draws t.lfsr (Tcb.dim tcb * n)) (decide (2 ≤ errors))).run s = .ok out u →
      let f := u.freeUpdates fun h => h.o == o && h.k == k && h.n == n
      (∀ owner a bytes odd, out = .written owner a bytes odd →
        let u1 := if errors = 1 then (f.addObj 0x6040 owner 1).notePassed o 0x6040 owner else f
        let m := ((u1.countRowWrite owner a).nonFiniteRow o owner odd).mirrorRow tcb p.row owner bytes
        exec (.rowRmw o k errors) s = .next (close (m.2.updateDone o k n (p.uses.map (·.1)) none m.1))) ∧
      (∀ st, out = .cause st → exec (.rowRmw o k errors) s = .next (close (f.updateDone o k n [] (some st) 0))) ∧
      (∀ owner, out = .lost owner → exec (.rowRmw o k errors) s =
        .next (close ((f.addObj 0x6040 owner 1).updateDone o k n [] (some Status.silentError) 0))) ∧
      (∀ owner a, out = .unsound owner a → exec (.rowRmw o k errors) s =
        .next (close ((f.countRaise 1 2 (2 ^ (f.ctx o.ctx).partition) 0x6023 owner a).updateDone o k n [] (some Status.poisonConsumed) 0))))) ∧
  (∀ (s : State) (o : OpRef) (k g : Nat) (x : Op) (y : Slice) (t : TableWork), s.tableWork? o 0x04 k = some (x, y, t, g) →
    y.phase = .running → t.begun = true → (∀ e ∈ t.rows, e.2 = []) →
    ((t.closed = false ∨ ∃ i, i < t.plan.length ∧ AMap.get? t.rows i = none) → s.endUpdate o k = s) ∧
    (t.closed = true → (∀ i, i < t.plan.length → (AMap.get? t.rows i).isSome = true) →
      (t.causes ≠ [] → s.endUpdate o k = ((s.dropRows o k).freeUpdates fun h => h.o == o && h.k == k).endTable o k g (topCause t.causes)) ∧
      (t.causes = [] → ∀ u, let b := State.tablesOf x
        (writeVA (s.leadReq g o k) (TableEntry.tcb (b.1.getD y.lo 0) + 64)
          (leBytes 4 (Row.draws t.lfsr (Tcb.dim (b.2.1.getD y.lo 0) * t.plan.length)))).run s = .ok () u →
        s.endUpdate o k = (if t.redone then u.notePassed o 0x6040 g else u).endTable o k g Status.ok))) ∧
  (∀ (i tcb row owner : Nat) (s : State) (bytes : List (BitVec 8)) (e : HiveEntry), s.hiveEntry (Tcb.tableId tcb) row = some (i, e) →
    let t := s.writeReplicas e.slot (Tcb.slot tcb) bytes
    (s.mirrorRow tcb row owner bytes).1 = 64 ∧ (s.mirrorRow tcb row owner bytes).2.obj 0x6032 owner = (t.obj 0x6032 owner + 64) % 2 ^ 64)

/-- REPLACE_ROWS, the Hive and REBIND_MARK. A REPLACE_ROWS or REBIND_MARK that may be dispatched, whose TCB and items can be
read, is dispatched and queued at its lead, and runs when it is at the lead's head. REPLACE, once none of its rows has to
wait in its owner's queue, writes its items in order, admits or evicts rows by its action, and settles with the items that
failed. An admitted row has a valid entry and its bytes in the replicas. An evicted entry stays until its slot is free, and
the op waits for it; HIVE_SLOT_FREE frees the slot of a withdrawn entry that no fetch holds, and nothing else. REBIND_MARK
of each action settles OK once the TCB's upper fields are written. -/
def Obligations.RowsAndHive : Prop :=
  (∀ (s t u : State) (o : OpRef) (x z : Op) (c : Instr) (a code : Nat), ((c, code, a) ∈ [(.hiveAdmit o, 0x05, 1), (.hiveEvict o, 0x05, 2), (.rebindMarkBegin o, 0x06, 0),
      (.rebindMarkEnd o, 0x06, 1), (.rebindMarkAbort o, 0x06, 2)] ∨ ∃ errors, (c, code, a) = (.replace o errors, 0x05, 0)) →
    MayDispatch s t o x code → (if code = 0x05 then ReplaceOp.action x.word else MarkOp.action x.word) = a →
    ((if code = 0x05 then readReplace else readMark) x (t.spineReq o.ctx (.op o 1000))).run t = .ok z u → u.op? o = some x →
    let q := (u.dispatched o z).queueSlices o
    exec c s = exec c q ∧ (q.tableWork? o code 0 = none → exec c s = .next q)) ∧
  (∀ (s : State) (o : OpRef) (x : Op) (y : Slice) (t : TableWork) (g : Nat), s.tableWork? o 0x05 0 = some (x, y, t, g) →
    let items := (State.tablesOf x).1
    let tcb := (State.tablesOf x).2.1.getD 0 0
    let r := s.leadReq g o 0
    let spine := s.spineReq o.ctx (.op o 1000)
    let rr := { r with targets := 9 }
    (ReplaceOp.action x.word = 0 → ∀ errors,
      (∀ h w, s.heldItem rr o x.word tcb g items = some (h, some (.queue w)) → exec (.replace o errors) s = .next (s.queueUpdate w h)) ∧
      (∀ h, s.heldItem rr o x.word tcb g items = some (h, none) → exec (.replace o errors) s = .next s) ∧
      (s.heldItem rr o x.word tcb g items = none →
        (∀ v u, (runReplace r rr spine o x.word tcb g errors items).run s = .ok v u →
          exec (.replace o errors) s = .next (((u.freeUpdates fun h => h.o == o).leaveLead o 0 g).settleItems o items.length v.1.fails v.2)) ∧
        (∀ st k u, (runReplace r rr spine o x.word tcb g errors items).run s = .error (.fail st k) u →
          exec (.replace o errors) s = .next (((u.freeUpdates fun h => h.o == o).leaveLead o 0 g).failOp o st k)))) ∧
    (ReplaceOp.action x.word = 1 → ∀ e u1 f u, (admitItems { r with targets := 9 } o tcb g {} items.zipIdx).run s = .ok e u1 →
      (itemsReport spine x.word e).run u1 = .ok f u →
      exec (.hiveAdmit o) s = .next ((u.leaveLead o 0 g).settleItems o items.length e.fails f)) ∧
    (ReplaceOp.action x.word = 2 → (∃ a b c, x.body = .tables a b c) →
      let step := fun (p : State × List (Nat × Nat) × Nat) (e : Nat × Nat) => match p.1.evictItem o tcb e.1 with
        | some v => (v, p.2.1, p.2.2 + 1)
        | none => (p.1, p.2.1 ++ [(e.2, Status.descriptorInvalid)], p.2.2)
      let w := items.zipIdx.foldl step (s, [], 0)
      let v := w.1.modOp o fun z => { z with body := .evict w.2.1 items.length w.2.2 }
      exec (.hiveEvict o) s = .next (v.endEvict o) ∧ (w.1.evicted o = false → exec (.hiveEvict o) s = .next v))) ∧
  (∀ (s u : State) (rr : Req) (o : OpRef) (tcb g item : Nat), (admitItem rr o tcb g item).run s = .ok () u →
    RowItem.row item < Tcb.rowCount tcb ∧ AMap.get? u.weevils.hive (RowItem.entry item) =
      some { table := Tcb.tableId tcb, row := RowItem.row item, slot := RowItem.slot item, bytes := Tcb.slot tcb, valid := true }) ∧
  (∀ (s : State) (o : OpRef) (x : Op) (y : Slice) (t : TableWork) (g : Nat), s.tableWork? o 0x06 0 = some (x, y, t, g) →
    ∀ u, (runMark (s.leadReq g o 0) x.word ((State.tablesOf x).2.1.getD 0 0)).run s = .ok () u →
    let v := (u.leaveLead o 0 g).modOp o fun z => { z with
      phase := .settled, status := Status.ok, slices := z.slices.map fun y => { y with phase := .reported } }
    (MarkOp.action x.word = 0 → exec (.rebindMarkBegin o) s = .next v) ∧ (MarkOp.action x.word = 1 → exec (.rebindMarkEnd o) s = .next v) ∧
      (MarkOp.action x.word = 2 → exec (.rebindMarkAbort o) s = .next v)) ∧
  (∀ (s : State) (entry : Nat) (x : HiveEntry), s.running = true → AMap.get? s.weevils.hive entry = some x →
    (x.valid = true ∨ s.slotHeld entry = true → exec (.hiveSlotFree entry) s = .next s) ∧
    (x.valid = false → s.slotHeld entry = false → let t : State := { s with weevils := { s.weevils with hive := AMap.erase s.weevils.hive entry } }
      (x.evictor = none → exec (.hiveSlotFree entry) s = .next t) ∧
      (∀ o, x.evictor = some o → exec (.hiveSlotFree entry) s = .next (t.endEvict o) ∧ (t.evicted o = false → exec (.hiveSlotFree entry) s = .next t)) ∧
      AMap.get? t.weevils.hive entry = none))

/-- REMOTE_WRITE and REMOTE_GATHER. A REMOTE_WRITE that may be dispatched, with a legal record and a source that can be
read, towards a peer of version 2 puts its bytes and then its signal on the stream to its peer, and is settled; one detected
error in it counts, a second one fails it with free values sent. A REMOTE_GATHER that may be dispatched and whose structures
can be read is dispatched with its request sent; once its final reply is in, its results are written, and it ends OK where
every part is OK, or with the status its peer's refusal or the fabric gave it; a second detected error in its writes ends it
as unrecovered. -/
def Obligations.RemoteOps : Prop :=
  (∀ (s t u : State) (o : OpRef) (x : Op) (bs : List (BitVec 8)) (marks : List Bool) (errors : Nat), MayDispatch s t o x 0x0F → RemoteWriteOp.ok x.word = true →
    let w := x.word
    let r := t.spineReq o.ctx (.op o 1000)
    let p := RemoteWriteOp.peer w
    let n := 64 + RemoteWriteOp.engine w
    (streamRow { r with kind := 2, id := RemoteWriteOp.engine w } (RemoteWriteOp.len w / 4096 + 2) (RemoteWriteOp.src w) (RemoteWriteOp.len w)).run t =
      .ok (bs, marks) u → u.peerVersion p = 2 →
    let d := u.draw.2
    let u1 := if errors = 1 then (d.addObj 0x5041 n 1).notePassed o 0x5041 n else d
    let q := u1.queueWrite p r.cls (payerOf u1 r.who) (RemoteWriteOp.peerOff w) bs marks
    let v := if RemoteWriteOp.sigMode w = 0 then q else q.queueFrame p r.cls (payerOf u1 r.who) { blankFrame 5 with
      offset := RemoteWriteOp.peerOff w, sigMode := RemoteWriteOp.sigMode w, fence := RemoteWriteOp.sigFence w, last := true
      payload := leBytes 8 (RemoteWriteOp.sigValue w) }
    (errors < 2 → (v.op? o).isSome = true → Completes (.remoteWrite ⟨o, errors⟩) s fun z =>
      (∃ i, z.op? o = some { x with phase := .settled, order := i, replayed := x.replayed || errors == 1 }) ∧
      z.fabric = v.fabric ∧ z.out = v.out ∧ z.mem = v.mem) ∧
    (2 ≤ errors →
      exec (.remoteWrite ⟨o, errors⟩) s = .next (((d.queueWrite p r.cls (payerOf d r.who) (RemoteWriteOp.peerOff w) (spoilBytes u.draw.1 bs) marks).modQuire
        o.ctx o.entry fun q => { q with started := true }).failOp o Status.silentError 0))) ∧
  (∀ (s t u : State) (o : OpRef) (x z : Op) (errors : Nat), MayDispatch s t o x 0x0E → (sendGather x (t.spineReq o.ctx (.op o 1000))).run t = .ok z u →
    u.op? o = some x → exec (.remoteGather ⟨o, errors⟩) s = .next (u.dispatched o z) ∧
      RemoteGatherOp.ok x.word = true ∧ ∃ b tag n, z = { x with copies := [b], body := .remote { peer := RemoteGatherOp.peer x.word, tag := tag, vectors := n } } ∧
        u.fabric.nextTag = (tag + 1) % 2 ^ 32) ∧
  (∀ (s : State) (o : OpRef) (x : Op) (work : RemoteWork) (errors : Nat), s.running = true → s.op? o = some x → x.phase = .dispatched →
    x.body = .remote work → OpHdr.opcode x.word = 0x0E →
    let r := s.spineReq o.ctx (.op o 1000)
    let d := s.draw.2
    let dead := { work with parts := List.replicate 16 Status.fabricUnreachable, report := List.replicate 32 0 }
    let spoilt := { work with got := work.got.map fun g => (g.1, spoilBytes s.draw.1 g.2.1, g.2.2), report := spoilBytes s.draw.1 work.report }
    (work.finished = false → exec (.remoteGather ⟨o, errors⟩) s = .next s) ∧
    (work.finished = true → work.status = 0 → errors < 2 → (∀ p, p < 16 → Status.failed (work.parts.getD p 0) = false) →
      ∀ u, (landGather x r work).run d = .ok () u → ∀ y, u.op? o = some y →
      Completes (.remoteGather ⟨o, errors⟩) s fun z => z.mem = u.mem ∧ (errors = 0 → z.out = u.out) ∧
        z.op? o = some { y with phase := .settled, status := Status.ok, low := 0, high := 0, partMap := 0, body := .none, replayed := y.replayed || errors == 1 }) ∧
    (work.finished = true → work.status = 0 → 2 ≤ errors →
      ∀ u, (landGather x r spoilt).run d = .ok () u → ∀ y, u.op? o = some y →
      Completes (.remoteGather ⟨o, errors⟩) s fun z => z.mem = u.mem ∧ z.out = u.out ∧
        z.op? o = some { y with phase := .settled, status := Status.silentError, low := 0, high := 0, body := .none }) ∧
    (work.finished = true → work.status = Status.fabricUnreachable → errors = 0 →
      ∀ u, (landGather x r dead).run d = .ok () u → ∀ y, u.op? o = some y →
      Completes (.remoteGather ⟨o, errors⟩) s fun z => z.mem = u.mem ∧ z.out = u.out ∧
        ∃ pm, z.op? o = some { y with phase := .settled, status := Status.fabricUnreachable, low := 0, high := work.code, partMap := pm, body := .none }) ∧
    (work.finished = true → work.status ≠ 0 → work.status ≠ Status.fabricUnreachable →
      Completes (.remoteGather ⟨o, errors⟩) s fun z => z.mem = s.mem ∧ z.out = s.out ∧
        z.op? o = some { x with phase := .settled, status := work.status, low := 0, high := work.code, partMap := 0, body := .none }))

/-- Rounds and grants of the shared-port arbiters. ARBITER_ROUND adds the requests that arrive; without a grant in force,
and with a winner, it takes committed slot values and runs a round: the winner has the grant and its base priority, every
other candidate ages by one, and the other slots keep their priority. GRANT_END adds the requests that arrive and runs the
grant to the first boundary at which the rule ends it: the queue empty, the limit reached, or, for classes 2 and 3, class 0
requesting; requests are transferred in their order, and a class-0 request met at the first boundary ends such a grant
there. A preempted slot keeps its progress; preemptions, forced wins and resumed grants count. Other instances keep their
state. -/
def Obligations.Arbiters : Prop :=
  (∀ (s : State) (kk inst : Nat) (arr : List Arrival), s.running = true → kk < 6 → inst < s.obj 0x7000 kk →
    let a := s.arriveAt kk inst (s.takeSlots kk (s.arb kk inst)) arr
    let others := fun (t : State) => t.mem = s.mem ∧ t.out = s.out ∧ t.ctxs = s.ctxs ∧
      ∀ k i, State.arbKey k i ≠ State.arbKey kk inst → AMap.get? t.arbs (State.arbKey k i) = AMap.get? s.arbs (State.arbKey k i)
    (a.grant ≠ none ∨ a.winner = none → Completes (.arbiterRound kk inst arr) s fun t => others t ∧ t.arb kk inst = s.arriveAt kk inst (s.arb kk inst) arr ∧ t.objs = s.objs) ∧
    (∀ w, a.grant = none → a.winner = some w → Completes (.arbiterRound kk inst arr) s fun t => others t ∧ t.arb kk inst = a.round ∧
      t.obj 0x7021 kk = (if a.forced = [] then s.obj 0x7021 kk else (s.obj 0x7021 kk + 1) % 2 ^ 64) ∧
      t.obj 0x7022 kk = (if (a.slot w).resume = true then (s.obj 0x7022 kk + 1) % 2 ^ 64 else s.obj 0x7022 kk))) ∧
  (∀ (a : Arb) (w : Nat), a.winner = some w → let b := a.round
    w ∈ a.cands ∧ b.lastWinner = w ∧ b.preempted = false ∧
    b.grant = some (if (a.slot w).resume then (w, (a.slot w).progress, (a.slot w).burstHeld) else (w, 0, (a.slot w).burst)) ∧
    (∀ i, i < a.slots.length →
      let x := a.slot i
      b.slot i = (if i = w then { x with effPrio := x.basePrio, wait := 0, resume := false }
        else if i ∈ a.cands then { x with effPrio := min (x.effPrio + 1) 15, wait := min (x.wait + 1) 255 } else x))) ∧
  (∀ (s : State) (kk inst : Nat) (arr : List Arrival), s.running = true → kk < 6 → inst < s.obj 0x7000 kk →
    let a := s.arriveAt kk inst (s.arb kk inst) arr
    (∀ n, a.grant = none → exec (.grantEnd kk inst n arr) s = .next s) ∧
    (∀ w done limit, a.grant = some (w, done, limit) → let e := a.ends w done limit
      (∀ n, n ≠ e.2.1 → exec (.grantEnd kk inst n arr) s = .next s) ∧
      Completes (.grantEnd kk inst e.2.1 arr) s fun t => t.mem = s.mem ∧ t.out = s.out ∧ t.ctxs = s.ctxs ∧
        t.arb kk inst = t.takeSlots kk (a.endGrant w done limit e) ∧
        t.obj 0x7020 kk = (if e.1 = .preempted then (s.obj 0x7020 kk + 1) % 2 ^ 64 else s.obj 0x7020 kk) ∧
        ∀ k i, State.arbKey k i ≠ State.arbKey kk inst → AMap.get? t.arbs (State.arbKey k i) = AMap.get? s.arbs (State.arbKey k i))) ∧
  (∀ (a : Arb) (w done limit : Nat), let e := a.ends w done limit
    let q := (a.slot w).queue
    let first := (stepQueue q).1
    let beats := fun (l : List ArbReq) => (l.map (·.beats)).sum
    beats q = e.2.1 + beats e.2.2 ∧
    (e.1 = .emptied → requestsAt e.2.1 e.2.2 = false) ∧
    (e.1 = .limit → requestsAt e.2.1 e.2.2 = true ∧ limit ≤ done + e.2.1) ∧
    (e.1 = .preempted → requestsAt e.2.1 e.2.2 = true ∧ done + e.2.1 < limit ∧ 2 ≤ slotClass w ∧ a.urgent e.2.1 = true) ∧
    (2 ≤ slotClass w → a.urgent first = true → e.2.1 = first) ∧
    (limit ≤ done + first → e.2.1 = first)) ∧
  (∀ (a : Arb) (w done limit n : Nat) (l : List ArbReq), w < a.slots.length → let x := a.slot w
    let now := fun (q : List ArbReq) => q.map fun r => ({ r with since := 0 } : ArbReq)
    (a.endGrant w done limit (.emptied, n, [])).slot w = { x with queue := [], effPrio := x.basePrio, wait := 0, resume := false } ∧
    (a.endGrant w done limit (.limit, n, l)).slot w = { x with queue := now l } ∧
    (a.endGrant w done limit (.preempted, n, l)).slot w =
      { x with queue := now l, resume := true, progress := done + n, burstHeld := limit, effPrio := 15 } ∧
    (∀ e : GrantEnd × Nat × List ArbReq, (a.endGrant w done limit e).preempted = (e.1 == .preempted) ∧ (a.endGrant w done limit e).grant = none ∧
      ∀ i, i < a.slots.length → i ≠ w → (a.endGrant w done limit e).slot i = { a.slot i with queue := now (a.slot i).queue }))

/-- Context switches, and clusters that move. CONTEXT_SWITCH on a serving cluster for which another context waits, once no
replay, resume or access of its units is in progress, chooses that context; a resident one is saved first: its working
region goes to the free slot, its units go there and leave the cluster, and its slices wait behind the others. Without a
free slot it stays, which counts once. CONTEXT_RESTORE_COMPLETE makes the chosen context resident, with its saved region and
cores, as the slot holds them, or with a region of zeros; poison in the slot fails its slices; a closed context is dropped.
CLUSTER_MOVE_HANDOVER of a moving cluster without slices zeroes its software area and lets it serve its new partition.
MOVE_WAIT_EXPIRY ends its running slices as internal failures. -/
def Obligations.ContextSwitches : Prop :=
  (∀ (s : State) (c n : Nat), let x := s.cluster c
    s.running = true → x.mode = .serving → x.devArea = none → s.replaying c = false → s.unitsQuiet c = true → s.clusterReserved c = false → s.partValid (s.clusterPart c) = true → s.incoming c = some n →
    (x.resident = none → exec (.contextSwitch c) s = .next (s.setCluster c { x with mode := .switching none n })) ∧
    (∀ m k, x.resident = some m → s.freeSlot (s.ctx m).partition c = some k → AMap.sorted s.mem = true →
      let p := (s.ctx m).partition
      s.wsBytes p ≤ 0x300000 →
      Completes (.contextSwitch c) s fun t => (∃ v : Saved, v.slot = k ∧
          t.cluster c = { x with resident := none, needsRetry := false, mode := .switching (some m) n, saved := AMap.set x.saved m v, queue := (x.queue.filter fun r => r.o.ctx != m) ++ x.queue.filter fun r => r.o.ctx == m }) ∧
        (∀ d, d ≠ c → t.cluster d = s.cluster d) ∧ t.ctxs = s.ctxs ∧ t.out = s.out ∧
        (∀ i, i < s.wsBytes p → t.memByte (s.slotAddr p k + i) = s.memByte (storeAddr c i)) ∧
        (∀ a, a < s.slotAddr p k ∨ s.slotAddr p k + 0x3D0000 ≤ a → t.memByte a = s.memByte a) ∧
        (∀ y ∈ t.cores, y.1 / 4 = c → State.coreOf m y.2 = false)) ∧
    (∀ m, x.resident = some m → s.freeSlot (s.ctx m).partition c = none → (s.ctx m).partition < 8 →
      (x.needsRetry = true → exec (.contextSwitch c) s = .next s) ∧
      (x.needsRetry = false → Completes (.contextSwitch c) s fun t => t.cluster c = { x with needsRetry := true } ∧
        (∀ d, d ≠ c → t.cluster d = s.cluster d) ∧ t.mem = s.mem ∧ t.ctxs = s.ctxs ∧ t.cores = s.cores ∧ t.out = s.out ∧
        t.obj 0x3032 (s.ctx m).partition = (s.obj 0x3032 (s.ctx m).partition + 1) % 2 ^ 64))) ∧
  (∀ (s : State) (c n : Nat) (m : Option Nat), let x := s.cluster c
    s.running = true → x.mode = .switching m n →
    ((s.ctx n).phase ≠ .opened → exec (.contextRestoreComplete c) s = .next (s.setCluster c { x with mode := .serving })) ∧
    ((s.ctx n).phase = .opened → let p := (s.ctx n).partition
      (AMap.get? x.saved n = none → Completes (.contextRestoreComplete c) s fun t =>
        t.cluster c = { x with mode := .serving, resident := some n } ∧ (∀ d, d ≠ c → t.cluster d = s.cluster d) ∧ t.ctxs = s.ctxs ∧ t.cores = s.cores ∧
        (∀ i, i < s.wsBytes p → t.memByte (storeAddr c i) = 0) ∧
        (∀ a, a < storeAddr c 0 ∨ storeAddr c (s.wsBytes p) ≤ a → t.memByte a = s.memByte a)) ∧
      (∀ v, AMap.get? x.saved n = some v → AMap.sorted s.mem = true →
        let u := s.copyRange (s.slotAddr p v.slot) (storeAddr c 0) (s.wsBytes p)
        Completes (.contextRestoreComplete c) s fun t =>
          t.cluster c = { x with mode := .serving, resident := some n, saved := AMap.erase x.saved n } ∧ (∀ d, d ≠ c → t.cluster d = s.cluster d) ∧
          (∀ i, i < s.wsBytes p → t.memByte (storeAddr c i) = s.memByte (s.slotAddr p v.slot + i)) ∧
          (∀ a, a < storeAddr c 0 ∨ storeAddr c (s.wsBytes p) ≤ a → t.memByte a = s.memByte a) ∧
          (s.slotPoisoned p v = false → t.ctxs = s.ctxs ∧
            (AMap.sorted v.cores = true → ∀ k ∈ v.cores,
              t.core (4 * c + k.1) = { u.coreIn (s.slotAddr p v.slot + State.coreAt k.1) k.2 with mustPass := (s.core (4 * c + k.1)).mustPass })) ∧
          (s.slotPoisoned p v = true → ∀ r ∈ x.queue, r ∈ v.slices → ∀ y, s.slice? r.o r.k = some y →
            ∃ w, t.slice? r.o r.k = some { y with
              phase := .ended, status := Status.poisonConsumed, low := 0, high := s.blockReached r.o, work := w })))) ∧
  (∀ (s : State) (c : Nat), let x := s.cluster c
    s.running = true → x.moving = true →
    (x.mode ≠ .handover → x.mode ≠ .resetting → x.queue = [] → Completes (.clusterMoveHandover c) s fun t =>
      t.cluster c = { x with moving := false, oldPart := 0xF, resident := none, saved := [], mode := .serving, needsRetry := false } ∧
      (∀ d, d ≠ c → t.cluster d = s.cluster d) ∧ t.ctxs = s.ctxs ∧ (∀ y ∈ t.cores, y.1 / 4 = c → y.2.task = none ∧ y.2.image = none) ∧
      (∀ i, i < 0x300000 → t.memByte (storeAddr c i) = 0) ∧
      (∀ a, a < storeAddr c 0 ∨ storeAddr c 0x300000 ≤ a → t.memByte a = s.memByte a) ∧
      (t.movePending = false → t.obj 0x3002 1 = 0)) ∧
    (x.queue ≠ [] → exec (.clusterMoveHandover c) s = .next s) ∧
    (Completes (.moveWaitExpiry c) s fun t => t.mem = s.mem ∧ t.clusters = s.clusters ∧ t.out = s.out ∧
      (∀ r ∈ x.queue, ∀ y, s.slice? r.o r.k = some y → y.phase = .running →
        ∃ w, t.slice? r.o r.k = some { y with phase := .ended, status := Status.internal, low := 0x30, high := s.blockReached r.o, work := w }) ∧
      (∀ o k, (∀ r ∈ x.queue, r = ⟨o, k⟩ → (s.slice? o k).any (·.phase == .running) = false) → (s.slice? o k).map (·.phase) = (t.slice? o k).map (·.phase)) ∧
      (∀ y ∈ t.cores, y.1 / 4 = c → ∀ z, y.2.task = some z → ⟨z.o, z.k⟩ ∈ x.queue → (s.slice? z.o z.k).any (·.phase == .running) = false)))

/-- At most eight entries of a queue are in progress. From every state in which no queue has more than eight entries taken
whose records are not written, held ones among them, every step leads to such a state. While a queue has eight, the commands
that take an entry of its ring change nothing: the ninth waits there. So at most eight records of a queue are held. -/
def Obligations.EntriesInProgress : Prop :=
  (∀ s t : State, (∀ n, (s.ctx n).entries.length ≤ 8) → step s = .next t → ∀ n, (t.ctx n).entries.length ≤ 8) ∧
  (∀ (s : State) (n : Nat), (s.ctx n).entries.length = 8 →
    exec (.submit n) s = .next s ∧ exec (.bind n) s = .next s ∧ exec (.patch n) s = .next s ∧ exec (.launch n) s = .next s ∧
      exec (.unbind n) s = .next s) ∧
  (∀ (s : State) (n : Nat), (s.ctx n).entries.length ≤ 8 → ((s.ctx n).entries.filter (·.record.isSome)).length ≤ 8)

/-- After the thermal trip the device serves nothing until power is removed. THERM_TRIP stops every clock and asserts
THERM_TRIP_N. From then on no command but POWER_ON and POWER_DOWN changes anything but the end of a reset stretch: no memory
is written, nothing is sent, THERM_TRIP_N stays asserted whatever DEV_RESET_N does, and the device does not run. POWER_DOWN
removes the rails and POWER_ON starts it anew. -/
def Obligations.ThermalTrip : Prop :=
  (∀ s : State, s.board.powered = true → Completes .thermTrip s fun t => t.board.thermTrip = true ∧ t.board.clocksStopped = true ∧
    t.running = false ∧ t.mem = s.mem ∧ t.out = s.out) ∧
  (∀ (i : Instr) (s : State), s.board.thermTrip = true → s.board.clocksStopped = true → i ≠ .powerDown → (∀ straps, i ≠ .powerOn straps) →
    Completes i s fun t => t = { s with board := { s.board with stretching := t.board.stretching } } ∧ t.running = false) ∧
  (∀ s t : State, (s.board.thermTrip = true → s.board.clocksStopped = true) → step s = .next t →
    t.board.thermTrip = true → t.board.clocksStopped = true) ∧
  (∀ s : State, s.board.thermTrip = true → Completes .powerDown s fun t => t.board.powered = false ∧ t.board.thermTrip = false) ∧
  (∀ (s : State) (straps : Nat), Completes (.powerOn straps) s fun t => t.board.thermTrip = false ∧ t.board.clocksStopped = false)

/-- The channel, layer and Weevil of a cover address. For every address of the cover tier: the channel number is its bits 34
to 28, bit 6 of that the layer and bits 5 to 0 the channel in it; the channel's range begins at the number times 256 MiB and
holds the address; Weevil 24 plus a sixteenth of the number serves it. -/
def Obligations.CoverChannels : Prop :=
  ∀ a : Nat, a < 0x800000000 → let n := bits a 34 28
    n = 64 * bits n 6 6 + bits n 5 0 ∧ n * 0x10000000 ≤ a ∧ a < n * 0x10000000 + 0x10000000 ∧ (∀ lead, ownerAt lead a = 24 + n / 16) ∧
    (a < coverTop → placeOf a = .cover n) ∧ (coverTop ≤ a → placeOf a = .coverDevice ∧ n = 127) ∧
    (∀ s : State, s.tierStarting a = true ↔ s.obj 0x2003 (bits n 6 6) ≠ 2 ∧ s.obj 0x2003 (bits n 6 6) ≠ 3) ∧
    (∀ s : State, s.withdrawn a = true ↔ s.obj 0x4012 n = 2)

/-- Repeated tags, and the replies kept for them. Every step keeps at most sixteen kept replies of each session and each
sessionless requester. A message that passes its checks and repeats a tag with a kept reply is answered with that reply and
changes nothing else; one that repeats the tag of a request still being performed is discarded. A reply that is sent is
kept, first of its party's, and of the earlier ones the newest fifteen stay. -/
def Obligations.RepeatedTags : Prop :=
  (∀ s t : State, (∀ e ∈ s.amiso.kept, e.2.length ≤ 16) → step s = .next t → ∀ e ∈ t.amiso.kept, e.2.length ≤ 16) ∧
  (∀ (s : State) (r : Requester) (h : MsgHead) (pl tr : List (BitVec 8)) (k : Nat) (c : Instr), s.mgmtUp = true → s.board.restartDue = false →
    (k, c) ∈ [(1, .read r h pl tr), (2, .write r h pl tr), (3, .commit r h pl tr), (3, .commitDiscard r h pl tr), (4, .bulkPut r h pl tr), (5, .bulkGet r h pl tr)] →
    (r.session = 0 ∨ (s.sessionOf r).isSome = true) → (k = 2 → Unheld s r) → let key := State.keyOf (s.sessionOf r) r
    (key = [] ∨ tr = kmac256 key (State.header h.version k 0 h.tag pl.length r.session ++ pl) 128 "AMISO MSG") →
    (∀ bs, s.keptReply (State.partyOf r) h.tag = some bs → exec c s = .next (s.carryReply r (some h.tag) bs) ∧
      (hostFnOf r = none → exec c s = .next { s with out := s.out ++ [.amiso r.path r.ident bs] })) ∧
    (s.keptReply (State.partyOf r) h.tag = none → s.stillServed r h.tag = true → exec c s = .next s)) ∧
  (∀ (s : State) (r : Requester) (tag : Nat) (key bs : List (BitVec 8)), r.session = 0 ∨ (s.amiso.sessions.any fun x => x.n == r.session) = true →
    let t := s.sendReply r (some tag) key bs
    let p := State.partyOf r
    t.keptReply p tag = some (s.sealReply r key bs) ∧
    (∀ l, (s.amiso.kept.find? fun x => x.1 == p) = some (p, l) → ∀ u, u ≠ tag → ∀ i, (l.filter fun x => x.1 != tag).findIdx? (·.1 == u) = some i →
      t.keptReply p u = if i < 15 then s.keptReply p u else none) ∧
    (∀ q, q ≠ p → ∀ u, t.keptReply q u = s.keptReply q u))

/-- A round of a shared-port arbiter. On an instance of 32 slots without a grant in force, with a candidate among the slots,
ARBITER_ROUND picks the winner by the rule: candidates are the slots that request, of class 0 alone after a preemption; the
pool is the forced candidates of greatest wait, or the candidates of greatest effective priority where none is forced; the
winner has the lowest class in the pool, and in it comes first after the last winner. The other candidates age by one, up to
15 and 255; the winner returns to its base priority with wait 0; it becomes the last winner; and its grant starts with the
saved progress and burst where it resumes, otherwise with none and its own burst. -/
def Obligations.ArbiterRounds : Prop :=
  ∀ (s : State) (kk inst : Nat) (arr : List Arrival), s.running = true → kk < 6 → inst < s.obj 0x7000 kk →
    let a := s.arriveAt kk inst (s.takeSlots kk (s.arb kk inst)) arr
    let cand := fun i => i < 32 ∧ (a.slot i).queue ≠ [] ∧ (a.preempted = true → i < 8)
    let forced := fun i => cand i ∧ (a.slot i).waitLimit ≤ (a.slot i).wait
    let pool := fun i => (forced i ∧ ∀ j, forced j → (a.slot j).wait ≤ (a.slot i).wait) ∨
      ((∀ j, ¬ forced j) ∧ cand i ∧ ∀ j, cand j → (a.slot j).effPrio ≤ (a.slot i).effPrio)
    let after := fun i => (i + 31 - a.lastWinner % 32) % 32
    a.slots.length = 32 → a.grant = none → (∃ j, cand j) → Completes (.arbiterRound kk inst arr) s fun t => ∃ w,
      let b := t.arb kk inst
      let x := a.slot w
      pool w ∧ (∀ j, pool j → w / 8 ≤ j / 8) ∧ (∀ j, pool j → j / 8 = w / 8 → after w ≤ after j) ∧
      (∀ i, i ≠ w → cand i → b.slot i = { a.slot i with effPrio := min ((a.slot i).effPrio + 1) 15, wait := min ((a.slot i).wait + 1) 255 }) ∧
      (∀ i, i ≠ w → ¬ cand i → b.slot i = a.slot i) ∧
      b.slot w = { x with effPrio := x.basePrio, wait := 0, resume := false } ∧ b.lastWinner = w ∧
      b.grant = some (if x.resume = true then (w, x.progress, x.burstHeld) else (w, 0, x.burst))
end

