-- ==== Sys2Proof/Laws/Keeps.lean ====
section
/-! SUPPORT. What every operation of the machine keeps: the commands that wait, the canonical form of device memory, what has
been sent and drawn, and what is fused for good. One relation, with the rules to compose it. -/

namespace Sys2Proof.Machine

/-! ### Canonical maps -/

namespace AMap

variable {α : Type}

theorem sortedFrom_mono {m : AMap α} : ∀ {lo lo' : Nat}, lo' ≤ lo → sortedFrom lo m = true → sortedFrom lo' m = true := by
  induction m with
  | nil => intros; rfl
  | cons p m ih =>
    intro lo lo' h hs
    simp only [sortedFrom, Bool.and_eq_true, decide_eq_true_eq] at hs ⊢
    exact ⟨Nat.le_trans h hs.1, hs.2⟩

theorem sortedFrom_set {m : AMap α} : ∀ {lo k : Nat} {v : α}, lo ≤ k → sortedFrom lo m = true → sortedFrom lo (set m k v) = true := by
  induction m with
  | nil => intro lo k v h _; simp [set, sortedFrom, h]
  | cons p m ih =>
    obtain ⟨j, w⟩ := p
    intro lo k v h hs
    simp only [sortedFrom, Bool.and_eq_true, decide_eq_true_eq] at hs
    unfold set
    split
    · rename_i hk
      simp only [sortedFrom, Bool.and_eq_true, decide_eq_true_eq]
      exact ⟨h, by omega, hs.2⟩
    · split
      · rename_i _ hk
        subst hk
        simp only [sortedFrom, Bool.and_eq_true, decide_eq_true_eq]
        exact hs
      · simp only [sortedFrom, Bool.and_eq_true, decide_eq_true_eq]
        exact ⟨hs.1, ih (by omega) hs.2⟩

theorem sortedFrom_erase {m : AMap α} : ∀ {lo k : Nat}, sortedFrom lo m = true → sortedFrom lo (erase m k) = true := by
  induction m with
  | nil => intro lo k _; rfl
  | cons p m ih =>
    obtain ⟨j, w⟩ := p
    intro lo k hs
    simp only [sortedFrom, Bool.and_eq_true, decide_eq_true_eq] at hs
    unfold erase
    split
    · exact sortedFrom_mono (by omega) (ih hs.2)
    · simp only [sortedFrom, Bool.and_eq_true, decide_eq_true_eq]
      exact ⟨hs.1, ih hs.2⟩

theorem sortedFrom_filter {m : AMap α} {p : Nat × α → Bool} :
    ∀ {lo : Nat}, sortedFrom lo m = true → sortedFrom lo (m.filter p) = true := by
  induction m with
  | nil => intro lo _; rfl
  | cons q m ih =>
    obtain ⟨j, w⟩ := q
    intro lo hs
    simp only [sortedFrom, Bool.and_eq_true, decide_eq_true_eq] at hs
    rw [List.filter_cons]
    split
    · simp only [sortedFrom, Bool.and_eq_true, decide_eq_true_eq]
      exact ⟨hs.1, ih hs.2⟩
    · exact ih (sortedFrom_mono (by omega) hs.2)

theorem mem_set {m : AMap α} {k : Nat} {v : α} {p : Nat × α} : p ∈ set m k v → p = (k, v) ∨ p ∈ m := by
  induction m with
  | nil => simp [set]
  | cons q m ih =>
    obtain ⟨j, w⟩ := q
    unfold set
    split
    · simp
    · split
      · intro h; rcases List.mem_cons.1 h with h | h
        · exact .inl h
        · exact .inr (List.mem_cons_of_mem _ h)
      · intro h; rcases List.mem_cons.1 h with h | h
        · exact .inr (h ▸ List.mem_cons_self)
        · exact (ih h).imp id (List.mem_cons_of_mem _)

theorem mem_erase {m : AMap α} {k : Nat} {p : Nat × α} : p ∈ erase m k → p ∈ m := by
  induction m with
  | nil => simp [erase]
  | cons q m ih =>
    obtain ⟨j, w⟩ := q
    unfold erase
    split
    · exact fun h => List.mem_cons_of_mem _ (ih h)
    · intro h; rcases List.mem_cons.1 h with h | h
      · exact h ▸ List.mem_cons_self
      · exact List.mem_cons_of_mem _ (ih h)

/-- What another key holds is untouched by a `set`. -/
theorem get?_set_ne {m : AMap α} {k j : Nat} {v : α} (h : j ≠ k) : get? (set m k v) j = get? m j := by
  induction m with
  | nil => simp [set, get?, h]
  | cons q m ih =>
    obtain ⟨i, w⟩ := q
    unfold set
    split
    · simp [get?, h]
    · split
      · rename_i hk; subst hk; simp [get?, h]
      · simp [get?, ih]

variable [DecidableEq α]

/-- `put` keeps a map canonical. -/
theorem put_canonical {d : α} {m : AMap α} {k : Nat} {v : α} (h : (sorted m && noDefault d m) = true) :
    (sorted (put d m k v) && noDefault d (put d m k v)) = true := by
  simp only [sorted, noDefault, Bool.and_eq_true, List.all_eq_true, decide_eq_true_eq] at h ⊢
  unfold put
  split
  · exact ⟨sortedFrom_erase h.1, fun x hx => h.2 x (mem_erase hx)⟩
  · rename_i hv
    refine ⟨sortedFrom_set (Nat.zero_le _) h.1, fun x hx => ?_⟩
    rcases mem_set hx with rfl | hx
    · exact hv
    · exact h.2 x hx

/-- A filter keeps a map canonical. -/
theorem filter_canonical {d : α} {m : AMap α} {p : Nat × α → Bool} (h : (sorted m && noDefault d m) = true) :
    (sorted (m.filter p) && noDefault d (m.filter p)) = true := by
  simp only [sorted, noDefault, Bool.and_eq_true, List.all_eq_true, decide_eq_true_eq] at h ⊢
  exact ⟨sortedFrom_filter h.1, fun x hx => h.2 x (List.mem_filter.1 hx).1⟩

end AMap

/-! ### The relation -/

/-- Fuses only ever gain: keys, revocations and owner banks stay, and the rollback floor does not fall (R450 to R452). -/
structure FusesKept (a b : Fuses) : Prop where
  keys : ∀ k v, AMap.get? a.keySlots k = some v → AMap.get? b.keySlots k = some v
  revoked : ∀ k, k ∈ a.revoked → k ∈ b.revoked
  floor : a.floor ≤ b.floor
  owners : a.owners <+: b.owners

theorem FusesKept.refl (a : Fuses) : FusesKept a a := ⟨fun _ _ h => h, fun _ h => h, Nat.le_refl _, List.prefix_rfl⟩

theorem FusesKept.trans {a b c : Fuses} (h : FusesKept a b) (k : FusesKept b c) : FusesKept a c :=
  ⟨fun i v x => k.keys i v (h.keys i v x), fun i x => k.revoked i (h.revoked i x), Nat.le_trans h.floor k.floor,
    h.owners.trans k.owners⟩

/-- `t` may come from `s`: nothing of the queue is touched, what was sent stays sent, free values are drawn in order, device
memory stays canonical, and fuses stay fused. -/
structure Keeps (s t : State) : Prop where
  pending : t.pending = s.pending
  free : s.free ≤ t.free
  out : s.out <+: t.out
  mem : Memory.wf s.mem = true → Memory.wf t.mem = true
  fuses : FusesKept s.fuses t.fuses

theorem Keeps.refl (s : State) : Keeps s s := ⟨rfl, Nat.le_refl _, List.prefix_rfl, id, .refl _⟩

theorem Keeps.trans {s t u : State} (h : Keeps s t) (k : Keeps t u) : Keeps s u :=
  ⟨k.pending.trans h.pending, Nat.le_trans h.free k.free, h.out.trans k.out, fun x => k.mem (h.mem x), h.fuses.trans k.fuses⟩

section
variable {s t : State} {objs : AMap Nat} {mem : List Host.Cell} {poison : List Nat} {far : List Host.Cell} {farPoison : List Nat}
  {ctxs : AMap Ctx} {fences splits : AMap Nat} {fencePoison : List Nat} {graphs : AMap Graph} {trans : Trans}
  {clusters : AMap Cluster} {cores : AMap Core} {engines : AMap Engine} {lanes : AMap Nat} {arbs : AMap Arb} {attn : Attn}
  {mbox : AMap MboxSlot} {amiso : Amiso} {wins : AMap Win} {fns : AMap Fn} {hostPorts : AMap HostPort} {fabric : Fabric} {path : List PathEntry}
  {cxl : AMap CxlLink} {weevils : Weevils} {tiers : Tiers} {sparing : Sparing} {fw : Firmware} {fuses : Fuses} {board : Board}
  {power : Power} {out : List Out} {free : Nat}

/-- A record whose queue, outputs, draws, memory and fuses are those of `t`. -/
theorem Keeps.record (h : Keeps s t) :
    Keeps s ⟨t.pending, t.free, t.out, objs, t.mem, poison, far, farPoison, ctxs, fences, splits, fencePoison, graphs, trans,
      clusters, cores, engines, lanes, arbs, attn, mbox, amiso, wins, fns, hostPorts, fabric, path, cxl, weevils, tiers, sparing, fw,
      t.fuses, board, power⟩ :=
  ⟨h.pending, h.free, h.out, h.mem, h.fuses⟩

/-- The same as an equivalence: only those fields count. -/
theorem Keeps.record_iff :
    Keeps s ⟨t.pending, t.free, t.out, objs, t.mem, poison, far, farPoison, ctxs, fences, splits, fencePoison, graphs, trans,
      clusters, cores, engines, lanes, arbs, attn, mbox, amiso, wins, fns, hostPorts, fabric, path, cxl, weevils, tiers, sparing, fw,
      t.fuses, board, power⟩ ↔ Keeps s t :=
  ⟨fun h => ⟨h.pending, h.free, h.out, h.mem, h.fuses⟩, Keeps.record⟩

/-- A record that differs in memory too. -/
theorem Keeps.recordMem (h : Keeps s t) (hm : Memory.wf t.mem = true → Memory.wf mem = true) :
    Keeps s ⟨t.pending, t.free, t.out, objs, mem, poison, far, farPoison, ctxs, fences, splits, fencePoison, graphs, trans,
      clusters, cores, engines, lanes, arbs, attn, mbox, amiso, wins, fns, hostPorts, fabric, path, cxl, weevils, tiers, sparing, fw,
      t.fuses, board, power⟩ :=
  ⟨h.pending, h.free, h.out, fun x => hm (h.mem x), h.fuses⟩

/-- A record that differs in fuses too. -/
theorem Keeps.recordFuses (h : Keeps s t) (hf : FusesKept t.fuses fuses) :
    Keeps s ⟨t.pending, t.free, t.out, objs, t.mem, poison, far, farPoison, ctxs, fences, splits, fencePoison, graphs, trans,
      clusters, cores, engines, lanes, arbs, attn, mbox, amiso, wins, fns, hostPorts, fabric, path, cxl, weevils, tiers, sparing, fw,
      fuses, board, power⟩ :=
  ⟨h.pending, h.free, h.out, h.mem, h.fuses.trans hf⟩

/-- A record with one more draw. -/
theorem Keeps.recordDraw (h : Keeps s t) :
    Keeps s ⟨t.pending, t.free + 1, t.out, objs, t.mem, poison, far, farPoison, ctxs, fences, splits, fencePoison, graphs, trans,
      clusters, cores, engines, lanes, arbs, attn, mbox, amiso, wins, fns, hostPorts, fabric, path, cxl, weevils, tiers, sparing, fw,
      t.fuses, board, power⟩ :=
  ⟨h.pending, Nat.le_succ_of_le h.free, h.out, h.mem, h.fuses⟩

end

/-! ### Folds, options and pairs -/

theorem Keeps.foldl {α : Type} {s t : State} {f : State → α → State} {l : List α} (hf : ∀ u x, Keeps s u → Keeps s (f u x))
    (h : Keeps s t) : Keeps s (l.foldl f t) := by
  induction l generalizing t with
  | nil => exact h
  | cons x l ih => exact ih (hf t x h)

theorem Keeps.foldlFst {α β : Type} {s : State} {t : State × β} {f : State × β → α → State × β} {l : List α}
    (hf : ∀ u x, Keeps s u.1 → Keeps s (f u x).1) (h : Keeps s t.1) : Keeps s (l.foldl f t).1 := by
  induction l generalizing t with
  | nil => exact h
  | cons x l ih => exact ih (hf t x h)

theorem Keeps.foldlSnd {α β : Type} {s : State} {t : β × State} {f : β × State → α → β × State} {l : List α}
    (hf : ∀ u x, Keeps s u.2 → Keeps s (f u x).2) (h : Keeps s t.2) : Keeps s (l.foldl f t).2 := by
  induction l generalizing t with
  | nil => exact h
  | cons x l ih => exact ih (hf t x h)

theorem Keeps.foldlMid {α β γ : Type} {s : State} {t : β × State × γ} {f : β × State × γ → α → β × State × γ} {l : List α}
    (hf : ∀ u x, Keeps s u.2.1 → Keeps s (f u x).2.1) (h : Keeps s t.2.1) : Keeps s (l.foldl f t).2.1 := by
  induction l generalizing t with
  | nil => exact h
  | cons x l ih => exact ih (hf t x h)

theorem Keeps.iteFst {β : Type} {s : State} {c : Prop} [Decidable c] {p q : State × β} (h : Keeps s p.1) (k : Keeps s q.1) :
    Keeps s (if c then p else q).1 := by
  split
  · exact h
  · exact k

theorem Keeps.iteSnd {β : Type} {s : State} {c : Prop} [Decidable c] {p q : β × State} (h : Keeps s p.2) (k : Keeps s q.2) :
    Keeps s (if c then p else q).2 := by
  split
  · exact h
  · exact k

theorem Keeps.iteLast {β γ : Type} {s : State} {c : Prop} [Decidable c] {p q : β × γ × State} (h : Keeps s p.2.2)
    (k : Keeps s q.2.2) : Keeps s (if c then p else q).2.2 := by
  split
  · exact h
  · exact k

theorem Keeps.ofFst {β : Type} {s t : State} {b : β} {p : State × β} (e : p = (t, b)) (h : Keeps s p.1) : Keeps s t := by
  subst e; exact h

theorem Keeps.ofSnd {β : Type} {s t : State} {b : β} {p : β × State} (e : p = (b, t)) (h : Keeps s p.2) : Keeps s t := by
  subst e; exact h

/-- Where an optional state is given, it is kept. -/
structure Gives (s : State) (o : Option State) : Prop where
  all : ∀ t, o = some t → Keeps s t

/-- The same of a state beside a value. -/
structure GivesFst {β : Type} (s : State) (o : Option (State × β)) : Prop where
  all : ∀ t b, o = some (t, b) → Keeps s t

theorem Gives.none {s : State} : Gives s none := ⟨fun _ h => nomatch h⟩

theorem Gives.some {s t : State} (h : Keeps s t) : Gives s (some t) := ⟨fun _ e => Option.some.inj e ▸ h⟩

theorem Gives.getD {s t : State} {o : Option State} (h : Gives s o) (k : Keeps s t) : Keeps s (o.getD t) := by
  cases o with
  | none => exact k
  | some u => exact h.all u rfl

theorem Gives.of {s t : State} {o : Option State} (e : o = .some t) (h : Gives s o) : Keeps s t := h.all t e

theorem GivesFst.none {β : Type} {s : State} : GivesFst s (none : Option (State × β)) := ⟨fun _ _ h => nomatch h⟩

theorem GivesFst.some {β : Type} {s : State} {p : State × β} (h : Keeps s p.1) : GivesFst s (some p) :=
  ⟨fun t b e => by cases e; exact h⟩

theorem GivesFst.of {β : Type} {s t : State} {b : β} {o : Option (State × β)} (e : o = .some (t, b)) (h : GivesFst s o) :
    Keeps s t := h.all t b e

/-! ### Computations that may stop -/

/-- What a result leaves. -/
def Leaves {α : Type} (s : State) : EStateM.Result Stop State α → Prop
  | .ok _ t => Keeps s t
  | .error _ t => Keeps s t

/-- A computation run at `t` leaves only what `s` may come to. -/
def Ends {α : Type} (s t : State) (m : M α) : Prop := Leaves s (m t)

namespace Ends

variable {α β : Type} {s t u : State}

theorem pure {a : α} (h : Keeps s t) : Ends s t (Pure.pure a : M α) := h

theorem throw {e : Stop} (h : Keeps s t) : Ends s t (MonadExcept.throw e : M α) := h

theorem bind {m : M α} {f : α → M β} (h : Ends s t m) (k : ∀ a v, Keeps s v → Ends s v (f a)) : Ends s t (m >>= f) := by
  change Leaves s (EStateM.bind m f t)
  unfold EStateM.bind
  unfold Ends at h
  revert h
  cases m t with
  | ok a v => exact fun h => k a v h
  | error e v => exact fun h => h

theorem map {m : M α} {f : α → β} (h : Ends s t m) : Ends s t (f <$> m) := by
  change Leaves s (EStateM.map f m t)
  unfold EStateM.map
  unfold Ends at h
  revert h
  cases m t with
  | ok a v => exact id
  | error e v => exact id

theorem ite {c : Prop} [Decidable c] {m n : M α} (h : Ends s t m) (k : Ends s t n) : Ends s t (if c then m else n) := by
  split
  · exact h
  · exact k

theorem get_bind {f : State → M β} (h : Ends s t (f t)) : Ends s t (MonadState.get >>= f) := h

theorem set_bind {f : PUnit → M β} (h : Ends s u (f ⟨⟩)) : Ends s t (MonadStateOf.set u >>= f) := h

theorem modify_bind {g : State → State} {f : PUnit → M β} (h : Ends s (g t) (f ⟨⟩)) : Ends s t (modify g >>= f) := h

theorem set {u : State} (h : Keeps s u) : Ends s t (MonadStateOf.set u : M PUnit) := h

theorem changed {g : State → State} (h : Keeps s (g t)) : Ends s t (modify g : M PUnit) := h

theorem tryCatch {m : M α} {f : Stop → M α} (h : Ends s t m) (k : ∀ e v, Keeps s v → Ends s v (f e)) :
    Ends s t (MonadExcept.tryCatch m f) := by
  change Leaves s (EStateM.tryCatch m f t)
  unfold EStateM.tryCatch
  unfold Ends at h
  revert h
  cases m t with
  | ok a v => exact fun h => h
  | error e v => exact fun h => k e v h

theorem ofOk {m : M α} {a : α} (e : EStateM.run m u = .ok a t) (h : Ends s u m) : Keeps s t := by
  have h' : Leaves s (EStateM.run m u) := h
  rw [e] at h'
  exact h'

theorem ofError {m : M α} {x : Stop} (e : EStateM.run m u = .error x t) (h : Ends s u m) : Keeps s t := by
  have h' : Leaves s (EStateM.run m u) := h
  rw [e] at h'
  exact h'

end Ends

end Sys2Proof.Machine
end

