-- ==== Sys2Proof/Laws/State.lean ====
section
/-! SUPPORT. What each named update of the state does to each field, and what a read after a write gives. -/

set_option linter.all false

namespace Sys2Proof.Machine

/-! ### Maps -/

namespace AMap

variable {α : Type}

theorem get?_set_self {m : AMap α} {k : Nat} {v : α} : get? (set m k v) k = some v := by
  induction m with
  | nil => simp [set, get?]
  | cons q m ih =>
    obtain ⟨j, w⟩ := q
    unfold set
    split
    · simp [get?]
    · split
      · simp [get?]
      · rename_i h; simp [get?, h, ih]

theorem get?_erase_self {m : AMap α} {k : Nat} : get? (erase m k) k = none := by
  induction m with
  | nil => rfl
  | cons q m ih =>
    obtain ⟨j, w⟩ := q
    unfold erase
    split
    · exact ih
    · rename_i h; simp [get?, h, ih]

theorem get?_erase_ne {m : AMap α} {k j : Nat} (h : j ≠ k) : get? (erase m k) j = get? m j := by
  induction m with
  | nil => rfl
  | cons q m ih =>
    obtain ⟨i, w⟩ := q
    unfold erase
    split
    · rename_i hk; subst hk; simp [get?, h, ih]
    · simp [get?, ih]

variable [DecidableEq α]

/-- What was put at a key is read there. -/
@[simp] theorem getD_put_self {d : α} {m : AMap α} {k : Nat} {v : α} : getD (put d m k v) k d = v := by
  unfold put getD
  split
  · rename_i h; simp [get?_erase_self, h]
  · simp [get?_set_self]

/-- Every other key reads as before. -/
theorem getD_put_ne {d e : α} {m : AMap α} {k j : Nat} {v : α} (h : j ≠ k) : getD (put d m k v) j e = getD m j e := by
  unfold put getD
  split
  · simp [get?_erase_ne h]
  · simp [get?_set_ne h]

end AMap

namespace State

variable (s : State)

/-! ### A read after a write -/

@[simp] theorem obj_setObj_self (i j v : Nat) : (s.setObj i j v).obj i j = v := AMap.getD_put_self

theorem obj_setObj_ne {i j k l v : Nat} (h : objKey k l ≠ objKey i j) : (s.setObj i j v).obj k l = s.obj k l :=
  AMap.getD_put_ne h

@[simp] theorem ctx_setCtx_self (n : Nat) (c : Ctx) : (s.setCtx n c).ctx n = c := AMap.getD_put_self

theorem ctx_setCtx_ne {n m : Nat} {c : Ctx} (h : m ≠ n) : (s.setCtx n c).ctx m = s.ctx m := AMap.getD_put_ne h

@[simp] theorem fn_setFn_self (n : Nat) (f : Fn) : (s.setFn n f).fn n = f := AMap.getD_put_self

theorem fn_setFn_ne {n m : Nat} {f : Fn} (h : m ≠ n) : (s.setFn n f).fn m = s.fn m := AMap.getD_put_ne h

@[simp] theorem hostPort_setHostPort_self (p : Nat) (h : HostPort) : (s.setHostPort p h).hostPort p = h := AMap.getD_put_self

theorem hostPort_setHostPort_ne {p q : Nat} {x : HostPort} (h : q ≠ p) : (s.setHostPort p x).hostPort q = s.hostPort q :=
  AMap.getD_put_ne h

@[simp] theorem cluster_setCluster_self (c : Nat) (x : Cluster) : (s.setCluster c x).cluster c = x := AMap.getD_put_self

theorem cluster_setCluster_ne {c b : Nat} {x : Cluster} (h : b ≠ c) : (s.setCluster c x).cluster b = s.cluster b :=
  AMap.getD_put_ne h

@[simp] theorem core_setCore_self (n : Nat) (x : Core) : (s.setCore n x).core n = x := AMap.getD_put_self

theorem core_setCore_ne {n m : Nat} {x : Core} (h : m ≠ n) : (s.setCore n x).core m = s.core m := AMap.getD_put_ne h

@[simp] theorem engine_setEngine_self (c e : Nat) (x : Engine) : (s.setEngine c e x).engine c e = x := AMap.getD_put_self

theorem engine_setEngine_ne {c e b f : Nat} {x : Engine} (h : 2 * b + f ≠ 2 * c + e) :
    (s.setEngine c e x).engine b f = s.engine b f := AMap.getD_put_ne h

@[simp] theorem cxlLink_setCxlLink_self (l : Nat) (x : CxlLink) : (s.setCxlLink l x).cxlLink l = x := AMap.getD_put_self

@[simp] theorem sharelPort_setSharelPort_self (p : Nat) (x : SharelPort) : (s.setSharelPort p x).sharelPort p = x :=
  AMap.getD_put_self

theorem sharelPort_setSharelPort_ne {p q : Nat} {x : SharelPort} (h : q ≠ p) :
    (s.setSharelPort p x).sharelPort q = s.sharelPort q := AMap.getD_put_ne h

@[simp] theorem fence_setFence_self (f v : Nat) : (s.setFence f v).fence f = v := AMap.getD_put_self

theorem fence_setFence_ne {f g v : Nat} (h : g ≠ f) : (s.setFence f v).fence g = s.fence g := AMap.getD_put_ne h

/-! ### setObj -/

@[simp] theorem pending_setObj (i j v : Nat) : (s.setObj i j v).pending = s.pending := rfl
@[simp] theorem free_setObj (i j v : Nat) : (s.setObj i j v).free = s.free := rfl
@[simp] theorem out_setObj (i j v : Nat) : (s.setObj i j v).out = s.out := rfl
@[simp] theorem mem_setObj (i j v : Nat) : (s.setObj i j v).mem = s.mem := rfl
@[simp] theorem poison_setObj (i j v : Nat) : (s.setObj i j v).poison = s.poison := rfl
@[simp] theorem far_setObj (i j v : Nat) : (s.setObj i j v).far = s.far := rfl
@[simp] theorem farPoison_setObj (i j v : Nat) : (s.setObj i j v).farPoison = s.farPoison := rfl
@[simp] theorem ctxs_setObj (i j v : Nat) : (s.setObj i j v).ctxs = s.ctxs := rfl
@[simp] theorem fences_setObj (i j v : Nat) : (s.setObj i j v).fences = s.fences := rfl
@[simp] theorem splits_setObj (i j v : Nat) : (s.setObj i j v).splits = s.splits := rfl
@[simp] theorem fencePoison_setObj (i j v : Nat) : (s.setObj i j v).fencePoison = s.fencePoison := rfl
@[simp] theorem graphs_setObj (i j v : Nat) : (s.setObj i j v).graphs = s.graphs := rfl
@[simp] theorem trans_setObj (i j v : Nat) : (s.setObj i j v).trans = s.trans := rfl
@[simp] theorem clusters_setObj (i j v : Nat) : (s.setObj i j v).clusters = s.clusters := rfl
@[simp] theorem cores_setObj (i j v : Nat) : (s.setObj i j v).cores = s.cores := rfl
@[simp] theorem engines_setObj (i j v : Nat) : (s.setObj i j v).engines = s.engines := rfl
@[simp] theorem lanes_setObj (i j v : Nat) : (s.setObj i j v).lanes = s.lanes := rfl
@[simp] theorem arbs_setObj (i j v : Nat) : (s.setObj i j v).arbs = s.arbs := rfl
@[simp] theorem attn_setObj (i j v : Nat) : (s.setObj i j v).attn = s.attn := rfl
@[simp] theorem mbox_setObj (i j v : Nat) : (s.setObj i j v).mbox = s.mbox := rfl
@[simp] theorem amiso_setObj (i j v : Nat) : (s.setObj i j v).amiso = s.amiso := rfl
@[simp] theorem wins_setObj (i j v : Nat) : (s.setObj i j v).wins = s.wins := rfl
@[simp] theorem fns_setObj (i j v : Nat) : (s.setObj i j v).fns = s.fns := rfl
@[simp] theorem hostPorts_setObj (i j v : Nat) : (s.setObj i j v).hostPorts = s.hostPorts := rfl
@[simp] theorem fabric_setObj (i j v : Nat) : (s.setObj i j v).fabric = s.fabric := rfl
@[simp] theorem path_setObj (i j v : Nat) : (s.setObj i j v).path = s.path := rfl
@[simp] theorem cxl_setObj (i j v : Nat) : (s.setObj i j v).cxl = s.cxl := rfl
@[simp] theorem weevils_setObj (i j v : Nat) : (s.setObj i j v).weevils = s.weevils := rfl
@[simp] theorem tiers_setObj (i j v : Nat) : (s.setObj i j v).tiers = s.tiers := rfl
@[simp] theorem sparing_setObj (i j v : Nat) : (s.setObj i j v).sparing = s.sparing := rfl
@[simp] theorem fw_setObj (i j v : Nat) : (s.setObj i j v).fw = s.fw := rfl
@[simp] theorem fuses_setObj (i j v : Nat) : (s.setObj i j v).fuses = s.fuses := rfl
@[simp] theorem board_setObj (i j v : Nat) : (s.setObj i j v).board = s.board := rfl
@[simp] theorem power_setObj (i j v : Nat) : (s.setObj i j v).power = s.power := rfl

/-! ### addObj -/

@[simp] theorem pending_addObj (i j v : Nat) : (s.addObj i j v).pending = s.pending := rfl
@[simp] theorem free_addObj (i j v : Nat) : (s.addObj i j v).free = s.free := rfl
@[simp] theorem out_addObj (i j v : Nat) : (s.addObj i j v).out = s.out := rfl
@[simp] theorem mem_addObj (i j v : Nat) : (s.addObj i j v).mem = s.mem := rfl
@[simp] theorem poison_addObj (i j v : Nat) : (s.addObj i j v).poison = s.poison := rfl
@[simp] theorem far_addObj (i j v : Nat) : (s.addObj i j v).far = s.far := rfl
@[simp] theorem farPoison_addObj (i j v : Nat) : (s.addObj i j v).farPoison = s.farPoison := rfl
@[simp] theorem ctxs_addObj (i j v : Nat) : (s.addObj i j v).ctxs = s.ctxs := rfl
@[simp] theorem fences_addObj (i j v : Nat) : (s.addObj i j v).fences = s.fences := rfl
@[simp] theorem splits_addObj (i j v : Nat) : (s.addObj i j v).splits = s.splits := rfl
@[simp] theorem fencePoison_addObj (i j v : Nat) : (s.addObj i j v).fencePoison = s.fencePoison := rfl
@[simp] theorem graphs_addObj (i j v : Nat) : (s.addObj i j v).graphs = s.graphs := rfl
@[simp] theorem trans_addObj (i j v : Nat) : (s.addObj i j v).trans = s.trans := rfl
@[simp] theorem clusters_addObj (i j v : Nat) : (s.addObj i j v).clusters = s.clusters := rfl
@[simp] theorem cores_addObj (i j v : Nat) : (s.addObj i j v).cores = s.cores := rfl
@[simp] theorem engines_addObj (i j v : Nat) : (s.addObj i j v).engines = s.engines := rfl
@[simp] theorem lanes_addObj (i j v : Nat) : (s.addObj i j v).lanes = s.lanes := rfl
@[simp] theorem arbs_addObj (i j v : Nat) : (s.addObj i j v).arbs = s.arbs := rfl
@[simp] theorem attn_addObj (i j v : Nat) : (s.addObj i j v).attn = s.attn := rfl
@[simp] theorem mbox_addObj (i j v : Nat) : (s.addObj i j v).mbox = s.mbox := rfl
@[simp] theorem amiso_addObj (i j v : Nat) : (s.addObj i j v).amiso = s.amiso := rfl
@[simp] theorem wins_addObj (i j v : Nat) : (s.addObj i j v).wins = s.wins := rfl
@[simp] theorem fns_addObj (i j v : Nat) : (s.addObj i j v).fns = s.fns := rfl
@[simp] theorem hostPorts_addObj (i j v : Nat) : (s.addObj i j v).hostPorts = s.hostPorts := rfl
@[simp] theorem fabric_addObj (i j v : Nat) : (s.addObj i j v).fabric = s.fabric := rfl
@[simp] theorem path_addObj (i j v : Nat) : (s.addObj i j v).path = s.path := rfl
@[simp] theorem cxl_addObj (i j v : Nat) : (s.addObj i j v).cxl = s.cxl := rfl
@[simp] theorem weevils_addObj (i j v : Nat) : (s.addObj i j v).weevils = s.weevils := rfl
@[simp] theorem tiers_addObj (i j v : Nat) : (s.addObj i j v).tiers = s.tiers := rfl
@[simp] theorem sparing_addObj (i j v : Nat) : (s.addObj i j v).sparing = s.sparing := rfl
@[simp] theorem fw_addObj (i j v : Nat) : (s.addObj i j v).fw = s.fw := rfl
@[simp] theorem fuses_addObj (i j v : Nat) : (s.addObj i j v).fuses = s.fuses := rfl
@[simp] theorem board_addObj (i j v : Nat) : (s.addObj i j v).board = s.board := rfl
@[simp] theorem power_addObj (i j v : Nat) : (s.addObj i j v).power = s.power := rfl

/-! ### send -/

@[simp] theorem pending_send (o : Out) : (s.send o).pending = s.pending := rfl
@[simp] theorem free_send (o : Out) : (s.send o).free = s.free := rfl
@[simp] theorem objs_send (o : Out) : (s.send o).objs = s.objs := rfl
@[simp] theorem mem_send (o : Out) : (s.send o).mem = s.mem := rfl
@[simp] theorem poison_send (o : Out) : (s.send o).poison = s.poison := rfl
@[simp] theorem far_send (o : Out) : (s.send o).far = s.far := rfl
@[simp] theorem farPoison_send (o : Out) : (s.send o).farPoison = s.farPoison := rfl
@[simp] theorem ctxs_send (o : Out) : (s.send o).ctxs = s.ctxs := rfl
@[simp] theorem fences_send (o : Out) : (s.send o).fences = s.fences := rfl
@[simp] theorem splits_send (o : Out) : (s.send o).splits = s.splits := rfl
@[simp] theorem fencePoison_send (o : Out) : (s.send o).fencePoison = s.fencePoison := rfl
@[simp] theorem graphs_send (o : Out) : (s.send o).graphs = s.graphs := rfl
@[simp] theorem trans_send (o : Out) : (s.send o).trans = s.trans := rfl
@[simp] theorem clusters_send (o : Out) : (s.send o).clusters = s.clusters := rfl
@[simp] theorem cores_send (o : Out) : (s.send o).cores = s.cores := rfl
@[simp] theorem engines_send (o : Out) : (s.send o).engines = s.engines := rfl
@[simp] theorem lanes_send (o : Out) : (s.send o).lanes = s.lanes := rfl
@[simp] theorem arbs_send (o : Out) : (s.send o).arbs = s.arbs := rfl
@[simp] theorem attn_send (o : Out) : (s.send o).attn = s.attn := rfl
@[simp] theorem mbox_send (o : Out) : (s.send o).mbox = s.mbox := rfl
@[simp] theorem amiso_send (o : Out) : (s.send o).amiso = s.amiso := rfl
@[simp] theorem wins_send (o : Out) : (s.send o).wins = s.wins := rfl
@[simp] theorem fns_send (o : Out) : (s.send o).fns = s.fns := rfl
@[simp] theorem hostPorts_send (o : Out) : (s.send o).hostPorts = s.hostPorts := rfl
@[simp] theorem fabric_send (o : Out) : (s.send o).fabric = s.fabric := rfl
@[simp] theorem path_send (o : Out) : (s.send o).path = s.path := rfl
@[simp] theorem cxl_send (o : Out) : (s.send o).cxl = s.cxl := rfl
@[simp] theorem weevils_send (o : Out) : (s.send o).weevils = s.weevils := rfl
@[simp] theorem tiers_send (o : Out) : (s.send o).tiers = s.tiers := rfl
@[simp] theorem sparing_send (o : Out) : (s.send o).sparing = s.sparing := rfl
@[simp] theorem fw_send (o : Out) : (s.send o).fw = s.fw := rfl
@[simp] theorem fuses_send (o : Out) : (s.send o).fuses = s.fuses := rfl
@[simp] theorem board_send (o : Out) : (s.send o).board = s.board := rfl
@[simp] theorem power_send (o : Out) : (s.send o).power = s.power := rfl

/-! ### setCtx -/

@[simp] theorem pending_setCtx (n : Nat) (c : Ctx) : (s.setCtx n c).pending = s.pending := rfl
@[simp] theorem free_setCtx (n : Nat) (c : Ctx) : (s.setCtx n c).free = s.free := rfl
@[simp] theorem out_setCtx (n : Nat) (c : Ctx) : (s.setCtx n c).out = s.out := rfl
@[simp] theorem objs_setCtx (n : Nat) (c : Ctx) : (s.setCtx n c).objs = s.objs := rfl
@[simp] theorem mem_setCtx (n : Nat) (c : Ctx) : (s.setCtx n c).mem = s.mem := rfl
@[simp] theorem poison_setCtx (n : Nat) (c : Ctx) : (s.setCtx n c).poison = s.poison := rfl
@[simp] theorem far_setCtx (n : Nat) (c : Ctx) : (s.setCtx n c).far = s.far := rfl
@[simp] theorem farPoison_setCtx (n : Nat) (c : Ctx) : (s.setCtx n c).farPoison = s.farPoison := rfl
@[simp] theorem fences_setCtx (n : Nat) (c : Ctx) : (s.setCtx n c).fences = s.fences := rfl
@[simp] theorem splits_setCtx (n : Nat) (c : Ctx) : (s.setCtx n c).splits = s.splits := rfl
@[simp] theorem fencePoison_setCtx (n : Nat) (c : Ctx) : (s.setCtx n c).fencePoison = s.fencePoison := rfl
@[simp] theorem graphs_setCtx (n : Nat) (c : Ctx) : (s.setCtx n c).graphs = s.graphs := rfl
@[simp] theorem trans_setCtx (n : Nat) (c : Ctx) : (s.setCtx n c).trans = s.trans := rfl
@[simp] theorem clusters_setCtx (n : Nat) (c : Ctx) : (s.setCtx n c).clusters = s.clusters := rfl
@[simp] theorem cores_setCtx (n : Nat) (c : Ctx) : (s.setCtx n c).cores = s.cores := rfl
@[simp] theorem engines_setCtx (n : Nat) (c : Ctx) : (s.setCtx n c).engines = s.engines := rfl
@[simp] theorem lanes_setCtx (n : Nat) (c : Ctx) : (s.setCtx n c).lanes = s.lanes := rfl
@[simp] theorem arbs_setCtx (n : Nat) (c : Ctx) : (s.setCtx n c).arbs = s.arbs := rfl
@[simp] theorem attn_setCtx (n : Nat) (c : Ctx) : (s.setCtx n c).attn = s.attn := rfl
@[simp] theorem mbox_setCtx (n : Nat) (c : Ctx) : (s.setCtx n c).mbox = s.mbox := rfl
@[simp] theorem amiso_setCtx (n : Nat) (c : Ctx) : (s.setCtx n c).amiso = s.amiso := rfl
@[simp] theorem wins_setCtx (n : Nat) (c : Ctx) : (s.setCtx n c).wins = s.wins := rfl
@[simp] theorem fns_setCtx (n : Nat) (c : Ctx) : (s.setCtx n c).fns = s.fns := rfl
@[simp] theorem hostPorts_setCtx (n : Nat) (c : Ctx) : (s.setCtx n c).hostPorts = s.hostPorts := rfl
@[simp] theorem fabric_setCtx (n : Nat) (c : Ctx) : (s.setCtx n c).fabric = s.fabric := rfl
@[simp] theorem path_setCtx (n : Nat) (c : Ctx) : (s.setCtx n c).path = s.path := rfl
@[simp] theorem cxl_setCtx (n : Nat) (c : Ctx) : (s.setCtx n c).cxl = s.cxl := rfl
@[simp] theorem weevils_setCtx (n : Nat) (c : Ctx) : (s.setCtx n c).weevils = s.weevils := rfl
@[simp] theorem tiers_setCtx (n : Nat) (c : Ctx) : (s.setCtx n c).tiers = s.tiers := rfl
@[simp] theorem sparing_setCtx (n : Nat) (c : Ctx) : (s.setCtx n c).sparing = s.sparing := rfl
@[simp] theorem fw_setCtx (n : Nat) (c : Ctx) : (s.setCtx n c).fw = s.fw := rfl
@[simp] theorem fuses_setCtx (n : Nat) (c : Ctx) : (s.setCtx n c).fuses = s.fuses := rfl
@[simp] theorem board_setCtx (n : Nat) (c : Ctx) : (s.setCtx n c).board = s.board := rfl
@[simp] theorem power_setCtx (n : Nat) (c : Ctx) : (s.setCtx n c).power = s.power := rfl

/-! ### setFn -/

@[simp] theorem pending_setFn (n : Nat) (f : Fn) : (s.setFn n f).pending = s.pending := rfl
@[simp] theorem free_setFn (n : Nat) (f : Fn) : (s.setFn n f).free = s.free := rfl
@[simp] theorem out_setFn (n : Nat) (f : Fn) : (s.setFn n f).out = s.out := rfl
@[simp] theorem objs_setFn (n : Nat) (f : Fn) : (s.setFn n f).objs = s.objs := rfl
@[simp] theorem mem_setFn (n : Nat) (f : Fn) : (s.setFn n f).mem = s.mem := rfl
@[simp] theorem poison_setFn (n : Nat) (f : Fn) : (s.setFn n f).poison = s.poison := rfl
@[simp] theorem far_setFn (n : Nat) (f : Fn) : (s.setFn n f).far = s.far := rfl
@[simp] theorem farPoison_setFn (n : Nat) (f : Fn) : (s.setFn n f).farPoison = s.farPoison := rfl
@[simp] theorem ctxs_setFn (n : Nat) (f : Fn) : (s.setFn n f).ctxs = s.ctxs := rfl
@[simp] theorem fences_setFn (n : Nat) (f : Fn) : (s.setFn n f).fences = s.fences := rfl
@[simp] theorem splits_setFn (n : Nat) (f : Fn) : (s.setFn n f).splits = s.splits := rfl
@[simp] theorem fencePoison_setFn (n : Nat) (f : Fn) : (s.setFn n f).fencePoison = s.fencePoison := rfl
@[simp] theorem graphs_setFn (n : Nat) (f : Fn) : (s.setFn n f).graphs = s.graphs := rfl
@[simp] theorem trans_setFn (n : Nat) (f : Fn) : (s.setFn n f).trans = s.trans := rfl
@[simp] theorem clusters_setFn (n : Nat) (f : Fn) : (s.setFn n f).clusters = s.clusters := rfl
@[simp] theorem cores_setFn (n : Nat) (f : Fn) : (s.setFn n f).cores = s.cores := rfl
@[simp] theorem engines_setFn (n : Nat) (f : Fn) : (s.setFn n f).engines = s.engines := rfl
@[simp] theorem lanes_setFn (n : Nat) (f : Fn) : (s.setFn n f).lanes = s.lanes := rfl
@[simp] theorem arbs_setFn (n : Nat) (f : Fn) : (s.setFn n f).arbs = s.arbs := rfl
@[simp] theorem attn_setFn (n : Nat) (f : Fn) : (s.setFn n f).attn = s.attn := rfl
@[simp] theorem mbox_setFn (n : Nat) (f : Fn) : (s.setFn n f).mbox = s.mbox := rfl
@[simp] theorem amiso_setFn (n : Nat) (f : Fn) : (s.setFn n f).amiso = s.amiso := rfl
@[simp] theorem wins_setFn (n : Nat) (f : Fn) : (s.setFn n f).wins = s.wins := rfl
@[simp] theorem hostPorts_setFn (n : Nat) (f : Fn) : (s.setFn n f).hostPorts = s.hostPorts := rfl
@[simp] theorem fabric_setFn (n : Nat) (f : Fn) : (s.setFn n f).fabric = s.fabric := rfl
@[simp] theorem path_setFn (n : Nat) (f : Fn) : (s.setFn n f).path = s.path := rfl
@[simp] theorem cxl_setFn (n : Nat) (f : Fn) : (s.setFn n f).cxl = s.cxl := rfl
@[simp] theorem weevils_setFn (n : Nat) (f : Fn) : (s.setFn n f).weevils = s.weevils := rfl
@[simp] theorem tiers_setFn (n : Nat) (f : Fn) : (s.setFn n f).tiers = s.tiers := rfl
@[simp] theorem sparing_setFn (n : Nat) (f : Fn) : (s.setFn n f).sparing = s.sparing := rfl
@[simp] theorem fw_setFn (n : Nat) (f : Fn) : (s.setFn n f).fw = s.fw := rfl
@[simp] theorem fuses_setFn (n : Nat) (f : Fn) : (s.setFn n f).fuses = s.fuses := rfl
@[simp] theorem board_setFn (n : Nat) (f : Fn) : (s.setFn n f).board = s.board := rfl
@[simp] theorem power_setFn (n : Nat) (f : Fn) : (s.setFn n f).power = s.power := rfl

/-! ### setHostPort -/

@[simp] theorem pending_setHostPort (p : Nat) (h : HostPort) : (s.setHostPort p h).pending = s.pending := rfl
@[simp] theorem free_setHostPort (p : Nat) (h : HostPort) : (s.setHostPort p h).free = s.free := rfl
@[simp] theorem out_setHostPort (p : Nat) (h : HostPort) : (s.setHostPort p h).out = s.out := rfl
@[simp] theorem objs_setHostPort (p : Nat) (h : HostPort) : (s.setHostPort p h).objs = s.objs := rfl
@[simp] theorem mem_setHostPort (p : Nat) (h : HostPort) : (s.setHostPort p h).mem = s.mem := rfl
@[simp] theorem poison_setHostPort (p : Nat) (h : HostPort) : (s.setHostPort p h).poison = s.poison := rfl
@[simp] theorem far_setHostPort (p : Nat) (h : HostPort) : (s.setHostPort p h).far = s.far := rfl
@[simp] theorem farPoison_setHostPort (p : Nat) (h : HostPort) : (s.setHostPort p h).farPoison = s.farPoison := rfl
@[simp] theorem ctxs_setHostPort (p : Nat) (h : HostPort) : (s.setHostPort p h).ctxs = s.ctxs := rfl
@[simp] theorem fences_setHostPort (p : Nat) (h : HostPort) : (s.setHostPort p h).fences = s.fences := rfl
@[simp] theorem splits_setHostPort (p : Nat) (h : HostPort) : (s.setHostPort p h).splits = s.splits := rfl
@[simp] theorem fencePoison_setHostPort (p : Nat) (h : HostPort) : (s.setHostPort p h).fencePoison = s.fencePoison := rfl
@[simp] theorem graphs_setHostPort (p : Nat) (h : HostPort) : (s.setHostPort p h).graphs = s.graphs := rfl
@[simp] theorem trans_setHostPort (p : Nat) (h : HostPort) : (s.setHostPort p h).trans = s.trans := rfl
@[simp] theorem clusters_setHostPort (p : Nat) (h : HostPort) : (s.setHostPort p h).clusters = s.clusters := rfl
@[simp] theorem cores_setHostPort (p : Nat) (h : HostPort) : (s.setHostPort p h).cores = s.cores := rfl
@[simp] theorem engines_setHostPort (p : Nat) (h : HostPort) : (s.setHostPort p h).engines = s.engines := rfl
@[simp] theorem lanes_setHostPort (p : Nat) (h : HostPort) : (s.setHostPort p h).lanes = s.lanes := rfl
@[simp] theorem arbs_setHostPort (p : Nat) (h : HostPort) : (s.setHostPort p h).arbs = s.arbs := rfl
@[simp] theorem attn_setHostPort (p : Nat) (h : HostPort) : (s.setHostPort p h).attn = s.attn := rfl
@[simp] theorem mbox_setHostPort (p : Nat) (h : HostPort) : (s.setHostPort p h).mbox = s.mbox := rfl
@[simp] theorem amiso_setHostPort (p : Nat) (h : HostPort) : (s.setHostPort p h).amiso = s.amiso := rfl
@[simp] theorem wins_setHostPort (p : Nat) (h : HostPort) : (s.setHostPort p h).wins = s.wins := rfl
@[simp] theorem fns_setHostPort (p : Nat) (h : HostPort) : (s.setHostPort p h).fns = s.fns := rfl
@[simp] theorem fabric_setHostPort (p : Nat) (h : HostPort) : (s.setHostPort p h).fabric = s.fabric := rfl
@[simp] theorem path_setHostPort (p : Nat) (h : HostPort) : (s.setHostPort p h).path = s.path := rfl
@[simp] theorem cxl_setHostPort (p : Nat) (h : HostPort) : (s.setHostPort p h).cxl = s.cxl := rfl
@[simp] theorem weevils_setHostPort (p : Nat) (h : HostPort) : (s.setHostPort p h).weevils = s.weevils := rfl
@[simp] theorem tiers_setHostPort (p : Nat) (h : HostPort) : (s.setHostPort p h).tiers = s.tiers := rfl
@[simp] theorem sparing_setHostPort (p : Nat) (h : HostPort) : (s.setHostPort p h).sparing = s.sparing := rfl
@[simp] theorem fw_setHostPort (p : Nat) (h : HostPort) : (s.setHostPort p h).fw = s.fw := rfl
@[simp] theorem fuses_setHostPort (p : Nat) (h : HostPort) : (s.setHostPort p h).fuses = s.fuses := rfl
@[simp] theorem board_setHostPort (p : Nat) (h : HostPort) : (s.setHostPort p h).board = s.board := rfl
@[simp] theorem power_setHostPort (p : Nat) (h : HostPort) : (s.setHostPort p h).power = s.power := rfl

/-! ### setCluster -/

@[simp] theorem pending_setCluster (c : Nat) (x : Cluster) : (s.setCluster c x).pending = s.pending := rfl
@[simp] theorem free_setCluster (c : Nat) (x : Cluster) : (s.setCluster c x).free = s.free := rfl
@[simp] theorem out_setCluster (c : Nat) (x : Cluster) : (s.setCluster c x).out = s.out := rfl
@[simp] theorem objs_setCluster (c : Nat) (x : Cluster) : (s.setCluster c x).objs = s.objs := rfl
@[simp] theorem mem_setCluster (c : Nat) (x : Cluster) : (s.setCluster c x).mem = s.mem := rfl
@[simp] theorem poison_setCluster (c : Nat) (x : Cluster) : (s.setCluster c x).poison = s.poison := rfl
@[simp] theorem far_setCluster (c : Nat) (x : Cluster) : (s.setCluster c x).far = s.far := rfl
@[simp] theorem farPoison_setCluster (c : Nat) (x : Cluster) : (s.setCluster c x).farPoison = s.farPoison := rfl
@[simp] theorem ctxs_setCluster (c : Nat) (x : Cluster) : (s.setCluster c x).ctxs = s.ctxs := rfl
@[simp] theorem fences_setCluster (c : Nat) (x : Cluster) : (s.setCluster c x).fences = s.fences := rfl
@[simp] theorem splits_setCluster (c : Nat) (x : Cluster) : (s.setCluster c x).splits = s.splits := rfl
@[simp] theorem fencePoison_setCluster (c : Nat) (x : Cluster) : (s.setCluster c x).fencePoison = s.fencePoison := rfl
@[simp] theorem graphs_setCluster (c : Nat) (x : Cluster) : (s.setCluster c x).graphs = s.graphs := rfl
@[simp] theorem trans_setCluster (c : Nat) (x : Cluster) : (s.setCluster c x).trans = s.trans := rfl
@[simp] theorem cores_setCluster (c : Nat) (x : Cluster) : (s.setCluster c x).cores = s.cores := rfl
@[simp] theorem engines_setCluster (c : Nat) (x : Cluster) : (s.setCluster c x).engines = s.engines := rfl
@[simp] theorem lanes_setCluster (c : Nat) (x : Cluster) : (s.setCluster c x).lanes = s.lanes := rfl
@[simp] theorem arbs_setCluster (c : Nat) (x : Cluster) : (s.setCluster c x).arbs = s.arbs := rfl
@[simp] theorem attn_setCluster (c : Nat) (x : Cluster) : (s.setCluster c x).attn = s.attn := rfl
@[simp] theorem mbox_setCluster (c : Nat) (x : Cluster) : (s.setCluster c x).mbox = s.mbox := rfl
@[simp] theorem amiso_setCluster (c : Nat) (x : Cluster) : (s.setCluster c x).amiso = s.amiso := rfl
@[simp] theorem wins_setCluster (c : Nat) (x : Cluster) : (s.setCluster c x).wins = s.wins := rfl
@[simp] theorem fns_setCluster (c : Nat) (x : Cluster) : (s.setCluster c x).fns = s.fns := rfl
@[simp] theorem hostPorts_setCluster (c : Nat) (x : Cluster) : (s.setCluster c x).hostPorts = s.hostPorts := rfl
@[simp] theorem fabric_setCluster (c : Nat) (x : Cluster) : (s.setCluster c x).fabric = s.fabric := rfl
@[simp] theorem path_setCluster (c : Nat) (x : Cluster) : (s.setCluster c x).path = s.path := rfl
@[simp] theorem cxl_setCluster (c : Nat) (x : Cluster) : (s.setCluster c x).cxl = s.cxl := rfl
@[simp] theorem weevils_setCluster (c : Nat) (x : Cluster) : (s.setCluster c x).weevils = s.weevils := rfl
@[simp] theorem tiers_setCluster (c : Nat) (x : Cluster) : (s.setCluster c x).tiers = s.tiers := rfl
@[simp] theorem sparing_setCluster (c : Nat) (x : Cluster) : (s.setCluster c x).sparing = s.sparing := rfl
@[simp] theorem fw_setCluster (c : Nat) (x : Cluster) : (s.setCluster c x).fw = s.fw := rfl
@[simp] theorem fuses_setCluster (c : Nat) (x : Cluster) : (s.setCluster c x).fuses = s.fuses := rfl
@[simp] theorem board_setCluster (c : Nat) (x : Cluster) : (s.setCluster c x).board = s.board := rfl
@[simp] theorem power_setCluster (c : Nat) (x : Cluster) : (s.setCluster c x).power = s.power := rfl

/-! ### setCore -/

@[simp] theorem pending_setCore (n : Nat) (x : Core) : (s.setCore n x).pending = s.pending := rfl
@[simp] theorem free_setCore (n : Nat) (x : Core) : (s.setCore n x).free = s.free := rfl
@[simp] theorem out_setCore (n : Nat) (x : Core) : (s.setCore n x).out = s.out := rfl
@[simp] theorem objs_setCore (n : Nat) (x : Core) : (s.setCore n x).objs = s.objs := rfl
@[simp] theorem mem_setCore (n : Nat) (x : Core) : (s.setCore n x).mem = s.mem := rfl
@[simp] theorem poison_setCore (n : Nat) (x : Core) : (s.setCore n x).poison = s.poison := rfl
@[simp] theorem far_setCore (n : Nat) (x : Core) : (s.setCore n x).far = s.far := rfl
@[simp] theorem farPoison_setCore (n : Nat) (x : Core) : (s.setCore n x).farPoison = s.farPoison := rfl
@[simp] theorem ctxs_setCore (n : Nat) (x : Core) : (s.setCore n x).ctxs = s.ctxs := rfl
@[simp] theorem fences_setCore (n : Nat) (x : Core) : (s.setCore n x).fences = s.fences := rfl
@[simp] theorem splits_setCore (n : Nat) (x : Core) : (s.setCore n x).splits = s.splits := rfl
@[simp] theorem fencePoison_setCore (n : Nat) (x : Core) : (s.setCore n x).fencePoison = s.fencePoison := rfl
@[simp] theorem graphs_setCore (n : Nat) (x : Core) : (s.setCore n x).graphs = s.graphs := rfl
@[simp] theorem trans_setCore (n : Nat) (x : Core) : (s.setCore n x).trans = s.trans := rfl
@[simp] theorem clusters_setCore (n : Nat) (x : Core) : (s.setCore n x).clusters = s.clusters := rfl
@[simp] theorem engines_setCore (n : Nat) (x : Core) : (s.setCore n x).engines = s.engines := rfl
@[simp] theorem lanes_setCore (n : Nat) (x : Core) : (s.setCore n x).lanes = s.lanes := rfl
@[simp] theorem arbs_setCore (n : Nat) (x : Core) : (s.setCore n x).arbs = s.arbs := rfl
@[simp] theorem attn_setCore (n : Nat) (x : Core) : (s.setCore n x).attn = s.attn := rfl
@[simp] theorem mbox_setCore (n : Nat) (x : Core) : (s.setCore n x).mbox = s.mbox := rfl
@[simp] theorem amiso_setCore (n : Nat) (x : Core) : (s.setCore n x).amiso = s.amiso := rfl
@[simp] theorem wins_setCore (n : Nat) (x : Core) : (s.setCore n x).wins = s.wins := rfl
@[simp] theorem fns_setCore (n : Nat) (x : Core) : (s.setCore n x).fns = s.fns := rfl
@[simp] theorem hostPorts_setCore (n : Nat) (x : Core) : (s.setCore n x).hostPorts = s.hostPorts := rfl
@[simp] theorem fabric_setCore (n : Nat) (x : Core) : (s.setCore n x).fabric = s.fabric := rfl
@[simp] theorem path_setCore (n : Nat) (x : Core) : (s.setCore n x).path = s.path := rfl
@[simp] theorem cxl_setCore (n : Nat) (x : Core) : (s.setCore n x).cxl = s.cxl := rfl
@[simp] theorem weevils_setCore (n : Nat) (x : Core) : (s.setCore n x).weevils = s.weevils := rfl
@[simp] theorem tiers_setCore (n : Nat) (x : Core) : (s.setCore n x).tiers = s.tiers := rfl
@[simp] theorem sparing_setCore (n : Nat) (x : Core) : (s.setCore n x).sparing = s.sparing := rfl
@[simp] theorem fw_setCore (n : Nat) (x : Core) : (s.setCore n x).fw = s.fw := rfl
@[simp] theorem fuses_setCore (n : Nat) (x : Core) : (s.setCore n x).fuses = s.fuses := rfl
@[simp] theorem board_setCore (n : Nat) (x : Core) : (s.setCore n x).board = s.board := rfl
@[simp] theorem power_setCore (n : Nat) (x : Core) : (s.setCore n x).power = s.power := rfl

/-! ### setEngine -/

@[simp] theorem pending_setEngine (c e : Nat) (x : Engine) : (s.setEngine c e x).pending = s.pending := rfl
@[simp] theorem free_setEngine (c e : Nat) (x : Engine) : (s.setEngine c e x).free = s.free := rfl
@[simp] theorem out_setEngine (c e : Nat) (x : Engine) : (s.setEngine c e x).out = s.out := rfl
@[simp] theorem objs_setEngine (c e : Nat) (x : Engine) : (s.setEngine c e x).objs = s.objs := rfl
@[simp] theorem mem_setEngine (c e : Nat) (x : Engine) : (s.setEngine c e x).mem = s.mem := rfl
@[simp] theorem poison_setEngine (c e : Nat) (x : Engine) : (s.setEngine c e x).poison = s.poison := rfl
@[simp] theorem far_setEngine (c e : Nat) (x : Engine) : (s.setEngine c e x).far = s.far := rfl
@[simp] theorem farPoison_setEngine (c e : Nat) (x : Engine) : (s.setEngine c e x).farPoison = s.farPoison := rfl
@[simp] theorem ctxs_setEngine (c e : Nat) (x : Engine) : (s.setEngine c e x).ctxs = s.ctxs := rfl
@[simp] theorem fences_setEngine (c e : Nat) (x : Engine) : (s.setEngine c e x).fences = s.fences := rfl
@[simp] theorem splits_setEngine (c e : Nat) (x : Engine) : (s.setEngine c e x).splits = s.splits := rfl
@[simp] theorem fencePoison_setEngine (c e : Nat) (x : Engine) : (s.setEngine c e x).fencePoison = s.fencePoison := rfl
@[simp] theorem graphs_setEngine (c e : Nat) (x : Engine) : (s.setEngine c e x).graphs = s.graphs := rfl
@[simp] theorem trans_setEngine (c e : Nat) (x : Engine) : (s.setEngine c e x).trans = s.trans := rfl
@[simp] theorem clusters_setEngine (c e : Nat) (x : Engine) : (s.setEngine c e x).clusters = s.clusters := rfl
@[simp] theorem cores_setEngine (c e : Nat) (x : Engine) : (s.setEngine c e x).cores = s.cores := rfl
@[simp] theorem lanes_setEngine (c e : Nat) (x : Engine) : (s.setEngine c e x).lanes = s.lanes := rfl
@[simp] theorem arbs_setEngine (c e : Nat) (x : Engine) : (s.setEngine c e x).arbs = s.arbs := rfl
@[simp] theorem attn_setEngine (c e : Nat) (x : Engine) : (s.setEngine c e x).attn = s.attn := rfl
@[simp] theorem mbox_setEngine (c e : Nat) (x : Engine) : (s.setEngine c e x).mbox = s.mbox := rfl
@[simp] theorem amiso_setEngine (c e : Nat) (x : Engine) : (s.setEngine c e x).amiso = s.amiso := rfl
@[simp] theorem wins_setEngine (c e : Nat) (x : Engine) : (s.setEngine c e x).wins = s.wins := rfl
@[simp] theorem fns_setEngine (c e : Nat) (x : Engine) : (s.setEngine c e x).fns = s.fns := rfl
@[simp] theorem hostPorts_setEngine (c e : Nat) (x : Engine) : (s.setEngine c e x).hostPorts = s.hostPorts := rfl
@[simp] theorem fabric_setEngine (c e : Nat) (x : Engine) : (s.setEngine c e x).fabric = s.fabric := rfl
@[simp] theorem path_setEngine (c e : Nat) (x : Engine) : (s.setEngine c e x).path = s.path := rfl
@[simp] theorem cxl_setEngine (c e : Nat) (x : Engine) : (s.setEngine c e x).cxl = s.cxl := rfl
@[simp] theorem weevils_setEngine (c e : Nat) (x : Engine) : (s.setEngine c e x).weevils = s.weevils := rfl
@[simp] theorem tiers_setEngine (c e : Nat) (x : Engine) : (s.setEngine c e x).tiers = s.tiers := rfl
@[simp] theorem sparing_setEngine (c e : Nat) (x : Engine) : (s.setEngine c e x).sparing = s.sparing := rfl
@[simp] theorem fw_setEngine (c e : Nat) (x : Engine) : (s.setEngine c e x).fw = s.fw := rfl
@[simp] theorem fuses_setEngine (c e : Nat) (x : Engine) : (s.setEngine c e x).fuses = s.fuses := rfl
@[simp] theorem board_setEngine (c e : Nat) (x : Engine) : (s.setEngine c e x).board = s.board := rfl
@[simp] theorem power_setEngine (c e : Nat) (x : Engine) : (s.setEngine c e x).power = s.power := rfl

/-! ### setCxlLink -/

@[simp] theorem pending_setCxlLink (l : Nat) (x : CxlLink) : (s.setCxlLink l x).pending = s.pending := rfl
@[simp] theorem free_setCxlLink (l : Nat) (x : CxlLink) : (s.setCxlLink l x).free = s.free := rfl
@[simp] theorem out_setCxlLink (l : Nat) (x : CxlLink) : (s.setCxlLink l x).out = s.out := rfl
@[simp] theorem objs_setCxlLink (l : Nat) (x : CxlLink) : (s.setCxlLink l x).objs = s.objs := rfl
@[simp] theorem mem_setCxlLink (l : Nat) (x : CxlLink) : (s.setCxlLink l x).mem = s.mem := rfl
@[simp] theorem poison_setCxlLink (l : Nat) (x : CxlLink) : (s.setCxlLink l x).poison = s.poison := rfl
@[simp] theorem far_setCxlLink (l : Nat) (x : CxlLink) : (s.setCxlLink l x).far = s.far := rfl
@[simp] theorem farPoison_setCxlLink (l : Nat) (x : CxlLink) : (s.setCxlLink l x).farPoison = s.farPoison := rfl
@[simp] theorem ctxs_setCxlLink (l : Nat) (x : CxlLink) : (s.setCxlLink l x).ctxs = s.ctxs := rfl
@[simp] theorem fences_setCxlLink (l : Nat) (x : CxlLink) : (s.setCxlLink l x).fences = s.fences := rfl
@[simp] theorem splits_setCxlLink (l : Nat) (x : CxlLink) : (s.setCxlLink l x).splits = s.splits := rfl
@[simp] theorem fencePoison_setCxlLink (l : Nat) (x : CxlLink) : (s.setCxlLink l x).fencePoison = s.fencePoison := rfl
@[simp] theorem graphs_setCxlLink (l : Nat) (x : CxlLink) : (s.setCxlLink l x).graphs = s.graphs := rfl
@[simp] theorem trans_setCxlLink (l : Nat) (x : CxlLink) : (s.setCxlLink l x).trans = s.trans := rfl
@[simp] theorem clusters_setCxlLink (l : Nat) (x : CxlLink) : (s.setCxlLink l x).clusters = s.clusters := rfl
@[simp] theorem cores_setCxlLink (l : Nat) (x : CxlLink) : (s.setCxlLink l x).cores = s.cores := rfl
@[simp] theorem engines_setCxlLink (l : Nat) (x : CxlLink) : (s.setCxlLink l x).engines = s.engines := rfl
@[simp] theorem lanes_setCxlLink (l : Nat) (x : CxlLink) : (s.setCxlLink l x).lanes = s.lanes := rfl
@[simp] theorem arbs_setCxlLink (l : Nat) (x : CxlLink) : (s.setCxlLink l x).arbs = s.arbs := rfl
@[simp] theorem attn_setCxlLink (l : Nat) (x : CxlLink) : (s.setCxlLink l x).attn = s.attn := rfl
@[simp] theorem mbox_setCxlLink (l : Nat) (x : CxlLink) : (s.setCxlLink l x).mbox = s.mbox := rfl
@[simp] theorem amiso_setCxlLink (l : Nat) (x : CxlLink) : (s.setCxlLink l x).amiso = s.amiso := rfl
@[simp] theorem wins_setCxlLink (l : Nat) (x : CxlLink) : (s.setCxlLink l x).wins = s.wins := rfl
@[simp] theorem fns_setCxlLink (l : Nat) (x : CxlLink) : (s.setCxlLink l x).fns = s.fns := rfl
@[simp] theorem hostPorts_setCxlLink (l : Nat) (x : CxlLink) : (s.setCxlLink l x).hostPorts = s.hostPorts := rfl
@[simp] theorem fabric_setCxlLink (l : Nat) (x : CxlLink) : (s.setCxlLink l x).fabric = s.fabric := rfl
@[simp] theorem path_setCxlLink (l : Nat) (x : CxlLink) : (s.setCxlLink l x).path = s.path := rfl
@[simp] theorem weevils_setCxlLink (l : Nat) (x : CxlLink) : (s.setCxlLink l x).weevils = s.weevils := rfl
@[simp] theorem tiers_setCxlLink (l : Nat) (x : CxlLink) : (s.setCxlLink l x).tiers = s.tiers := rfl
@[simp] theorem sparing_setCxlLink (l : Nat) (x : CxlLink) : (s.setCxlLink l x).sparing = s.sparing := rfl
@[simp] theorem fw_setCxlLink (l : Nat) (x : CxlLink) : (s.setCxlLink l x).fw = s.fw := rfl
@[simp] theorem fuses_setCxlLink (l : Nat) (x : CxlLink) : (s.setCxlLink l x).fuses = s.fuses := rfl
@[simp] theorem board_setCxlLink (l : Nat) (x : CxlLink) : (s.setCxlLink l x).board = s.board := rfl
@[simp] theorem power_setCxlLink (l : Nat) (x : CxlLink) : (s.setCxlLink l x).power = s.power := rfl

/-! ### setSharelPort -/

@[simp] theorem pending_setSharelPort (p : Nat) (x : SharelPort) : (s.setSharelPort p x).pending = s.pending := rfl
@[simp] theorem free_setSharelPort (p : Nat) (x : SharelPort) : (s.setSharelPort p x).free = s.free := rfl
@[simp] theorem out_setSharelPort (p : Nat) (x : SharelPort) : (s.setSharelPort p x).out = s.out := rfl
@[simp] theorem objs_setSharelPort (p : Nat) (x : SharelPort) : (s.setSharelPort p x).objs = s.objs := rfl
@[simp] theorem mem_setSharelPort (p : Nat) (x : SharelPort) : (s.setSharelPort p x).mem = s.mem := rfl
@[simp] theorem poison_setSharelPort (p : Nat) (x : SharelPort) : (s.setSharelPort p x).poison = s.poison := rfl
@[simp] theorem far_setSharelPort (p : Nat) (x : SharelPort) : (s.setSharelPort p x).far = s.far := rfl
@[simp] theorem farPoison_setSharelPort (p : Nat) (x : SharelPort) : (s.setSharelPort p x).farPoison = s.farPoison := rfl
@[simp] theorem ctxs_setSharelPort (p : Nat) (x : SharelPort) : (s.setSharelPort p x).ctxs = s.ctxs := rfl
@[simp] theorem fences_setSharelPort (p : Nat) (x : SharelPort) : (s.setSharelPort p x).fences = s.fences := rfl
@[simp] theorem splits_setSharelPort (p : Nat) (x : SharelPort) : (s.setSharelPort p x).splits = s.splits := rfl
@[simp] theorem fencePoison_setSharelPort (p : Nat) (x : SharelPort) : (s.setSharelPort p x).fencePoison = s.fencePoison := rfl
@[simp] theorem graphs_setSharelPort (p : Nat) (x : SharelPort) : (s.setSharelPort p x).graphs = s.graphs := rfl
@[simp] theorem trans_setSharelPort (p : Nat) (x : SharelPort) : (s.setSharelPort p x).trans = s.trans := rfl
@[simp] theorem clusters_setSharelPort (p : Nat) (x : SharelPort) : (s.setSharelPort p x).clusters = s.clusters := rfl
@[simp] theorem cores_setSharelPort (p : Nat) (x : SharelPort) : (s.setSharelPort p x).cores = s.cores := rfl
@[simp] theorem engines_setSharelPort (p : Nat) (x : SharelPort) : (s.setSharelPort p x).engines = s.engines := rfl
@[simp] theorem lanes_setSharelPort (p : Nat) (x : SharelPort) : (s.setSharelPort p x).lanes = s.lanes := rfl
@[simp] theorem arbs_setSharelPort (p : Nat) (x : SharelPort) : (s.setSharelPort p x).arbs = s.arbs := rfl
@[simp] theorem attn_setSharelPort (p : Nat) (x : SharelPort) : (s.setSharelPort p x).attn = s.attn := rfl
@[simp] theorem mbox_setSharelPort (p : Nat) (x : SharelPort) : (s.setSharelPort p x).mbox = s.mbox := rfl
@[simp] theorem amiso_setSharelPort (p : Nat) (x : SharelPort) : (s.setSharelPort p x).amiso = s.amiso := rfl
@[simp] theorem wins_setSharelPort (p : Nat) (x : SharelPort) : (s.setSharelPort p x).wins = s.wins := rfl
@[simp] theorem fns_setSharelPort (p : Nat) (x : SharelPort) : (s.setSharelPort p x).fns = s.fns := rfl
@[simp] theorem hostPorts_setSharelPort (p : Nat) (x : SharelPort) : (s.setSharelPort p x).hostPorts = s.hostPorts := rfl
@[simp] theorem cxl_setSharelPort (p : Nat) (x : SharelPort) : (s.setSharelPort p x).cxl = s.cxl := rfl
@[simp] theorem weevils_setSharelPort (p : Nat) (x : SharelPort) : (s.setSharelPort p x).weevils = s.weevils := rfl
@[simp] theorem tiers_setSharelPort (p : Nat) (x : SharelPort) : (s.setSharelPort p x).tiers = s.tiers := rfl
@[simp] theorem sparing_setSharelPort (p : Nat) (x : SharelPort) : (s.setSharelPort p x).sparing = s.sparing := rfl
@[simp] theorem fw_setSharelPort (p : Nat) (x : SharelPort) : (s.setSharelPort p x).fw = s.fw := rfl
@[simp] theorem fuses_setSharelPort (p : Nat) (x : SharelPort) : (s.setSharelPort p x).fuses = s.fuses := rfl
@[simp] theorem board_setSharelPort (p : Nat) (x : SharelPort) : (s.setSharelPort p x).board = s.board := rfl
@[simp] theorem power_setSharelPort (p : Nat) (x : SharelPort) : (s.setSharelPort p x).power = s.power := rfl

/-! ### setFence -/

@[simp] theorem pending_setFence (f v : Nat) : (s.setFence f v).pending = s.pending := rfl
@[simp] theorem free_setFence (f v : Nat) : (s.setFence f v).free = s.free := rfl
@[simp] theorem out_setFence (f v : Nat) : (s.setFence f v).out = s.out := rfl
@[simp] theorem objs_setFence (f v : Nat) : (s.setFence f v).objs = s.objs := rfl
@[simp] theorem mem_setFence (f v : Nat) : (s.setFence f v).mem = s.mem := rfl
@[simp] theorem poison_setFence (f v : Nat) : (s.setFence f v).poison = s.poison := rfl
@[simp] theorem far_setFence (f v : Nat) : (s.setFence f v).far = s.far := rfl
@[simp] theorem farPoison_setFence (f v : Nat) : (s.setFence f v).farPoison = s.farPoison := rfl
@[simp] theorem ctxs_setFence (f v : Nat) : (s.setFence f v).ctxs = s.ctxs := rfl
@[simp] theorem splits_setFence (f v : Nat) : (s.setFence f v).splits = s.splits := rfl
@[simp] theorem fencePoison_setFence (f v : Nat) : (s.setFence f v).fencePoison = s.fencePoison := rfl
@[simp] theorem graphs_setFence (f v : Nat) : (s.setFence f v).graphs = s.graphs := rfl
@[simp] theorem trans_setFence (f v : Nat) : (s.setFence f v).trans = s.trans := rfl
@[simp] theorem clusters_setFence (f v : Nat) : (s.setFence f v).clusters = s.clusters := rfl
@[simp] theorem cores_setFence (f v : Nat) : (s.setFence f v).cores = s.cores := rfl
@[simp] theorem engines_setFence (f v : Nat) : (s.setFence f v).engines = s.engines := rfl
@[simp] theorem lanes_setFence (f v : Nat) : (s.setFence f v).lanes = s.lanes := rfl
@[simp] theorem arbs_setFence (f v : Nat) : (s.setFence f v).arbs = s.arbs := rfl
@[simp] theorem attn_setFence (f v : Nat) : (s.setFence f v).attn = s.attn := rfl
@[simp] theorem mbox_setFence (f v : Nat) : (s.setFence f v).mbox = s.mbox := rfl
@[simp] theorem amiso_setFence (f v : Nat) : (s.setFence f v).amiso = s.amiso := rfl
@[simp] theorem wins_setFence (f v : Nat) : (s.setFence f v).wins = s.wins := rfl
@[simp] theorem fns_setFence (f v : Nat) : (s.setFence f v).fns = s.fns := rfl
@[simp] theorem hostPorts_setFence (f v : Nat) : (s.setFence f v).hostPorts = s.hostPorts := rfl
@[simp] theorem fabric_setFence (f v : Nat) : (s.setFence f v).fabric = s.fabric := rfl
@[simp] theorem path_setFence (f v : Nat) : (s.setFence f v).path = s.path := rfl
@[simp] theorem cxl_setFence (f v : Nat) : (s.setFence f v).cxl = s.cxl := rfl
@[simp] theorem weevils_setFence (f v : Nat) : (s.setFence f v).weevils = s.weevils := rfl
@[simp] theorem tiers_setFence (f v : Nat) : (s.setFence f v).tiers = s.tiers := rfl
@[simp] theorem sparing_setFence (f v : Nat) : (s.setFence f v).sparing = s.sparing := rfl
@[simp] theorem fw_setFence (f v : Nat) : (s.setFence f v).fw = s.fw := rfl
@[simp] theorem fuses_setFence (f v : Nat) : (s.setFence f v).fuses = s.fuses := rfl
@[simp] theorem board_setFence (f v : Nat) : (s.setFence f v).board = s.board := rfl
@[simp] theorem power_setFence (f v : Nat) : (s.setFence f v).power = s.power := rfl

/-! ### draw -/

@[simp] theorem pending_draw : s.draw.2.pending = s.pending := rfl
@[simp] theorem out_draw : s.draw.2.out = s.out := rfl
@[simp] theorem objs_draw : s.draw.2.objs = s.objs := rfl
@[simp] theorem mem_draw : s.draw.2.mem = s.mem := rfl
@[simp] theorem poison_draw : s.draw.2.poison = s.poison := rfl
@[simp] theorem far_draw : s.draw.2.far = s.far := rfl
@[simp] theorem farPoison_draw : s.draw.2.farPoison = s.farPoison := rfl
@[simp] theorem ctxs_draw : s.draw.2.ctxs = s.ctxs := rfl
@[simp] theorem fences_draw : s.draw.2.fences = s.fences := rfl
@[simp] theorem splits_draw : s.draw.2.splits = s.splits := rfl
@[simp] theorem fencePoison_draw : s.draw.2.fencePoison = s.fencePoison := rfl
@[simp] theorem graphs_draw : s.draw.2.graphs = s.graphs := rfl
@[simp] theorem trans_draw : s.draw.2.trans = s.trans := rfl
@[simp] theorem clusters_draw : s.draw.2.clusters = s.clusters := rfl
@[simp] theorem cores_draw : s.draw.2.cores = s.cores := rfl
@[simp] theorem engines_draw : s.draw.2.engines = s.engines := rfl
@[simp] theorem lanes_draw : s.draw.2.lanes = s.lanes := rfl
@[simp] theorem arbs_draw : s.draw.2.arbs = s.arbs := rfl
@[simp] theorem attn_draw : s.draw.2.attn = s.attn := rfl
@[simp] theorem mbox_draw : s.draw.2.mbox = s.mbox := rfl
@[simp] theorem amiso_draw : s.draw.2.amiso = s.amiso := rfl
@[simp] theorem wins_draw : s.draw.2.wins = s.wins := rfl
@[simp] theorem fns_draw : s.draw.2.fns = s.fns := rfl
@[simp] theorem hostPorts_draw : s.draw.2.hostPorts = s.hostPorts := rfl
@[simp] theorem fabric_draw : s.draw.2.fabric = s.fabric := rfl
@[simp] theorem path_draw : s.draw.2.path = s.path := rfl
@[simp] theorem cxl_draw : s.draw.2.cxl = s.cxl := rfl
@[simp] theorem weevils_draw : s.draw.2.weevils = s.weevils := rfl
@[simp] theorem tiers_draw : s.draw.2.tiers = s.tiers := rfl
@[simp] theorem sparing_draw : s.draw.2.sparing = s.sparing := rfl
@[simp] theorem fw_draw : s.draw.2.fw = s.fw := rfl
@[simp] theorem fuses_draw : s.draw.2.fuses = s.fuses := rfl
@[simp] theorem board_draw : s.draw.2.board = s.board := rfl
@[simp] theorem power_draw : s.draw.2.power = s.power := rfl

end State

end Sys2Proof.Machine
end

