-- ==== Sys2Proof/Laws/Fabric.lean ====
section
/-! SUPPORT. What the ingress buffer of a Sharel port and its flow control do (R373). -/

namespace Sys2Proof.Machine

theorem contains_insertNat (n k : Nat) (l : List Nat) : (State.insertNat n l).contains k = (k == n || l.contains k) := by
  induction l with
  | nil => rfl
  | cons m ms ih =>
    unfold State.insertNat
    split
    · rfl
    · split
      · subst_vars
        simp only [List.contains_cons]
        cases k == m <;> simp
      · simp only [List.contains_cons, ih]
        cases k == m <;> simp

theorem contains_remove (n k : Nat) (l : List Nat) : (l.filter (· != n)).contains k = (k != n && l.contains k) := by
  rw [Bool.eq_iff_iff]
  simp [List.mem_filter, and_comm]

namespace State

/-- A priority is over its threshold at a port. -/
def overThreshold (s : State) (port p : Nat) : Bool :=
  flag (s.obj 0x8011 2) p && s.ingressUse port p != 0 && decide (Config.pfcThreshold port p < s.ingressUse port p)

/-- One priority's flow control brought up to date. -/
def updatePrio (port : Nat) (t : State) (p : Nat) : State :=
  let x := t.sharelPort port
  if t.overThreshold port p == x.xoff.contains p then t
  else
    let xoff := if t.overThreshold port p then insertNat p x.xoff else x.xoff.filter (· != p)
    ((t.setSharelPort port { x with xoff := xoff }).send (.pfc port p (t.overThreshold port p))).addObj 0x8054 port 1

/-- The priorities of `l` whose pause is to change. -/
def toChange (s : State) (port : Nat) (l : List Nat) : List Nat :=
  l.filter fun p => (s.sharelPort port).xoff.contains p != s.overThreshold port p

theorem updatePfc_eq (s : State) (port : Nat) : s.updatePfc port = (List.range 8).foldl (updatePrio port) s := rfl

end State

/-- From `s` to `t` the flow control of the priorities `l` of a port has been brought up to date, and nothing else. -/
structure PfcDone (port : Nat) (l : List Nat) (s t : State) : Prop where
  port_eq : t.sharelPort port = { s.sharelPort port with xoff := (t.sharelPort port).xoff }
  xoff : ∀ p, (t.sharelPort port).xoff.contains p =
    if p ∈ l then s.overThreshold port p else (s.sharelPort port).xoff.contains p
  out : t.out = s.out ++ (s.toChange port l).map
    fun p => .pfc port p (s.overThreshold port p)
  count : t.obj 0x8054 port = if (s.toChange port l) = [] then
      s.obj 0x8054 port
    else (s.obj 0x8054 port + (s.toChange port l).length) % 2 ^ 64
  objs : ∀ i j, objKey i j ≠ objKey 0x8054 port → t.obj i j = s.obj i j
  others : ∀ q, q ≠ port → t.sharelPort q = s.sharelPort q
  rest : t = { s with objs := t.objs, out := t.out, fabric := { s.fabric with ports := t.fabric.ports } }

theorem objBits_pfcSent (port : Nat) : State.objBits 0x8054 port = 64 := by
  unfold State.objBits
  cases h : Catalog.find 0x8054 port with
  | none => rfl
  | some d =>
    have hi := List.find?_some h
    simp only [Bool.and_eq_true, beq_iff_eq] at hi
    have := (by decide +kernel : ∀ d ∈ Catalog.all, d.index = 0x8054 → d.ty = 4) d (List.mem_of_find?_eq_some h) hi.1.1
    simp only [Option.map_some, this]

theorem overThreshold_of_done {port : Nat} {l : List Nat} {s t : State} (h : PfcDone port l s t) (p : Nat) :
    t.overThreshold port p = s.overThreshold port p := by
  have e : ∀ q, t.ingressUse port q = s.ingressUse port q := by
    intro q
    unfold State.ingressUse State.pcpOf
    rw [h.port_eq, h.objs _ _ (by unfold objKey; omega)]
  unfold State.overThreshold
  rw [e, h.objs _ _ (by unfold objKey; omega)]

theorem done_refl (port : Nat) (s : State) : PfcDone port [] s s :=
  ⟨rfl, fun _ => rfl, (List.append_nil _).symm, rfl, fun _ _ _ => rfl, fun _ _ => rfl, rfl⟩

/-- One more priority brought up to date. -/
theorem done_step {port p : Nat} {l : List Nat} {s t : State} (hp : p ∉ l) (h : PfcDone port l s t) :
    PfcDone port (l ++ [p]) s (State.updatePrio port t p) := by
  have ho := overThreshold_of_done h p
  have hx : (t.sharelPort port).xoff.contains p = (s.sharelPort port).xoff.contains p := by rw [h.xoff, if_neg hp]
  unfold State.updatePrio
  dsimp only
  rw [ho, hx]
  split
  · rename_i e
    have e := beq_iff_eq.1 e
    have hf : (s.toChange port (l ++ [p])) =
        s.toChange port l := by
      simp [State.toChange, List.filter_append, e]
    refine ⟨h.port_eq, fun q => ?_, by rw [hf]; exact h.out, by rw [hf]; exact h.count, h.objs, h.others, h.rest⟩
    rw [h.xoff]
    by_cases hq : q ∈ l
    · simp [hq]
    · by_cases hqp : q = p
      · subst hqp; simp [hq, e]
      · simp [hq, hqp]
  · rename_i e
    have e : (s.sharelPort port).xoff.contains p ≠ s.overThreshold port p := fun k => e (beq_iff_eq.2 k.symm)
    have hf : (s.toChange port (l ++ [p])) =
        (s.toChange port l) ++ [p] := by
      unfold State.toChange
      rw [List.filter_append]
      congr 1
      rw [List.filter_cons_of_pos (by rw [bne_iff_ne]; exact e)]
      rfl
    have hself : ∀ (x : SharelPort) (o : Out), (((t.setSharelPort port x).send o).addObj 0x8054 port 1).sharelPort port = x :=
      fun x o => State.sharelPort_setSharelPort_self ..
    refine ⟨?_, fun q => ?_, ?_, ?_, fun i j hij => ?_, fun q hq => ?_, ?_⟩
    · rw [hself, h.port_eq]
    · rw [hself]
      dsimp only
      have hc : ∀ b, s.overThreshold port p = b → (if b = true then State.insertNat p (t.sharelPort port).xoff
          else (t.sharelPort port).xoff.filter (· != p)).contains q = if q = p then b else (t.sharelPort port).xoff.contains q := by
        intro b _
        cases b
        · rw [if_neg (by decide), contains_remove]
          by_cases hqp : q = p
          · rw [if_pos hqp, hqp, bne_self_eq_false, Bool.false_and]
          · rw [if_neg hqp, bne_iff_ne.2 hqp, Bool.true_and]
        · rw [if_pos rfl, contains_insertNat]
          by_cases hqp : q = p
          · rw [if_pos hqp, hqp, beq_self_eq_true, Bool.true_or]
          · rw [if_neg hqp, beq_eq_false_iff_ne.2 hqp, Bool.false_or]
      rw [hc _ rfl, h.xoff]
      by_cases hqp : q = p
      · rw [if_pos hqp, if_pos (by simp [hqp]), hqp]
      · simp [hqp]
    · show (t.out ++ [_]) = _
      rw [hf, h.out, List.map_append, List.append_assoc]
      rfl
    · rw [hf]
      show (State.setObj _ 0x8054 port _).obj 0x8054 port = _
      rw [State.obj_setObj_self, objBits_pfcSent, if_neg (List.append_ne_nil_of_right_ne_nil _ (List.cons_ne_nil _ _))]
      show (t.obj 0x8054 port + 1) % 2 ^ 64 = _
      rw [h.count, List.length_append]
      split
      · rename_i hn
        rw [hn]
        rfl
      · rw [Nat.mod_add_mod]
        rfl
    · show (State.setObj _ 0x8054 port _).obj i j = _
      rw [State.obj_setObj_ne _ hij]
      exact h.objs i j hij
    · show (t.setSharelPort port _).sharelPort q = _
      rw [State.sharelPort_setSharelPort_ne _ hq]
      exact h.others q hq
    · rw [h.rest]
      rfl

theorem done_foldl {port : Nat} {s : State} (l m : List Nat) {t : State} (h : PfcDone port m s t) (hn : (m ++ l).Nodup) :
    PfcDone port (m ++ l) s (l.foldl (State.updatePrio port) t) := by
  induction l generalizing m t with
  | nil => rw [List.append_nil]; exact h
  | cons p l ih =>
    rw [List.append_cons]
    refine ih (m ++ [p]) (done_step (fun hp => ?_) h) (by rw [← List.append_cons]; exact hn)
    exact (List.nodup_append.1 hn).2.2 p hp p List.mem_cons_self rfl

/-- What bringing a port's flow control up to date does. -/
theorem updatePfc_done (s : State) (port : Nat) : PfcDone port (List.range 8) s (s.updatePfc port) := by
  rw [State.updatePfc_eq]
  exact done_foldl (List.range 8) [] (done_refl port s) (by decide)

/-- A frame put into the ingress buffer with room for it is held there, and flow control follows. -/
theorem holdFrame_heldAt {s : State} {port : Nat} {f : Frame} (h : s.ingressRoom port f = true) :
    HeldAt port f s (s.holdFrame port { f := f }) := by
  unfold State.holdFrame
  rw [if_pos h]
  have d := updatePfc_done (s.keepFrame port { f := f }) port
  have hk : (s.keepFrame port { f := f }).sharelPort port =
      { s.sharelPort port with ingress := (s.sharelPort port).ingress ++ [{ f := f }] } := State.sharelPort_setSharelPort_self ..
  have hc : ((List.range 8).filter fun p => (s.sharelPort port).xoff.contains p !=
      (((s.keepFrame port { f := f }).updatePfc port).sharelPort port).xoff.contains p) =
      (s.keepFrame port { f := f }).toChange port (List.range 8) := by
    unfold State.toChange
    rw [hk]
    refine List.filter_congr fun p hp => ?_
    rw [d.xoff, if_pos hp]
  have he : ∀ p, ((s.keepFrame port { f := f }).updatePfc port).ingressUse port p = (s.keepFrame port { f := f }).ingressUse port p := by
    intro q
    unfold State.ingressUse State.pcpOf
    rw [d.port_eq, d.objs _ _ (by unfold objKey; omega)]
  refine ⟨?_, fun p hp => ?_, ?_, ?_, fun q hq => ?_, ?_, ?_, ?_⟩
  · rw [d.port_eq, hk]
  · rw [d.xoff, if_pos (List.mem_range.2 hp), he]
    rfl
  · rw [hc, d.out]
    congr 1
    refine List.map_congr_left fun p hp => ?_
    rw [d.xoff, if_pos (List.mem_filter.1 hp).1]
  · rw [hc, d.count]
    rfl
  · rw [d.others q hq]
    exact State.sharelPort_setSharelPort_ne _ hq
  · rw [d.rest]; rfl
  · rw [d.rest]; rfl
  · rw [d.rest]; rfl

end Sys2Proof.Machine
end

