-- ==== Sys2Proof/Laws/Keccak.lean ====
section
/-! SUPPORT. How long SHAKE256 outputs are. -/

namespace Sys2Proof.Machine

namespace Keccak

theorem foldl_rounds_length (l : List Nat) (a : List Nat) (h : a.length = 25) :
    (l.foldl (fun a rc => iota (chi (rhoPi (theta a))) rc) a).length = 25 := by
  induction l generalizing a with
  | nil => exact h
  | cons x l ih =>
    refine ih _ ?_
    have h : ∀ (b : List Nat) (r : Nat), (iota b r).length = b.length := fun b r => by cases b <;> rfl
    rw [h]
    simp [chi]

theorem permute_length (a : List Nat) (h : a.length = 25) : (permute a).length = 25 := foldl_rounds_length _ a h

theorem absorbAll_length (n : Nat) (a : List Nat) (m : List (BitVec 8)) (h : a.length = 25) : (absorbAll n a m).length = 25 := by
  induction n generalizing a m with
  | zero => exact h
  | succ n ih => exact ih _ _ (permute_length _ (by simp))

theorem rateBytes_length (a : List Nat) (h : a.length = 25) : (rateBytes a).length = 136 := by
  have e : a.map (fun _ => 8) = List.replicate 25 8 := by rw [List.map_const', h]
  simp [rateBytes, List.length_flatMap, leBytes, e]

end Keccak

open Keccak in
theorem shake256_length (m : List (BitVec 8)) (n : Nat) (h : n < 136) : (shake256 m n).length = n := by
  unfold shake256 sponge
  rw [Nat.div_eq_of_lt h]
  simp only [List.length_take, squeeze, List.length_append, rateBytes_length _ (absorbAll_length _ _ _ (List.length_replicate ..)), List.length_nil]
  omega

theorem identityHash_length : identityHash.length = 32 := shake256_length _ _ (by decide)

end Sys2Proof.Machine
end

