-- ==== Sys2Proof/Laws/KeepsOps.lean ====
section
/-! SUPPORT. What the operations of Machine/Ops.lean keep. -/

set_option linter.all false

namespace Sys2Proof.Machine

theorem State.setObj_keeps {s0 : State} {x1 : State} {x2} {x3} {x4} (h1 : Keeps s0 x1) :
    Keeps s0 (State.setObj x1 x2 x3 x4) := by
  unfold State.setObj
  repeat' first
    | with_reducible assumption
    | with_reducible refine Keeps.ofSnd (by assumption) ?_
    | simp only [Keeps.record_iff]
    | with_reducible fail_if_success skip

theorem State.addObj_keeps {s0 : State} {x1 : State} {x2} {x3} {x4} (h1 : Keeps s0 x1) :
    Keeps s0 (State.addObj x1 x2 x3 x4) := by
  unfold State.addObj
  repeat' first
    | with_reducible assumption
    | with_reducible apply State.setObj_keeps
    | with_reducible refine Keeps.ofSnd (by assumption) ?_
    | simp only [Keeps.record_iff]
    | with_reducible fail_if_success skip

theorem State.draw_keeps {s0 x1 : State} (h1 : Keeps s0 x1) : Keeps s0 (State.draw x1).2 := Keeps.recordDraw h1

theorem State.send_keeps {s0 x1 : State} {x2 : Out} (h1 : Keeps s0 x1) : Keeps s0 (State.send x1 x2) :=
  ⟨h1.pending, h1.free, h1.out.trans (List.prefix_append _ _), h1.mem, h1.fuses⟩

theorem State.setCtx_keeps {s0 : State} {x1 : State} {x2} {x3} (h1 : Keeps s0 x1) :
    Keeps s0 (State.setCtx x1 x2 x3) := by
  unfold State.setCtx
  repeat' first
    | with_reducible assumption
    | with_reducible refine Keeps.ofSnd (by assumption) ?_
    | simp only [Keeps.record_iff]
    | with_reducible fail_if_success skip

theorem State.setFn_keeps {s0 : State} {x1 : State} {x2} {x3} (h1 : Keeps s0 x1) :
    Keeps s0 (State.setFn x1 x2 x3) := by
  unfold State.setFn
  repeat' first
    | with_reducible assumption
    | with_reducible refine Keeps.ofSnd (by assumption) ?_
    | simp only [Keeps.record_iff]
    | with_reducible fail_if_success skip

theorem State.setHostPort_keeps {s0 : State} {x1 : State} {x2} {x3} (h1 : Keeps s0 x1) :
    Keeps s0 (State.setHostPort x1 x2 x3) := by
  unfold State.setHostPort
  repeat' first
    | with_reducible assumption
    | with_reducible refine Keeps.ofSnd (by assumption) ?_
    | simp only [Keeps.record_iff]
    | with_reducible fail_if_success skip

theorem State.setCluster_keeps {s0 : State} {x1 : State} {x2} {x3} (h1 : Keeps s0 x1) :
    Keeps s0 (State.setCluster x1 x2 x3) := by
  unfold State.setCluster
  repeat' first
    | with_reducible assumption
    | with_reducible refine Keeps.ofSnd (by assumption) ?_
    | simp only [Keeps.record_iff]
    | with_reducible fail_if_success skip

theorem State.setCore_keeps {s0 : State} {x1 : State} {x2} {x3} (h1 : Keeps s0 x1) :
    Keeps s0 (State.setCore x1 x2 x3) := by
  unfold State.setCore
  repeat' first
    | with_reducible assumption
    | with_reducible refine Keeps.ofSnd (by assumption) ?_
    | simp only [Keeps.record_iff]
    | with_reducible fail_if_success skip

theorem State.setEngine_keeps {s0 : State} {x1 : State} {x2} {x3} {x4} (h1 : Keeps s0 x1) :
    Keeps s0 (State.setEngine x1 x2 x3 x4) := by
  unfold State.setEngine
  repeat' first
    | with_reducible assumption
    | with_reducible refine Keeps.ofSnd (by assumption) ?_
    | simp only [Keeps.record_iff]
    | with_reducible fail_if_success skip

theorem State.setCxlLink_keeps {s0 : State} {x1 : State} {x2} {x3} (h1 : Keeps s0 x1) :
    Keeps s0 (State.setCxlLink x1 x2 x3) := by
  unfold State.setCxlLink
  repeat' first
    | with_reducible assumption
    | with_reducible refine Keeps.ofSnd (by assumption) ?_
    | simp only [Keeps.record_iff]
    | with_reducible fail_if_success skip

theorem State.setSharelPort_keeps {s0 : State} {x1 : State} {x2} {x3} (h1 : Keeps s0 x1) :
    Keeps s0 (State.setSharelPort x1 x2 x3) := by
  unfold State.setSharelPort
  repeat' first
    | with_reducible assumption
    | with_reducible refine Keeps.ofSnd (by assumption) ?_
    | simp only [Keeps.record_iff]
    | with_reducible fail_if_success skip

theorem State.loseEvent_keeps {s0 : State} {x1 : State} {x2} (h1 : Keeps s0 x1) :
    Keeps s0 (State.loseEvent x1 x2) := by
  unfold State.loseEvent
  repeat' first
    | with_reducible assumption
    | with_reducible apply State.addObj_keeps
    | with_reducible refine Keeps.ofSnd (by assumption) ?_
    | with_reducible apply Keeps.foldl
    | with_reducible apply Keeps.foldlFst
    | with_reducible apply Keeps.foldlSnd
    | intro _
    | simp only [Keeps.record_iff]
    | split
    | with_reducible fail_if_success skip

theorem State.raise_keeps {s0 : State} {x1 : State} {x2} {x3} {x4} {x5} {x6} {x7} (h1 : Keeps s0 x1) :
    Keeps s0 (State.raise x1 x2 x3 x4 x5 x6 x7) := by
  unfold State.raise
  repeat' first
    | with_reducible assumption
    | with_reducible apply State.draw_keeps
    | with_reducible apply State.loseEvent_keeps
    | with_reducible refine Keeps.ofSnd (by assumption) ?_
    | with_reducible refine Keeps.ofFst (by assumption) ?_
    | simp only [Keeps.record_iff]
    | split
    | with_reducible fail_if_success skip

theorem State.raiseAs_keeps {s0 : State} {x1 : State} {x2} {x3} {x4} {x5} {x6} {x7} {x8} (h1 : Keeps s0 x1) :
    Keeps s0 (State.raiseAs x1 x2 x3 x4 x5 x6 x7 x8) := by
  unfold State.raiseAs
  repeat' first
    | with_reducible assumption
    | with_reducible apply State.raise_keeps
    | with_reducible apply State.setObj_keeps
    | with_reducible refine Keeps.ofSnd (by assumption) ?_
    | simp only [Keeps.record_iff]
    | with_reducible fail_if_success skip

theorem State.countRaise_keeps {s0 : State} {x1 : State} {x2} {x3} {x4} {x5} {x6} {x7} (h1 : Keeps s0 x1) :
    Keeps s0 (State.countRaise x1 x2 x3 x4 x5 x6 x7) := by
  unfold State.countRaise
  repeat' first
    | with_reducible assumption
    | with_reducible apply State.raise_keeps
    | with_reducible apply State.addObj_keeps
    | with_reducible refine Keeps.ofSnd (by assumption) ?_
    | simp only [Keeps.record_iff]
    | with_reducible fail_if_success skip

theorem State.setFence_keeps {s0 : State} {x1 : State} {x2} {x3} (h1 : Keeps s0 x1) :
    Keeps s0 (State.setFence x1 x2 x3) := by
  unfold State.setFence
  repeat' first
    | with_reducible assumption
    | with_reducible refine Keeps.ofSnd (by assumption) ?_
    | simp only [Keeps.record_iff]
    | with_reducible fail_if_success skip

theorem State.signal_keeps {s0 : State} {x1 : State} {x2} (h1 : Keeps s0 x1) :
    Keeps s0 (State.signal x1 x2) := by
  unfold State.signal
  repeat' first
    | with_reducible assumption
    | with_reducible apply State.setFence_keeps
    | with_reducible refine Keeps.ofSnd (by assumption) ?_
    | with_reducible refine Keeps.ofFst (by assumption) ?_
    | intro _
    | simp only [Keeps.record_iff]
    | split
    | with_reducible fail_if_success skip

theorem State.writeByte_keeps {s0 x1 : State} {x2 : Nat} {x3 : BitVec 8} (h1 : Keeps s0 x1) :
    Keeps s0 (State.writeByte x1 x2 x3) := by
  unfold State.writeByte
  split
  · split
    · exact Keeps.record h1
    · exact h1
  · exact h1
  · split
    · exact h1
    · exact Keeps.recordMem h1 AMap.put_canonical

theorem State.putBytes_keeps {s0 : State} {x1 : State} {x2} {x3} (h1 : Keeps s0 x1) :
    Keeps s0 (State.putBytes x1 x2 x3) := by
  revert h1
  fun_induction State.putBytes x1 x2 x3
  all_goals (try dsimp +zetaDelta only at *)
  all_goals (try intro h1)
  all_goals
    repeat' first
    | with_reducible assumption
    | with_reducible apply State.writeByte_keeps
    | with_reducible refine Keeps.ofSnd (by assumption) ?_
    | with_reducible refine (by assumption : ∀ {x : State}, Keeps _ x → Ends _ x _) ?_
    | with_reducible refine (by assumption : ∀ a, ∀ {x : State}, Keeps _ x → Ends _ x _) _ ?_
    | with_reducible refine (by assumption : ∀ a b, ∀ {x : State}, Keeps _ x → Ends _ x _) _ _ ?_
    | with_reducible refine (by assumption : _ → _) ?_
    | with_reducible refine (by assumption : ∀ _, _ → _) _ ?_
    | with_reducible refine (by assumption : ∀ _ _, _ → _) _ _ ?_
    | intro _
    | simp only [Keeps.record_iff]
    | with_reducible fail_if_success skip
    | dsimp +zetaDelta only

theorem State.markPoison_keeps {s0 : State} {x1 : State} {x2} (h1 : Keeps s0 x1) :
    Keeps s0 (State.markPoison x1 x2) := by
  unfold State.markPoison
  repeat' first
    | with_reducible assumption
    | with_reducible refine Keeps.ofSnd (by assumption) ?_
    | with_reducible refine Keeps.ofFst (by assumption) ?_
    | intro _
    | simp only [Keeps.record_iff]
    | split
    | with_reducible fail_if_success skip

theorem State.clearPoison_keeps {s0 : State} {x1 : State} {x2} (h1 : Keeps s0 x1) :
    Keeps s0 (State.clearPoison x1 x2) := by
  unfold State.clearPoison
  repeat' first
    | with_reducible assumption
    | with_reducible apply State.addObj_keeps
    | with_reducible refine Keeps.ofSnd (by assumption) ?_
    | with_reducible refine Keeps.ofFst (by assumption) ?_
    | intro _
    | simp only [Keeps.record_iff]
    | split
    | with_reducible fail_if_success skip

theorem State.makePoison_keeps {s0 : State} {x1 : State} {x2} (h1 : Keeps s0 x1) :
    Keeps s0 (State.makePoison x1 x2) := by
  unfold State.makePoison
  repeat' first
    | with_reducible assumption
    | with_reducible apply State.countRaise_keeps
    | with_reducible apply State.markPoison_keeps
    | with_reducible refine Keeps.ofSnd (by assumption) ?_
    | simp only [Keeps.record_iff]
    | split
    | with_reducible fail_if_success skip

theorem State.transportError_keeps {s0 : State} {x1 : State} {x2} (h1 : Keeps s0 x1) :
    Keeps s0 (State.transportError x1 x2) := by
  unfold State.transportError
  repeat' first
    | with_reducible assumption
    | with_reducible apply State.countRaise_keeps
    | with_reducible refine Keeps.ofSnd (by assumption) ?_
    | simp only [Keeps.record_iff]
    | split
    | with_reducible fail_if_success skip

theorem State.deliver64_keeps {s0 : State} {x1 : State} {x2} {x3} (h1 : Keeps s0 x1) :
    Keeps s0 (State.deliver64 x1 x2 x3).1 := by
  unfold State.deliver64
  repeat' first
    | with_reducible assumption
    | with_reducible apply State.transportError_keeps
    | with_reducible refine Keeps.ofSnd (by assumption) ?_
    | with_reducible refine Keeps.ofFst (by assumption) ?_
    | with_reducible apply Keeps.foldl
    | with_reducible apply Keeps.foldlFst
    | with_reducible apply Keeps.foldlSnd
    | intro _
    | simp only [Keeps.record_iff]
    | split
    | with_reducible fail_if_success skip

theorem State.farWritten_keeps {s0 : State} {x1 : State} {x2} {x3} {x4} (h1 : Keeps s0 x1) :
    Keeps s0 (State.farWritten x1 x2 x3 x4) := by
  unfold State.farWritten
  repeat' first
    | with_reducible assumption
    | with_reducible apply State.send_keeps
    | with_reducible apply State.addObj_keeps
    | with_reducible apply State.countRaise_keeps
    | with_reducible refine Keeps.ofSnd (by assumption) ?_
    | with_reducible refine Keeps.ofFst (by assumption) ?_
    | intro _
    | simp only [Keeps.record_iff]
    | split
    | with_reducible fail_if_success skip

theorem State.write_keeps {s0 : State} {x1 : State} {x2} {x3} (h1 : Keeps s0 x1) :
    Keeps s0 (State.write x1 x2 x3) := by
  unfold State.write
  repeat' first
    | with_reducible assumption
    | with_reducible apply State.putBytes_keeps
    | with_reducible apply State.clearPoison_keeps
    | with_reducible apply State.farWritten_keeps
    | with_reducible refine Keeps.ofSnd (by assumption) ?_
    | with_reducible refine Keeps.ofFst (by assumption) ?_
    | with_reducible apply Keeps.foldl
    | with_reducible apply Keeps.foldlFst
    | with_reducible apply Keeps.foldlSnd
    | intro _
    | simp only [Keeps.record_iff]
    | split
    | with_reducible fail_if_success skip

theorem State.writeMixed_keeps {s0 : State} {x1 : State} {x2} {x3} {x4} (h1 : Keeps s0 x1) :
    Keeps s0 (State.writeMixed x1 x2 x3 x4) := by
  unfold State.writeMixed
  repeat' first
    | with_reducible assumption
    | with_reducible apply State.farWritten_keeps
    | with_reducible apply State.markPoison_keeps
    | with_reducible apply State.putBytes_keeps
    | with_reducible apply State.write_keeps
    | with_reducible refine Keeps.ofSnd (by assumption) ?_
    | with_reducible refine Keeps.ofFst (by assumption) ?_
    | with_reducible apply Keeps.foldl
    | with_reducible apply Keeps.foldlFst
    | with_reducible apply Keeps.foldlSnd
    | intro _
    | simp only [Keeps.record_iff]
    | split
    | with_reducible fail_if_success skip

theorem State.writeNat_keeps {s0 : State} {x1 : State} {x2} {x3} {x4} (h1 : Keeps s0 x1) :
    Keeps s0 (State.writeNat x1 x2 x3 x4) := by
  unfold State.writeNat
  repeat' first
    | with_reducible assumption
    | with_reducible apply State.write_keeps
    | with_reducible refine Keeps.ofSnd (by assumption) ?_
    | simp only [Keeps.record_iff]
    | with_reducible fail_if_success skip

theorem State.readEffects_keeps {s0 : State} {x1 : State} {x2} {x3} (h1 : Keeps s0 x1) :
    Keeps s0 (State.readEffects x1 x2 x3) := by
  unfold State.readEffects
  repeat' first
    | with_reducible assumption
    | with_reducible apply State.addObj_keeps
    | with_reducible apply State.countRaise_keeps
    | with_reducible refine Keeps.ofSnd (by assumption) ?_
    | with_reducible refine Keeps.ofFst (by assumption) ?_
    | with_reducible apply Keeps.foldl
    | with_reducible apply Keeps.foldlFst
    | with_reducible apply Keeps.foldlSnd
    | intro _
    | simp only [Keeps.record_iff]
    | split
    | with_reducible fail_if_success skip

theorem State.consumePoison_keeps {s0 : State} {x1 : State} (h1 : Keeps s0 x1) :
    Keeps s0 (State.consumePoison x1) := by
  unfold State.consumePoison
  repeat' first
    | with_reducible assumption
    | with_reducible apply State.addObj_keeps
    | with_reducible refine Keeps.ofSnd (by assumption) ?_
    | simp only [Keeps.record_iff]
    | with_reducible fail_if_success skip

theorem State.dropRequests_keeps {s0 : State} {x1 : State} {x2} (h1 : Keeps s0 x1) :
    Keeps s0 (State.dropRequests x1 x2) := by
  unfold State.dropRequests
  repeat' first
    | with_reducible assumption
    | with_reducible refine Keeps.ofSnd (by assumption) ?_
    | with_reducible refine Keeps.ofFst (by assumption) ?_
    | intro _
    | simp only [Keeps.record_iff]
    | split
    | with_reducible fail_if_success skip

theorem State.holdHost_keeps {s0 : State} {x1 : State} {x2} {x3} (h1 : Keeps s0 x1) :
    Keeps s0 (State.holdHost x1 x2 x3) := by
  unfold State.holdHost
  repeat' first
    | with_reducible assumption
    | with_reducible refine Keeps.ofSnd (by assumption) ?_
    | simp only [Keeps.record_iff]
    | with_reducible fail_if_success skip

theorem State.inTurn_keeps {s0 : State} {x1 : State} {x2} {x3} {x4 : State} (h1 : Keeps s0 x1) (h4 : Keeps s0 x4) :
    Keeps s0 (State.inTurn x1 x2 x3 x4) := by
  unfold State.inTurn
  repeat' first
    | with_reducible assumption
    | with_reducible apply State.holdHost_keeps
    | with_reducible refine Keeps.ofSnd (by assumption) ?_
    | with_reducible refine Keeps.ofFst (by assumption) ?_
    | intro _
    | simp only [Keeps.record_iff]
    | split
    | with_reducible fail_if_success skip

theorem State.writeMirrored_keeps {s0 : State} {x1 : State} {x2} {x3} (h1 : Keeps s0 x1) :
    Keeps s0 (State.writeMirrored x1 x2 x3) := by
  unfold State.writeMirrored
  repeat' first
    | with_reducible assumption
    | with_reducible apply State.write_keeps
    | with_reducible refine Keeps.ofSnd (by assumption) ?_
    | with_reducible apply Keeps.foldl
    | with_reducible apply Keeps.foldlFst
    | with_reducible apply Keeps.foldlSnd
    | intro _
    | simp only [Keeps.record_iff]
    | with_reducible fail_if_success skip

theorem State.writeCarried_keeps {s0 : State} {x1 : State} {x2} {x3} {x4} (h1 : Keeps s0 x1) :
    Keeps s0 (State.writeCarried x1 x2 x3 x4) := by
  unfold State.writeCarried
  repeat' first
    | with_reducible assumption
    | with_reducible apply State.writeMixed_keeps
    | with_reducible apply State.writeMirrored_keeps
    | with_reducible refine Keeps.ofSnd (by assumption) ?_
    | with_reducible apply Keeps.foldl
    | with_reducible apply Keeps.foldlFst
    | with_reducible apply Keeps.foldlSnd
    | intro _
    | simp only [Keeps.record_iff]
    | split
    | with_reducible fail_if_success skip

theorem State.zeroRange_keeps {s0 x1 : State} {x2 x3 : Nat} (h1 : Keeps s0 x1) : Keeps s0 (State.zeroRange x1 x2 x3) :=
  Keeps.recordMem h1 AMap.filter_canonical

theorem State.copyRange_keeps {s0 x1 : State} {x2 x3 x4 : Nat} (h1 : Keeps s0 x1) :
    Keeps s0 (State.copyRange x1 x2 x3 x4) := by
  unfold State.copyRange
  refine Keeps.recordMem (t := x1.zeroRange x3 x4) (State.zeroRange_keeps h1) fun h => ?_
  generalize List.filter _ x1.mem = l
  dsimp only
  revert h
  generalize (x1.zeroRange x3 x4).mem = m
  induction l generalizing m with
  | nil => exact id
  | cons c l ih => exact fun h => ih _ (AMap.put_canonical h)

theorem State.hostWrite_keeps {s0 : State} {x1 : State} {x2} {x3} {x4} {x5} {x6} {x7} (h1 : Keeps s0 x1) :
    Keeps s0 (State.hostWrite x1 x2 x3 x4 x5 x6 x7) := by
  unfold State.hostWrite
  repeat' first
    | with_reducible assumption
    | with_reducible apply State.send_keeps
    | with_reducible refine Keeps.ofSnd (by assumption) ?_
    | simp only [Keeps.record_iff]
    | with_reducible fail_if_success skip

theorem State.hostWritesN_keeps {s0 : State} {x1 : State} {x2} {x3} {x4} {x5} {x6} {x7} {x8} (h1 : Keeps s0 x1) :
    Keeps s0 (State.hostWritesN x1 x2 x3 x4 x5 x6 x7 x8) := by
  revert h1
  fun_induction State.hostWritesN x1 x2 x3 x4 x5 x6 x7 x8
  all_goals (try dsimp +zetaDelta only at *)
  all_goals (try intro h1)
  all_goals
    repeat' first
    | with_reducible assumption
    | with_reducible apply State.hostWrite_keeps
    | with_reducible refine Keeps.ofSnd (by assumption) ?_
    | with_reducible refine (by assumption : ∀ {x : State}, Keeps _ x → Ends _ x _) ?_
    | with_reducible refine (by assumption : ∀ a, ∀ {x : State}, Keeps _ x → Ends _ x _) _ ?_
    | with_reducible refine (by assumption : ∀ a b, ∀ {x : State}, Keeps _ x → Ends _ x _) _ _ ?_
    | with_reducible refine (by assumption : _ → _) ?_
    | with_reducible refine (by assumption : ∀ _, _ → _) _ ?_
    | with_reducible refine (by assumption : ∀ _ _, _ → _) _ _ ?_
    | intro _
    | simp only [Keeps.record_iff]
    | split
    | with_reducible fail_if_success skip
    | dsimp +zetaDelta only

theorem State.hostWrites_keeps {s0 : State} {x1 : State} {x2} {x3} {x4} {x5} {x6} {x7} (h1 : Keeps s0 x1) :
    Keeps s0 (State.hostWrites x1 x2 x3 x4 x5 x6 x7) := by
  unfold State.hostWrites
  repeat' first
    | with_reducible assumption
    | with_reducible apply State.hostWritesN_keeps
    | with_reducible refine Keeps.ofSnd (by assumption) ?_
    | simp only [Keeps.record_iff]
    | with_reducible fail_if_success skip

theorem State.askHost_keeps {s0 : State} {x1 : State} {x2} {x3} {x4} {x5} {x6} (h1 : Keeps s0 x1) :
    Keeps s0 (State.askHost x1 x2 x3 x4 x5 x6) := by
  revert h1
  fun_induction State.askHost x1 x2 x3 x4 x5 x6
  all_goals (try dsimp +zetaDelta only at *)
  all_goals (try intro h1)
  all_goals
    repeat' first
    | with_reducible assumption
    | with_reducible apply State.send_keeps
    | with_reducible refine Keeps.ofSnd (by assumption) ?_
    | with_reducible refine (by assumption : ∀ {x : State}, Keeps _ x → Ends _ x _) ?_
    | with_reducible refine (by assumption : ∀ a, ∀ {x : State}, Keeps _ x → Ends _ x _) _ ?_
    | with_reducible refine (by assumption : ∀ a b, ∀ {x : State}, Keeps _ x → Ends _ x _) _ _ ?_
    | with_reducible refine (by assumption : _ → _) ?_
    | with_reducible refine (by assumption : ∀ _, _ → _) _ ?_
    | with_reducible refine (by assumption : ∀ _ _, _ → _) _ _ ?_
    | intro _
    | simp only [Keeps.record_iff]
    | split
    | with_reducible fail_if_success skip
    | dsimp +zetaDelta only

theorem State.hostRead_keeps {s0 x1 : State} {x2 x3 x4 x5 : Nat} (h1 : Keeps s0 x1) :
    Keeps s0 (State.hostRead x1 x2 x3 x4 x5).2 := Keeps.recordDraw (State.askHost_keeps h1)

theorem State.sendMsix_keeps {s0 : State} {x1 : State} {x2} {x3} (h1 : Keeps s0 x1) :
    Keeps s0 (State.sendMsix x1 x2 x3) := by
  unfold State.sendMsix
  repeat' first
    | with_reducible assumption
    | with_reducible apply State.setFn_keeps
    | with_reducible apply State.send_keeps
    | with_reducible refine Keeps.ofSnd (by assumption) ?_
    | simp only [Keeps.record_iff]
    | split
    | with_reducible fail_if_success skip

end Sys2Proof.Machine
end

