-- ==== Sys2Proof/Laws/KeepsSend.lean ====
section
/-! SUPPORT. What the operations of Machine/Send.lean keep. -/

set_option linter.all false

namespace Sys2Proof.Machine

theorem State.setSendStream_keeps {s0 : State} {x1 : State} {x2} {x3} (h1 : Keeps s0 x1) :
    Keeps s0 (State.setSendStream x1 x2 x3) := by
  unfold State.setSendStream
  repeat' first
    | with_reducible assumption
    | with_reducible refine Keeps.ofSnd (by assumption) ?_
    | simp only [Keeps.record_iff]
    | with_reducible fail_if_success skip

theorem State.emitFrame_keeps {s0 : State} {x1 : State} {x2} {x3} (h1 : Keeps s0 x1) :
    Keeps s0 (State.emitFrame x1 x2 x3) := by
  unfold State.emitFrame
  repeat' first
    | with_reducible assumption
    | with_reducible apply State.addObj_keeps
    | with_reducible apply State.send_keeps
    | with_reducible refine Keeps.ofSnd (by assumption) ?_
    | simp only [Keeps.record_iff]
    | with_reducible fail_if_success skip

theorem State.pumpN_keeps {s0 : State} {x1 : State} {x2} {x3} {x4} (h1 : Keeps s0 x1) :
    Keeps s0 (State.pumpN x1 x2 x3 x4) := by
  revert h1
  fun_induction State.pumpN x1 x2 x3 x4
  all_goals (try dsimp +zetaDelta only at *)
  all_goals (try intro h1)
  all_goals
    repeat' first
    | with_reducible assumption
    | with_reducible apply State.setSendStream_keeps
    | with_reducible apply State.emitFrame_keeps
    | with_reducible refine Keeps.ofSnd (by assumption) ?_
    | with_reducible refine Keeps.ofFst (by assumption) ?_
    | with_reducible refine (by assumption : ∀ {x : State}, Keeps _ x → Ends _ x _) ?_
    | with_reducible refine (by assumption : ∀ a, ∀ {x : State}, Keeps _ x → Ends _ x _) _ ?_
    | with_reducible refine (by assumption : ∀ a b, ∀ {x : State}, Keeps _ x → Ends _ x _) _ _ ?_
    | with_reducible refine (by assumption : _ → _) ?_
    | with_reducible refine (by assumption : ∀ _, _ → _) _ ?_
    | with_reducible refine (by assumption : ∀ _ _, _ → _) _ _ ?_
    | intro _
    | simp only [Keeps.record_iff]
    | split
    | with_reducible fail_if_success skip
    | dsimp +zetaDelta only

theorem State.pump_keeps {s0 : State} {x1 : State} {x2} {x3} (h1 : Keeps s0 x1) :
    Keeps s0 (State.pump x1 x2 x3) := by
  unfold State.pump
  repeat' first
    | with_reducible assumption
    | with_reducible apply State.pumpN_keeps
    | with_reducible refine Keeps.ofSnd (by assumption) ?_
    | simp only [Keeps.record_iff]
    | with_reducible fail_if_success skip

theorem State.pumpAll_keeps {s0 : State} {x1 : State} (h1 : Keeps s0 x1) :
    Keeps s0 (State.pumpAll x1) := by
  unfold State.pumpAll
  repeat' first
    | with_reducible assumption
    | with_reducible apply State.pump_keeps
    | with_reducible refine Keeps.ofSnd (by assumption) ?_
    | with_reducible apply Keeps.foldl
    | with_reducible apply Keeps.foldlFst
    | with_reducible apply Keeps.foldlSnd
    | intro _
    | simp only [Keeps.record_iff]
    | with_reducible fail_if_success skip

theorem State.closeSend_keeps {s0 : State} {x1 : State} {x2} (h1 : Keeps s0 x1) :
    Keeps s0 (State.closeSend x1 x2) := by
  unfold State.closeSend
  repeat' first
    | with_reducible assumption
    | with_reducible apply State.pumpAll_keeps
    | with_reducible refine Keeps.ofSnd (by assumption) ?_
    | simp only [Keeps.record_iff]
    | split
    | with_reducible fail_if_success skip

theorem State.queueFrame_keeps {s0 : State} {x1 : State} {x2} {x3} {x4} {x5} (h1 : Keeps s0 x1) :
    Keeps s0 (State.queueFrame x1 x2 x3 x4 x5) := by
  unfold State.queueFrame
  repeat' first
    | with_reducible assumption
    | with_reducible apply State.draw_keeps
    | with_reducible apply State.setSendStream_keeps
    | with_reducible apply State.pump_keeps
    | with_reducible refine Keeps.ofSnd (by assumption) ?_
    | with_reducible refine Keeps.ofFst (by assumption) ?_
    | simp only [Keeps.record_iff]
    | split
    | with_reducible fail_if_success skip

theorem State.queueWriteN_keeps {s0 : State} {x1 : State} {x2} {x3} {x4} {x5} {x6} {x7} {x8} (h1 : Keeps s0 x1) :
    Keeps s0 (State.queueWriteN x1 x2 x3 x4 x5 x6 x7 x8) := by
  revert h1
  fun_induction State.queueWriteN x1 x2 x3 x4 x5 x6 x7 x8
  all_goals (try dsimp +zetaDelta only at *)
  all_goals (try intro h1)
  all_goals
    repeat' first
    | with_reducible assumption
    | with_reducible apply State.queueFrame_keeps
    | with_reducible refine Keeps.ofSnd (by assumption) ?_
    | with_reducible refine Keeps.ofFst (by assumption) ?_
    | with_reducible apply Keeps.foldl
    | with_reducible apply Keeps.foldlFst
    | with_reducible apply Keeps.foldlSnd
    | with_reducible refine (by assumption : ∀ {x : State}, Keeps _ x → Ends _ x _) ?_
    | with_reducible refine (by assumption : ∀ a, ∀ {x : State}, Keeps _ x → Ends _ x _) _ ?_
    | with_reducible refine (by assumption : ∀ a b, ∀ {x : State}, Keeps _ x → Ends _ x _) _ _ ?_
    | with_reducible refine (by assumption : _ → _) ?_
    | with_reducible refine (by assumption : ∀ _, _ → _) _ ?_
    | with_reducible refine (by assumption : ∀ _ _, _ → _) _ _ ?_
    | intro _
    | simp only [Keeps.record_iff]
    | split
    | with_reducible fail_if_success skip
    | dsimp +zetaDelta only

theorem State.queueWrite_keeps {s0 : State} {x1 : State} {x2} {x3} {x4} {x5} {x6} {x7} (h1 : Keeps s0 x1) :
    Keeps s0 (State.queueWrite x1 x2 x3 x4 x5 x6 x7) := by
  unfold State.queueWrite
  repeat' first
    | with_reducible assumption
    | with_reducible apply State.queueWriteN_keeps
    | with_reducible refine Keeps.ofSnd (by assumption) ?_
    | simp only [Keeps.record_iff]
    | with_reducible fail_if_success skip

theorem State.requestRead_keeps {s0 : State} {x1 : State} {x2} {x3} {x4} {x5} {x6} {x7} {x8} (h1 : Keeps s0 x1) :
    Keeps s0 (State.requestRead x1 x2 x3 x4 x5 x6 x7 x8) := by
  unfold State.requestRead
  repeat' first
    | with_reducible assumption
    | with_reducible apply State.queueFrame_keeps
    | with_reducible refine Keeps.ofSnd (by assumption) ?_
    | with_reducible refine Keeps.ofFst (by assumption) ?_
    | simp only [Keeps.record_iff]
    | with_reducible fail_if_success skip

theorem State.dropUnsent_keeps {s0 : State} {x1 : State} {x2} (h1 : Keeps s0 x1) :
    Keeps s0 (State.dropUnsent x1 x2) := by
  unfold State.dropUnsent
  repeat' first
    | with_reducible assumption
    | with_reducible refine Keeps.ofSnd (by assumption) ?_
    | with_reducible refine Keeps.ofFst (by assumption) ?_
    | intro _
    | simp only [Keeps.record_iff]
    | split
    | with_reducible fail_if_success skip

end Sys2Proof.Machine
end

