-- ==== Sys2Proof/Laws/KeepsTranslate.lean ====
section
/-! SUPPORT. What the operations of Machine/Translate.lean keep. -/

set_option linter.all false

namespace Sys2Proof.Machine

theorem State.setTag_keeps {s0 : State} {x1 : State} {x2} {x3} (h1 : Keeps s0 x1) :
    Keeps s0 (State.setTag x1 x2 x3) := by
  unfold State.setTag
  repeat' first
    | with_reducible assumption
    | with_reducible refine Keeps.ofSnd (by assumption) ?_
    | simp only [Keeps.record_iff]
    | with_reducible fail_if_success skip

theorem State.dropEntries_keeps {s0 : State} {x1 : State} {x2} (h1 : Keeps s0 x1) :
    Keeps s0 (State.dropEntries x1 x2) := by
  unfold State.dropEntries
  repeat' first
    | with_reducible assumption
    | with_reducible refine Keeps.ofSnd (by assumption) ?_
    | intro _
    | simp only [Keeps.record_iff]
    | with_reducible fail_if_success skip

theorem State.beginEviction_keeps {s0 : State} {x1 : State} {x2} {x3} {x4} (h1 : Keeps s0 x1) :
    Keeps s0 (State.beginEviction x1 x2 x3 x4) := by
  unfold State.beginEviction
  repeat' first
    | with_reducible assumption
    | with_reducible apply State.dropEntries_keeps
    | with_reducible apply State.setTag_keeps
    | with_reducible apply State.addObj_keeps
    | with_reducible refine Keeps.ofSnd (by assumption) ?_
    | with_reducible refine Keeps.ofFst (by assumption) ?_
    | intro _
    | simp only [Keeps.record_iff]
    | with_reducible fail_if_success skip

theorem State.needTag_keeps {s0 : State} {x1 : State} {x2} {x3} (h1 : Keeps s0 x1) :
    Keeps s0 (State.needTag x1 x2 x3).1 := by
  unfold State.needTag
  repeat' first
    | with_reducible assumption
    | with_reducible apply State.setTag_keeps
    | with_reducible apply State.beginEviction_keeps
    | with_reducible refine Keeps.ofSnd (by assumption) ?_
    | with_reducible refine Keeps.ofFst (by assumption) ?_
    | intro _
    | simp only [Keeps.record_iff]
    | split
    | with_reducible fail_if_success skip

theorem State.acquireTag_keeps {s0 : State} {x1 : State} {x2} (h1 : Keeps s0 x1) :
    Keeps s0 (State.acquireTag x1 x2).1 := by
  unfold State.acquireTag
  repeat' first
    | with_reducible assumption
    | with_reducible apply State.needTag_keeps
    | with_reducible apply State.addObj_keeps
    | with_reducible refine Keeps.ofSnd (by assumption) ?_
    | with_reducible refine Keeps.ofFst (by assumption) ?_
    | intro _
    | simp only [Keeps.record_iff]
    | split
    | with_reducible fail_if_success skip

theorem State.bindPins_keeps {s0 : State} {x1 : State} (h1 : Keeps s0 x1) :
    Keeps s0 (State.bindPins x1) := by
  unfold State.bindPins
  repeat' first
    | with_reducible assumption
    | with_reducible apply State.needTag_keeps
    | with_reducible refine Keeps.ofSnd (by assumption) ?_
    | with_reducible apply Keeps.foldl
    | with_reducible apply Keeps.foldlFst
    | with_reducible apply Keeps.foldlSnd
    | intro _
    | simp only [Keeps.record_iff]
    | split
    | with_reducible fail_if_success skip

theorem State.leftBusy_keeps {s0 : State} {x1 : State} {x2} (h1 : Keeps s0 x1) :
    Keeps s0 (State.leftBusy x1 x2) := by
  unfold State.leftBusy
  repeat' first
    | with_reducible assumption
    | with_reducible apply State.setTag_keeps
    | with_reducible refine Keeps.ofSnd (by assumption) ?_
    | with_reducible refine Keeps.ofFst (by assumption) ?_
    | intro _
    | simp only [Keeps.record_iff]
    | split
    | with_reducible fail_if_success skip

theorem State.touchTag_keeps {s0 : State} {x1 : State} {x2} (h1 : Keeps s0 x1) :
    Keeps s0 (State.touchTag x1 x2) := by
  unfold State.touchTag
  repeat' first
    | with_reducible assumption
    | with_reducible apply State.bindPins_keeps
    | with_reducible apply State.leftBusy_keeps
    | with_reducible refine Keeps.ofSnd (by assumption) ?_
    | with_reducible refine Keeps.ofFst (by assumption) ?_
    | simp only [Keeps.record_iff]
    | with_reducible fail_if_success skip

theorem State.setBuffer_keeps {s0 : State} {x1 : State} {x2} {x3} (h1 : Keeps s0 x1) :
    Keeps s0 (State.setBuffer x1 x2 x3) := by
  unfold State.setBuffer
  repeat' first
    | with_reducible assumption
    | with_reducible refine Keeps.ofSnd (by assumption) ?_
    | with_reducible refine Keeps.ofFst (by assumption) ?_
    | intro _
    | simp only [Keeps.record_iff]
    | split
    | with_reducible fail_if_success skip

theorem State.fill_keeps {s0 : State} {x1 : State} {x2} {x3} (h1 : Keeps s0 x1) :
    Keeps s0 (State.fill x1 x2 x3) := by
  unfold State.fill
  repeat' first
    | with_reducible assumption
    | with_reducible apply State.addObj_keeps
    | with_reducible apply State.setBuffer_keeps
    | with_reducible refine Keeps.ofSnd (by assumption) ?_
    | with_reducible refine Keeps.ofFst (by assumption) ?_
    | simp only [Keeps.record_iff]
    | split
    | with_reducible fail_if_success skip

theorem State.lookup_keeps {s0 : State} {x1 : State} {x2} {x3} {x4} {t : State} {y0}
    (e : State.lookup x1 x2 x3 x4 = some (y0, t)) (h1 : Keeps s0 x1) : Keeps s0 t := by
  unfold State.lookup at e
  simp only [Option.map_eq_some_iff] at e
  obtain ⟨a, -, e⟩ := e
  cases e
  unfold State.setBuffer
  split <;> exact Keeps.record h1

theorem failWith_keeps {s0 : State} {α : Type} {x1 : Nat} {x3 : State} (h3 : Keeps s0 x3) :
    Ends s0 x3 (failWith x1 (α := α)) := h3

theorem State.setSwarmPort_keeps {s0 : State} {x1 : State} {x2} {x3} (h1 : Keeps s0 x1) :
    Keeps s0 (State.setSwarmPort x1 x2 x3) := by
  unfold State.setSwarmPort
  repeat' first
    | with_reducible assumption
    | with_reducible refine Keeps.ofSnd (by assumption) ?_
    | simp only [Keeps.record_iff]
    | with_reducible fail_if_success skip

theorem State.postSwarm_keeps {s0 : State} {x1 : State} {x2} {x3} {x4} (h1 : Keeps s0 x1) :
    Keeps s0 (State.postSwarm x1 x2 x3 x4) := by
  unfold State.postSwarm
  repeat' first
    | with_reducible assumption
    | with_reducible apply State.hostWrite_keeps
    | with_reducible apply State.setObj_keeps
    | with_reducible apply State.setSwarmPort_keeps
    | with_reducible apply State.raise_keeps
    | with_reducible refine Keeps.ofSnd (by assumption) ?_
    | intro _
    | simp only [Keeps.record_iff]
    | split
    | with_reducible fail_if_success skip

theorem State.closeSwarm_keeps {s0 : State} {x1 : State} {x2} {x3} (h1 : Keeps s0 x1) :
    Keeps s0 (State.closeSwarm x1 x2 x3) := by
  unfold State.closeSwarm
  repeat' first
    | with_reducible assumption
    | with_reducible apply State.setSwarmPort_keeps
    | with_reducible apply State.postSwarm_keeps
    | with_reducible apply State.countRaise_keeps
    | with_reducible refine Keeps.ofSnd (by assumption) ?_
    | with_reducible refine Keeps.ofFst (by assumption) ?_
    | simp only [Keeps.record_iff]
    | split
    | with_reducible fail_if_success skip

theorem State.reportAtOnce_keeps {s0 : State} {x1 : State} {x2} {x3} {x4} {x5} {x6} (h1 : Keeps s0 x1) :
    Keeps s0 (State.reportAtOnce x1 x2 x3 x4 x5 x6) := by
  unfold State.reportAtOnce
  repeat' first
    | with_reducible assumption
    | with_reducible apply State.addObj_keeps
    | with_reducible apply State.setSwarmPort_keeps
    | with_reducible apply State.closeSwarm_keeps
    | with_reducible refine Keeps.ofSnd (by assumption) ?_
    | simp only [Keeps.record_iff]
    | split
    | with_reducible fail_if_success skip

theorem State.addStall_keeps {s0 : State} {x1 : State} {x2} {x3} {x4} {x5} {x6} {x7} (h1 : Keeps s0 x1) :
    Keeps s0 (State.addStall x1 x2 x3 x4 x5 x6 x7) := by
  unfold State.addStall
  repeat' first
    | with_reducible assumption
    | with_reducible apply State.setSwarmPort_keeps
    | with_reducible apply State.closeSwarm_keeps
    | with_reducible refine Keeps.ofSnd (by assumption) ?_
    | with_reducible refine Keeps.ofFst (by assumption) ?_
    | intro _
    | simp only [Keeps.record_iff]
    | split
    | with_reducible fail_if_success skip

theorem fault_keeps {s0 : State} {α : Type} {x1 x2 x3 x4 x5 x6} {x8 : State} (h8 : Keeps s0 x8) :
    Ends s0 x8 (fault x1 x2 x3 x4 x5 x6 (α := α)) := by
  unfold fault
  refine Ends.get_bind ?_
  split
  · exact h8
  · split
    · exact Ends.set_bind (State.reportAtOnce_keeps h8)
    · exact h8

theorem findLeaf_keeps {s0 : State} {x1} {x2} {x3} {x4 : State} (h4 : Keeps s0 x4) :
    Ends s0 x4 (findLeaf x1 x2 x3) := by
  unfold findLeaf
  repeat' first
    | with_reducible assumption
    | with_reducible refine State.lookup_keeps (by assumption) ?_
    | with_reducible apply State.countRaise_keeps
    | with_reducible apply fault_keeps
    | with_reducible apply Ends.pure
    | with_reducible apply Ends.throw
    | with_reducible apply Ends.ite
    | with_reducible apply Ends.get_bind
    | with_reducible apply Ends.set_bind
    | with_reducible apply Ends.modify_bind
    | with_reducible apply Ends.set
    | with_reducible apply Ends.changed
    | with_reducible apply Ends.bind
    | with_reducible apply Ends.tryCatch
    | with_reducible refine Ends.ofOk (by assumption) ?_
    | with_reducible refine Ends.ofError (by assumption) ?_
    | with_reducible refine Keeps.ofSnd (by assumption) ?_
    | with_reducible refine Keeps.ofFst (by assumption) ?_
    | intro _
    | simp only [Keeps.record_iff]
    | split
    | (rename_i e; nomatch (e : none = some _))
    | (rename_i e; cases (e : some _ = some _))
    | (rename_i e; dsimp only at e)
    | (rename_i e; split at e)
    | with_reducible fail_if_success skip

theorem fillBuffers_keeps {s0 : State} {x1} {x2} {x3 : State} (h3 : Keeps s0 x3) :
    Ends s0 x3 (fillBuffers x1 x2) := by
  unfold fillBuffers
  repeat' first
    | with_reducible assumption
    | with_reducible apply State.fill_keeps
    | with_reducible apply Ends.pure
    | with_reducible apply Ends.ite
    | with_reducible apply Ends.get_bind
    | with_reducible apply Ends.set_bind
    | with_reducible apply Ends.modify_bind
    | with_reducible apply Ends.set
    | with_reducible apply Ends.changed
    | with_reducible apply Ends.bind
    | with_reducible refine Keeps.ofSnd (by assumption) ?_
    | intro _
    | simp only [Keeps.record_iff]
    | split
    | (rename_i e; nomatch (e : none = some _))
    | (rename_i e; cases (e : some _ = some _))
    | (rename_i e; dsimp only at e)
    | (rename_i e; split at e)
    | with_reducible fail_if_success skip

theorem State.dropRange_keeps {s0 : State} {x1 : State} {x2} {x3} {x4} (h1 : Keeps s0 x1) :
    Keeps s0 (State.dropRange x1 x2 x3 x4) := by
  unfold State.dropRange
  repeat' first
    | with_reducible assumption
    | with_reducible apply State.dropEntries_keeps
    | with_reducible refine Keeps.ofSnd (by assumption) ?_
    | with_reducible refine Keeps.ofFst (by assumption) ?_
    | intro _
    | simp only [Keeps.record_iff]
    | split
    | with_reducible fail_if_success skip

theorem State.putLeaves_keeps {s0 : State} {x1 : State} {x2} {x3} {x4} (h1 : Keeps s0 x1) :
    Keeps s0 (State.putLeaves x1 x2 x3 x4) := by
  unfold State.putLeaves
  repeat' first
    | with_reducible assumption
    | with_reducible apply State.writeNat_keeps
    | with_reducible refine Keeps.ofSnd (by assumption) ?_
    | with_reducible apply Keeps.foldl
    | with_reducible apply Keeps.foldlFst
    | with_reducible apply Keeps.foldlSnd
    | intro _
    | simp only [Keeps.record_iff]
    | split
    | with_reducible fail_if_success skip

theorem State.setHomes_keeps {s0 : State} {x1 : State} {x2} {x3} {x4} (h1 : Keeps s0 x1) :
    Keeps s0 (State.setHomes x1 x2 x3 x4) := by
  unfold State.setHomes
  repeat' first
    | with_reducible assumption
    | with_reducible refine Keeps.ofSnd (by assumption) ?_
    | with_reducible refine Keeps.ofFst (by assumption) ?_
    | with_reducible apply Keeps.foldl
    | with_reducible apply Keeps.foldlFst
    | with_reducible apply Keeps.foldlSnd
    | intro _
    | simp only [Keeps.record_iff]
    | with_reducible fail_if_success skip

theorem State.clearHomes_keeps {s0 : State} {x1 : State} {x2} {x3} (h1 : Keeps s0 x1) :
    Keeps s0 (State.clearHomes x1 x2 x3) := by
  unfold State.clearHomes
  repeat' first
    | with_reducible assumption
    | with_reducible refine Keeps.ofSnd (by assumption) ?_
    | with_reducible refine Keeps.ofFst (by assumption) ?_
    | with_reducible apply Keeps.foldl
    | with_reducible apply Keeps.foldlFst
    | with_reducible apply Keeps.foldlSnd
    | intro _
    | simp only [Keeps.record_iff]
    | with_reducible fail_if_success skip

theorem State.copyAtom_keeps {s0 : State} {x1 : State} {x2} {x3} (h1 : Keeps s0 x1) :
    Keeps s0 (State.copyAtom x1 x2 x3) := by
  unfold State.copyAtom
  repeat' first
    | with_reducible assumption
    | with_reducible apply State.writeMixed_keeps
    | with_reducible apply State.readEffects_keeps
    | with_reducible apply State.write_keeps
    | with_reducible refine Keeps.ofSnd (by assumption) ?_
    | simp only [Keeps.record_iff]
    | split
    | with_reducible fail_if_success skip

theorem State.copyAtoms_keeps {s0 : State} {x1 : State} {x2} {x3} {x4} (h1 : Keeps s0 x1) :
    Keeps s0 (State.copyAtoms x1 x2 x3 x4) := by
  revert h1
  fun_induction State.copyAtoms x1 x2 x3 x4
  all_goals (try dsimp +zetaDelta only at *)
  all_goals (try intro h1)
  all_goals
    repeat' first
    | with_reducible assumption
    | with_reducible apply State.copyAtom_keeps
    | with_reducible refine Keeps.ofSnd (by assumption) ?_
    | with_reducible refine (by assumption : ∀ {x : State}, Keeps _ x → Ends _ x _) ?_
    | with_reducible refine (by assumption : ∀ a, ∀ {x : State}, Keeps _ x → Ends _ x _) _ ?_
    | with_reducible refine (by assumption : ∀ a b, ∀ {x : State}, Keeps _ x → Ends _ x _) _ _ ?_
    | with_reducible refine (by assumption : _ → _) ?_
    | with_reducible refine (by assumption : ∀ _, _ → _) _ ?_
    | with_reducible refine (by assumption : ∀ _ _, _ → _) _ _ ?_
    | intro _
    | simp only [Keeps.record_iff]
    | with_reducible fail_if_success skip
    | dsimp +zetaDelta only

theorem State.postPlacement_keeps {s0 : State} {x1 : State} {x2} {x3} (h1 : Keeps s0 x1) :
    Keeps s0 (State.postPlacement x1 x2 x3) := by
  unfold State.postPlacement
  repeat' first
    | with_reducible assumption
    | with_reducible apply State.hostWrite_keeps
    | with_reducible apply State.setObj_keeps
    | with_reducible refine Keeps.ofSnd (by assumption) ?_
    | simp only [Keeps.record_iff]
    | with_reducible fail_if_success skip

theorem State.changeRecord_keeps {s0 : State} {x1 : State} {x2} {x3} (h1 : Keeps s0 x1) :
    Keeps s0 (State.changeRecord x1 x2 x3) := by
  unfold State.changeRecord
  repeat' first
    | with_reducible assumption
    | with_reducible apply State.postPlacement_keeps
    | with_reducible refine Keeps.ofSnd (by assumption) ?_
    | simp only [Keeps.record_iff]
    | split
    | with_reducible fail_if_success skip

theorem State.proposalRecord_keeps {s0 : State} {x1 : State} {x2} {x3} (h1 : Keeps s0 x1) :
    Keeps s0 (State.proposalRecord x1 x2 x3) := by
  unfold State.proposalRecord
  repeat' first
    | with_reducible assumption
    | with_reducible apply State.postPlacement_keeps
    | with_reducible apply State.addObj_keeps
    | with_reducible refine Keeps.ofSnd (by assumption) ?_
    | simp only [Keeps.record_iff]
    | split
    | with_reducible fail_if_success skip

theorem State.postWaitingN_keeps {s0 : State} {x1 : State} {x2} {x3} (h1 : Keeps s0 x1) :
    Keeps s0 (State.postWaitingN x1 x2 x3) := by
  revert h1
  fun_induction State.postWaitingN x1 x2 x3
  all_goals (try dsimp +zetaDelta only at *)
  all_goals (try intro h1)
  all_goals
    repeat' first
    | with_reducible assumption
    | with_reducible apply State.postPlacement_keeps
    | with_reducible refine Keeps.ofSnd (by assumption) ?_
    | with_reducible refine Keeps.ofFst (by assumption) ?_
    | with_reducible refine (by assumption : ∀ {x : State}, Keeps _ x → Ends _ x _) ?_
    | with_reducible refine (by assumption : ∀ a, ∀ {x : State}, Keeps _ x → Ends _ x _) _ ?_
    | with_reducible refine (by assumption : ∀ a b, ∀ {x : State}, Keeps _ x → Ends _ x _) _ _ ?_
    | with_reducible refine (by assumption : _ → _) ?_
    | with_reducible refine (by assumption : ∀ _, _ → _) _ ?_
    | with_reducible refine (by assumption : ∀ _ _, _ → _) _ _ ?_
    | intro _
    | simp only [Keeps.record_iff]
    | split
    | with_reducible fail_if_success skip
    | dsimp +zetaDelta only

theorem State.postWaiting_keeps {s0 : State} {x1 : State} {x2} (h1 : Keeps s0 x1) :
    Keeps s0 (State.postWaiting x1 x2) := by
  unfold State.postWaiting
  repeat' first
    | with_reducible assumption
    | with_reducible apply State.postWaitingN_keeps
    | with_reducible refine Keeps.ofSnd (by assumption) ?_
    | simp only [Keeps.record_iff]
    | with_reducible fail_if_success skip

theorem State.withdrawFolio_keeps {s0 : State} {x1 : State} {x2} {x3} {x4} {x5} {x6} {x7} {x8} (h1 : Keeps s0 x1) :
    Keeps s0 (State.withdrawFolio x1 x2 x3 x4 x5 x6 x7 x8) := by
  unfold State.withdrawFolio
  repeat' first
    | with_reducible assumption
    | with_reducible apply State.putLeaves_keeps
    | with_reducible apply State.clearHomes_keeps
    | with_reducible apply State.dropRange_keeps
    | with_reducible apply State.changeRecord_keeps
    | with_reducible refine Keeps.ofSnd (by assumption) ?_
    | with_reducible refine Keeps.ofFst (by assumption) ?_
    | simp only [Keeps.record_iff]
    | with_reducible fail_if_success skip

theorem State.withdrawForWrite_keeps {s0 : State} {x1 : State} {x2} {x3} {t : State}
    (e : State.withdrawForWrite x1 x2 x3 = some t) (h1 : Keeps s0 x1) : Keeps s0 t := by
  unfold State.withdrawForWrite at e
  dsimp only at e
  split at e
  · split at e
    · split at e
      · cases e; exact State.withdrawFolio_keeps h1
      · cases e
    · cases e
  · cases e

theorem admitted_keeps {s0 : State} {x1} {x2} {x3 : State} (h3 : Keeps s0 x3) :
    Ends s0 x3 (admitted x1 x2) := by
  unfold admitted
  repeat' first
    | with_reducible assumption
    | with_reducible apply Ends.pure
    | with_reducible apply Ends.throw
    | with_reducible apply Ends.ite
    | with_reducible apply Ends.get_bind
    | with_reducible apply Ends.set_bind
    | with_reducible apply Ends.modify_bind
    | with_reducible apply Ends.set
    | with_reducible apply Ends.changed
    | with_reducible apply Ends.bind
    | with_reducible refine Keeps.ofSnd (by assumption) ?_
    | with_reducible refine Keeps.ofFst (by assumption) ?_
    | intro _
    | simp only [Keeps.record_iff]
    | split
    | (rename_i e; nomatch (e : none = some _))
    | (rename_i e; cases (e : some _ = some _))
    | (rename_i e; dsimp only at e)
    | (rename_i e; split at e)
    | with_reducible fail_if_success skip

theorem checked_keeps {s0 : State} {x1} {x2} {x3} {x4} {x5 : State} (h5 : Keeps s0 x5) :
    Ends s0 x5 (checked x1 x2 x3 x4) := by
  unfold checked
  repeat' first
    | with_reducible assumption
    | with_reducible apply fillBuffers_keeps
    | with_reducible refine State.withdrawForWrite_keeps (by assumption) ?_
    | with_reducible apply fault_keeps
    | with_reducible apply findLeaf_keeps
    | with_reducible apply Ends.pure
    | with_reducible apply Ends.throw
    | with_reducible apply Ends.ite
    | with_reducible apply Ends.get_bind
    | with_reducible apply Ends.set_bind
    | with_reducible apply Ends.modify_bind
    | with_reducible apply Ends.set
    | with_reducible apply Ends.changed
    | with_reducible apply Ends.bind
    | with_reducible apply Ends.tryCatch
    | with_reducible refine Ends.ofOk (by assumption) ?_
    | with_reducible refine Ends.ofError (by assumption) ?_
    | with_reducible refine Keeps.ofSnd (by assumption) ?_
    | with_reducible refine Keeps.ofFst (by assumption) ?_
    | intro _
    | simp only [Keeps.record_iff]
    | split
    | (rename_i e; nomatch (e : none = some _))
    | (rename_i e; cases (e : some _ = some _))
    | (rename_i e; dsimp only at e)
    | (rename_i e; split at e)
    | with_reducible fail_if_success skip

theorem translate_keeps {s0 : State} {x1} {x2} {x3} {x4 : State} (h4 : Keeps s0 x4) :
    Ends s0 x4 (translate x1 x2 x3) := by
  unfold translate
  repeat' first
    | with_reducible assumption
    | with_reducible apply admitted_keeps
    | with_reducible apply findLeaf_keeps
    | with_reducible apply checked_keeps
    | with_reducible apply Ends.pure
    | with_reducible apply Ends.ite
    | with_reducible apply Ends.get_bind
    | with_reducible apply Ends.set_bind
    | with_reducible apply Ends.modify_bind
    | with_reducible apply Ends.set
    | with_reducible apply Ends.changed
    | with_reducible apply Ends.bind
    | with_reducible refine Ends.ofOk (by assumption) ?_
    | with_reducible refine Ends.ofError (by assumption) ?_
    | with_reducible refine Keeps.ofSnd (by assumption) ?_
    | with_reducible refine Keeps.ofFst (by assumption) ?_
    | intro _
    | simp only [Keeps.record_iff]
    | (rename_i e; nomatch (e : none = some _))
    | (rename_i e; cases (e : some _ = some _))
    | (rename_i e; dsimp only at e)
    | (rename_i e; split at e)
    | with_reducible fail_if_success skip

theorem readDevice_keeps {s0 : State} {x1} {x2} {x3} {x4 : State} (h4 : Keeps s0 x4) :
    Ends s0 x4 (readDevice x1 x2 x3) := by
  unfold readDevice
  repeat' first
    | with_reducible assumption
    | with_reducible apply State.deliver64_keeps
    | with_reducible apply State.readEffects_keeps
    | with_reducible apply Ends.pure
    | with_reducible apply Ends.throw
    | with_reducible apply Ends.ite
    | with_reducible apply Ends.get_bind
    | with_reducible apply Ends.set_bind
    | with_reducible apply Ends.modify_bind
    | with_reducible apply Ends.set
    | with_reducible apply Ends.changed
    | with_reducible apply Ends.bind
    | with_reducible refine Keeps.ofSnd (by assumption) ?_
    | with_reducible refine Keeps.ofFst (by assumption) ?_
    | intro _
    | simp only [Keeps.record_iff]
    | split
    | (rename_i e; nomatch (e : none = some _))
    | (rename_i e; cases (e : some _ = some _))
    | (rename_i e; dsimp only at e)
    | (rename_i e; split at e)
    | with_reducible fail_if_success skip

theorem writePlace_keeps {s0 : State} {x1} {x2} {x3 : State} (h3 : Keeps s0 x3) :
    Ends s0 x3 (writePlace x1 x2) := by
  unfold writePlace
  repeat' first
    | with_reducible assumption
    | with_reducible apply State.raise_keeps
    | with_reducible apply State.addObj_keeps
    | with_reducible apply State.zeroRange_keeps
    | with_reducible apply State.setCluster_keeps
    | with_reducible apply Ends.pure
    | with_reducible apply Ends.throw
    | with_reducible apply Ends.ite
    | with_reducible apply Ends.get_bind
    | with_reducible apply Ends.set_bind
    | with_reducible apply Ends.modify_bind
    | with_reducible apply Ends.set
    | with_reducible apply Ends.changed
    | with_reducible apply Ends.bind
    | with_reducible refine Keeps.ofSnd (by assumption) ?_
    | with_reducible refine Keeps.ofFst (by assumption) ?_
    | intro _
    | simp only [Keeps.record_iff]
    | split
    | (rename_i e; nomatch (e : none = some _))
    | (rename_i e; cases (e : some _ = some _))
    | (rename_i e; dsimp only at e)
    | (rename_i e; split at e)
    | with_reducible fail_if_success skip

theorem writeDevice_keeps {s0 : State} {x1} {x2} {x3} {x4} {x5 : State} (h5 : Keeps s0 x5) :
    Ends s0 x5 (writeDevice x1 x2 x3 x4) := by
  unfold writeDevice
  repeat' first
    | with_reducible assumption
    | with_reducible apply writePlace_keeps
    | with_reducible apply State.deliver64_keeps
    | with_reducible apply State.writeCarried_keeps
    | with_reducible apply Ends.pure
    | with_reducible apply Ends.ite
    | with_reducible apply Ends.get_bind
    | with_reducible apply Ends.set_bind
    | with_reducible apply Ends.modify_bind
    | with_reducible apply Ends.set
    | with_reducible apply Ends.changed
    | with_reducible apply Ends.bind
    | with_reducible refine Ends.ofOk (by assumption) ?_
    | with_reducible refine Ends.ofError (by assumption) ?_
    | with_reducible refine Keeps.ofSnd (by assumption) ?_
    | with_reducible refine Keeps.ofFst (by assumption) ?_
    | intro _
    | simp only [Keeps.record_iff]
    | split
    | (rename_i e; nomatch (e : none = some _))
    | (rename_i e; cases (e : some _ = some _))
    | (rename_i e; dsimp only at e)
    | (rename_i e; split at e)
    | with_reducible fail_if_success skip

theorem State.noteUse_keeps {s0 : State} {x1 : State} {x2} {x3} {x4} {x5} (h1 : Keeps s0 x1) :
    Keeps s0 (State.noteUse x1 x2 x3 x4 x5) := by
  unfold State.noteUse
  repeat' first
    | with_reducible assumption
    | with_reducible refine Keeps.ofSnd (by assumption) ?_
    | with_reducible refine Keeps.ofFst (by assumption) ?_
    | intro _
    | simp only [Keeps.record_iff]
    | split
    | with_reducible fail_if_success skip

theorem readPeer_keeps {s0 : State} {x1} {x2} {x3} {x4} {x5} {x6 : State} (h6 : Keeps s0 x6) :
    Ends s0 x6 (readPeer x1 x2 x3 x4 x5) := by
  unfold readPeer
  repeat' first
    | with_reducible assumption
    | with_reducible apply Ends.pure
    | with_reducible apply Ends.throw
    | with_reducible apply Ends.ite
    | with_reducible apply Ends.get_bind
    | with_reducible apply Ends.set_bind
    | with_reducible apply Ends.modify_bind
    | with_reducible apply Ends.set
    | with_reducible apply Ends.changed
    | with_reducible apply Ends.bind
    | with_reducible refine Keeps.ofSnd (by assumption) ?_
    | with_reducible refine Keeps.ofFst (by assumption) ?_
    | intro _
    | simp only [Keeps.record_iff]
    | split
    | (rename_i e; nomatch (e : none = some _))
    | (rename_i e; cases (e : some _ = some _))
    | (rename_i e; dsimp only at e)
    | (rename_i e; split at e)
    | with_reducible fail_if_success skip

theorem poisonedBytes_keeps {s0 : State} {x1} {x2 : State} (h2 : Keeps s0 x2) :
    Ends s0 x2 (poisonedBytes x1) := by
  unfold poisonedBytes
  repeat' first
    | with_reducible assumption
    | with_reducible apply State.draw_keeps
    | with_reducible apply Ends.pure
    | with_reducible apply Ends.ite
    | with_reducible apply Ends.get_bind
    | with_reducible apply Ends.set_bind
    | with_reducible apply Ends.modify_bind
    | with_reducible apply Ends.set
    | with_reducible apply Ends.changed
    | with_reducible apply Ends.bind
    | with_reducible refine Keeps.ofSnd (by assumption) ?_
    | with_reducible refine Keeps.ofFst (by assumption) ?_
    | intro _
    | simp only [Keeps.record_iff]
    | split
    | (rename_i e; nomatch (e : none = some _))
    | (rename_i e; cases (e : some _ = some _))
    | (rename_i e; dsimp only at e)
    | (rename_i e; split at e)
    | with_reducible fail_if_success skip

theorem poisonLeaf_keeps {s0 : State} {x1} {x2} {x3 : State} (h3 : Keeps s0 x3) :
    Ends s0 x3 (poisonLeaf x1 x2) := by
  unfold poisonLeaf
  repeat' first
    | with_reducible assumption
    | with_reducible apply State.countRaise_keeps
    | with_reducible apply poisonedBytes_keeps
    | with_reducible apply Ends.pure
    | with_reducible apply Ends.ite
    | with_reducible apply Ends.get_bind
    | with_reducible apply Ends.set_bind
    | with_reducible apply Ends.modify_bind
    | with_reducible apply Ends.set
    | with_reducible apply Ends.changed
    | with_reducible apply Ends.bind
    | with_reducible refine Ends.ofOk (by assumption) ?_
    | with_reducible refine Ends.ofError (by assumption) ?_
    | with_reducible refine Keeps.ofSnd (by assumption) ?_
    | with_reducible apply Keeps.foldl
    | with_reducible apply Keeps.foldlFst
    | with_reducible apply Keeps.foldlSnd
    | intro _
    | simp only [Keeps.record_iff]
    | split
    | (rename_i e; nomatch (e : none = some _))
    | (rename_i e; cases (e : some _ = some _))
    | (rename_i e; dsimp only at e)
    | (rename_i e; split at e)
    | with_reducible fail_if_success skip

theorem readPage_keeps {s0 : State} {x1} {x2} {x3} {x4} {x5 : State} (h5 : Keeps s0 x5) :
    Ends s0 x5 (readPage x1 x2 x3 x4) := by
  unfold readPage
  repeat' first
    | with_reducible assumption
    | with_reducible apply translate_keeps
    | with_reducible apply poisonLeaf_keeps
    | with_reducible apply State.noteUse_keeps
    | with_reducible apply readDevice_keeps
    | with_reducible apply State.hostRead_keeps
    | with_reducible apply poisonedBytes_keeps
    | with_reducible apply readPeer_keeps
    | with_reducible apply Ends.pure
    | with_reducible apply Ends.ite
    | with_reducible apply Ends.get_bind
    | with_reducible apply Ends.set_bind
    | with_reducible apply Ends.modify_bind
    | with_reducible apply Ends.set
    | with_reducible apply Ends.changed
    | with_reducible apply Ends.bind
    | with_reducible refine Ends.ofOk (by assumption) ?_
    | with_reducible refine Ends.ofError (by assumption) ?_
    | with_reducible refine Keeps.ofSnd (by assumption) ?_
    | with_reducible refine Keeps.ofFst (by assumption) ?_
    | intro _
    | simp only [Keeps.record_iff]
    | split
    | (rename_i e; nomatch (e : none = some _))
    | (rename_i e; cases (e : some _ = some _))
    | (rename_i e; dsimp only at e)
    | (rename_i e; split at e)
    | with_reducible fail_if_success skip

theorem readN_keeps {s0 : State} {x1} {x2} {x3} {x4} {x5} {x6 : State} (h6 : Keeps s0 x6) :
    Ends s0 x6 (readN x1 x2 x3 x4 x5) := by
  revert x6 h6
  fun_induction readN x1 x2 x3 x4 x5
  all_goals (try dsimp +zetaDelta only at *)
  all_goals (try intro x6 h6)
  all_goals
    repeat' first
    | with_reducible assumption
    | with_reducible apply readPage_keeps
    | with_reducible apply Ends.pure
    | with_reducible apply Ends.ite
    | with_reducible apply Ends.get_bind
    | with_reducible apply Ends.set_bind
    | with_reducible apply Ends.modify_bind
    | with_reducible apply Ends.set
    | with_reducible apply Ends.changed
    | with_reducible apply Ends.bind
    | with_reducible refine Ends.ofOk (by assumption) ?_
    | with_reducible refine Ends.ofError (by assumption) ?_
    | with_reducible refine Keeps.ofSnd (by assumption) ?_
    | with_reducible refine Keeps.ofFst (by assumption) ?_
    | with_reducible refine (by assumption : ∀ {x : State}, Keeps _ x → Ends _ x _) ?_
    | with_reducible refine (by assumption : ∀ a, ∀ {x : State}, Keeps _ x → Ends _ x _) _ ?_
    | with_reducible refine (by assumption : ∀ a b, ∀ {x : State}, Keeps _ x → Ends _ x _) _ _ ?_
    | with_reducible refine (by assumption : _ → _) ?_
    | with_reducible refine (by assumption : ∀ _, _ → _) _ ?_
    | with_reducible refine (by assumption : ∀ _ _, _ → _) _ _ ?_
    | intro _
    | simp only [Keeps.record_iff]
    | split
    | (rename_i e; nomatch (e : none = some _))
    | (rename_i e; cases (e : some _ = some _))
    | (rename_i e; dsimp only at e)
    | (rename_i e; split at e)
    | with_reducible fail_if_success skip
    | dsimp +zetaDelta only

theorem readMarked_keeps {s0 : State} {x1} {x2} {x3} {x4 : State} (h4 : Keeps s0 x4) :
    Ends s0 x4 (readMarked x1 x2 x3) := by
  unfold readMarked
  repeat' first
    | with_reducible assumption
    | with_reducible apply readN_keeps
    | with_reducible apply Ends.pure
    | with_reducible apply Ends.throw
    | with_reducible apply Ends.ite
    | with_reducible apply Ends.get_bind
    | with_reducible apply Ends.set_bind
    | with_reducible apply Ends.modify_bind
    | with_reducible apply Ends.set
    | with_reducible apply Ends.changed
    | with_reducible apply Ends.bind
    | with_reducible refine Ends.ofOk (by assumption) ?_
    | with_reducible refine Ends.ofError (by assumption) ?_
    | with_reducible refine Keeps.ofSnd (by assumption) ?_
    | intro _
    | simp only [Keeps.record_iff]
    | split
    | (rename_i e; nomatch (e : none = some _))
    | (rename_i e; cases (e : some _ = some _))
    | (rename_i e; dsimp only at e)
    | (rename_i e; split at e)
    | with_reducible fail_if_success skip

theorem readVA_keeps {s0 : State} {x1} {x2} {x3} {x4 : State} (h4 : Keeps s0 x4) :
    Ends s0 x4 (readVA x1 x2 x3) := by
  unfold readVA
  repeat' first
    | with_reducible assumption
    | with_reducible apply readMarked_keeps
    | with_reducible apply Ends.pure
    | with_reducible apply Ends.throw
    | with_reducible apply Ends.ite
    | with_reducible apply Ends.get_bind
    | with_reducible apply Ends.set_bind
    | with_reducible apply Ends.modify_bind
    | with_reducible apply Ends.set
    | with_reducible apply Ends.changed
    | with_reducible apply Ends.bind
    | with_reducible refine Ends.ofOk (by assumption) ?_
    | with_reducible refine Ends.ofError (by assumption) ?_
    | with_reducible refine Keeps.ofSnd (by assumption) ?_
    | with_reducible refine Keeps.ofFst (by assumption) ?_
    | intro _
    | simp only [Keeps.record_iff]
    | split
    | (rename_i e; nomatch (e : none = some _))
    | (rename_i e; cases (e : some _ = some _))
    | (rename_i e; dsimp only at e)
    | (rename_i e; split at e)
    | with_reducible fail_if_success skip

theorem readNum_keeps {s0 : State} {x1} {x2} {x3} {x4 : State} (h4 : Keeps s0 x4) :
    Ends s0 x4 (readNum x1 x2 x3) := by
  unfold readNum
  repeat' first
    | with_reducible assumption
    | with_reducible apply readVA_keeps
    | with_reducible apply Ends.pure
    | with_reducible apply Ends.ite
    | with_reducible apply Ends.get_bind
    | with_reducible apply Ends.set_bind
    | with_reducible apply Ends.modify_bind
    | with_reducible apply Ends.set
    | with_reducible apply Ends.changed
    | with_reducible apply Ends.bind
    | with_reducible refine Ends.ofOk (by assumption) ?_
    | with_reducible refine Ends.ofError (by assumption) ?_
    | with_reducible refine Keeps.ofSnd (by assumption) ?_
    | with_reducible refine Keeps.ofFst (by assumption) ?_
    | intro _
    | simp only [Keeps.record_iff]
    | (rename_i e; nomatch (e : none = some _))
    | (rename_i e; cases (e : some _ = some _))
    | (rename_i e; dsimp only at e)
    | (rename_i e; split at e)
    | with_reducible fail_if_success skip

theorem fetchVA_keeps {s0 : State} {x1} {x2} {x3} {x4 : State} (h4 : Keeps s0 x4) :
    Ends s0 x4 (fetchVA x1 x2 x3) := by
  unfold fetchVA
  repeat' first
    | with_reducible assumption
    | with_reducible apply readN_keeps
    | with_reducible apply Ends.pure
    | with_reducible apply Ends.throw
    | with_reducible apply Ends.ite
    | with_reducible apply Ends.get_bind
    | with_reducible apply Ends.set_bind
    | with_reducible apply Ends.modify_bind
    | with_reducible apply Ends.set
    | with_reducible apply Ends.changed
    | with_reducible apply Ends.bind
    | with_reducible refine Ends.ofOk (by assumption) ?_
    | with_reducible refine Ends.ofError (by assumption) ?_
    | with_reducible refine Keeps.ofSnd (by assumption) ?_
    | with_reducible refine Keeps.ofFst (by assumption) ?_
    | intro _
    | simp only [Keeps.record_iff]
    | split
    | (rename_i e; nomatch (e : none = some _))
    | (rename_i e; cases (e : some _ = some _))
    | (rename_i e; dsimp only at e)
    | (rename_i e; split at e)
    | with_reducible fail_if_success skip

theorem notePort_keeps {s0 : State} {x1} {x2} {x3} {x4 : State} (h4 : Keeps s0 x4) :
    Keeps s0 (notePort x1 x2 x3 x4) := by
  unfold notePort
  repeat' first
    | with_reducible assumption
    | with_reducible apply State.setCtx_keeps
    | with_reducible refine Keeps.ofSnd (by assumption) ?_
    | with_reducible refine Keeps.ofFst (by assumption) ?_
    | intro _
    | simp only [Keeps.record_iff]
    | split
    | with_reducible fail_if_success skip

theorem writePage_keeps {s0 : State} {x1} {x2} {x3} {x4} {x5} {x6 : State} (h6 : Keeps s0 x6) :
    Ends s0 x6 (writePage x1 x2 x3 x4 x5) := by
  unfold writePage
  repeat' first
    | with_reducible assumption
    | with_reducible apply translate_keeps
    | with_reducible apply State.noteUse_keeps
    | with_reducible apply writeDevice_keeps
    | with_reducible apply notePort_keeps
    | with_reducible apply State.hostWrites_keeps
    | with_reducible apply State.queueWrite_keeps
    | with_reducible apply Ends.pure
    | with_reducible apply Ends.throw
    | with_reducible apply Ends.ite
    | with_reducible apply Ends.get_bind
    | with_reducible apply Ends.set_bind
    | with_reducible apply Ends.modify_bind
    | with_reducible apply Ends.set
    | with_reducible apply Ends.changed
    | with_reducible apply Ends.bind
    | with_reducible refine Ends.ofOk (by assumption) ?_
    | with_reducible refine Ends.ofError (by assumption) ?_
    | with_reducible refine Keeps.ofSnd (by assumption) ?_
    | with_reducible refine Keeps.ofFst (by assumption) ?_
    | intro _
    | simp only [Keeps.record_iff]
    | split
    | (rename_i e; nomatch (e : none = some _))
    | (rename_i e; cases (e : some _ = some _))
    | (rename_i e; dsimp only at e)
    | (rename_i e; split at e)
    | with_reducible fail_if_success skip

theorem writeN_keeps {s0 : State} {x1} {x2} {x3} {x4} {x5} {x6} {x7 : State} (h7 : Keeps s0 x7) :
    Ends s0 x7 (writeN x1 x2 x3 x4 x5 x6) := by
  revert x7 h7
  fun_induction writeN x1 x2 x3 x4 x5 x6
  all_goals (try dsimp +zetaDelta only at *)
  all_goals (try intro x7 h7)
  all_goals
    repeat' first
    | with_reducible assumption
    | with_reducible apply writePage_keeps
    | with_reducible apply Ends.pure
    | with_reducible apply Ends.ite
    | with_reducible apply Ends.get_bind
    | with_reducible apply Ends.set_bind
    | with_reducible apply Ends.modify_bind
    | with_reducible apply Ends.set
    | with_reducible apply Ends.changed
    | with_reducible apply Ends.bind
    | with_reducible refine Ends.ofOk (by assumption) ?_
    | with_reducible refine Ends.ofError (by assumption) ?_
    | with_reducible refine Keeps.ofSnd (by assumption) ?_
    | with_reducible refine (by assumption : ∀ {x : State}, Keeps _ x → Ends _ x _) ?_
    | with_reducible refine (by assumption : ∀ a, ∀ {x : State}, Keeps _ x → Ends _ x _) _ ?_
    | with_reducible refine (by assumption : ∀ a b, ∀ {x : State}, Keeps _ x → Ends _ x _) _ _ ?_
    | with_reducible refine (by assumption : _ → _) ?_
    | with_reducible refine (by assumption : ∀ _, _ → _) _ ?_
    | with_reducible refine (by assumption : ∀ _ _, _ → _) _ _ ?_
    | intro _
    | simp only [Keeps.record_iff]
    | split
    | (rename_i e; nomatch (e : none = some _))
    | (rename_i e; cases (e : some _ = some _))
    | (rename_i e; dsimp only at e)
    | (rename_i e; split at e)
    | with_reducible fail_if_success skip
    | dsimp +zetaDelta only

theorem writeMarked_keeps {s0 : State} {x1} {x2} {x3} {x4} {x5} {x6 : State} (h6 : Keeps s0 x6) :
    Ends s0 x6 (writeMarked x1 x2 x3 x4 x5) := by
  unfold writeMarked
  repeat' first
    | with_reducible assumption
    | with_reducible apply writeN_keeps
    | with_reducible apply Ends.pure
    | with_reducible apply Ends.throw
    | with_reducible apply Ends.ite
    | with_reducible apply Ends.get_bind
    | with_reducible apply Ends.set_bind
    | with_reducible apply Ends.modify_bind
    | with_reducible apply Ends.set
    | with_reducible apply Ends.changed
    | with_reducible apply Ends.bind
    | with_reducible refine Ends.ofOk (by assumption) ?_
    | with_reducible refine Ends.ofError (by assumption) ?_
    | with_reducible refine Keeps.ofSnd (by assumption) ?_
    | intro _
    | simp only [Keeps.record_iff]
    | split
    | (rename_i e; nomatch (e : none = some _))
    | (rename_i e; cases (e : some _ = some _))
    | (rename_i e; dsimp only at e)
    | (rename_i e; split at e)
    | with_reducible fail_if_success skip

theorem writeVA_keeps {s0 : State} {x1} {x2} {x3} {x4 : State} (h4 : Keeps s0 x4) :
    Ends s0 x4 (writeVA x1 x2 x3) := by
  unfold writeVA
  repeat' first
    | with_reducible assumption
    | with_reducible apply writeMarked_keeps
    | with_reducible apply Ends.pure
    | with_reducible apply Ends.ite
    | with_reducible apply Ends.get_bind
    | with_reducible apply Ends.set_bind
    | with_reducible apply Ends.modify_bind
    | with_reducible apply Ends.set
    | with_reducible apply Ends.changed
    | with_reducible apply Ends.bind
    | with_reducible refine Ends.ofOk (by assumption) ?_
    | with_reducible refine Ends.ofError (by assumption) ?_
    | with_reducible refine Keeps.ofSnd (by assumption) ?_
    | intro _
    | simp only [Keeps.record_iff]
    | (rename_i e; nomatch (e : none = some _))
    | (rename_i e; cases (e : some _ = some _))
    | (rename_i e; dsimp only at e)
    | (rename_i e; split at e)
    | with_reducible fail_if_success skip

theorem State.closePath_keeps {s0 : State} {x1 : State} {x2} (h1 : Keeps s0 x1) :
    Keeps s0 (State.closePath x1 x2) := by
  unfold State.closePath
  repeat' first
    | with_reducible assumption
    | with_reducible refine Keeps.ofSnd (by assumption) ?_
    | intro _
    | simp only [Keeps.record_iff]
    | split
    | with_reducible fail_if_success skip

theorem enterPath_keeps {s0 : State} {x1} {x2 : State} (h2 : Keeps s0 x2) :
    Ends s0 x2 (enterPath x1) := by
  unfold enterPath
  repeat' first
    | with_reducible assumption
    | with_reducible apply Ends.pure
    | with_reducible apply Ends.throw
    | with_reducible apply Ends.ite
    | with_reducible apply Ends.get_bind
    | with_reducible apply Ends.set_bind
    | with_reducible apply Ends.modify_bind
    | with_reducible apply Ends.set
    | with_reducible apply Ends.changed
    | with_reducible apply Ends.bind
    | with_reducible apply Ends.tryCatch
    | with_reducible refine Keeps.ofSnd (by assumption) ?_
    | with_reducible refine Keeps.ofFst (by assumption) ?_
    | intro _
    | simp only [Keeps.record_iff]
    | split
    | (rename_i e; nomatch (e : none = some _))
    | (rename_i e; cases (e : some _ = some _))
    | (rename_i e; dsimp only at e)
    | (rename_i e; split at e)
    | with_reducible fail_if_success skip

theorem pathTurn_keeps {s0 : State} {x1} {x2} {x3} {x4 : State} (h4 : Keeps s0 x4) :
    Ends s0 x4 (pathTurn x1 x2 x3) := by
  unfold pathTurn
  repeat' first
    | with_reducible assumption
    | with_reducible apply translate_keeps
    | with_reducible apply Ends.pure
    | with_reducible apply Ends.throw
    | with_reducible apply Ends.ite
    | with_reducible apply Ends.get_bind
    | with_reducible apply Ends.set_bind
    | with_reducible apply Ends.modify_bind
    | with_reducible apply Ends.set
    | with_reducible apply Ends.changed
    | with_reducible apply Ends.bind
    | with_reducible refine Ends.ofOk (by assumption) ?_
    | with_reducible refine Ends.ofError (by assumption) ?_
    | with_reducible refine Keeps.ofSnd (by assumption) ?_
    | with_reducible refine Keeps.ofFst (by assumption) ?_
    | intro _
    | simp only [Keeps.record_iff]
    | split
    | (rename_i e; nomatch (e : none = some _))
    | (rename_i e; cases (e : some _ = some _))
    | (rename_i e; dsimp only at e)
    | (rename_i e; split at e)
    | with_reducible fail_if_success skip

theorem State.settle_keeps {s0 : State} {x1 : State} {α : Type} {x3 : EStateM.Result Stop State α} {x4 : α → State → State}
    {x5 : Nat → Nat → State → State} (h1 : Keeps s0 x1) (hx : Leaves s0 x3) (ok : ∀ a t, Keeps s0 t → Keeps s0 (x4 a t))
    (bad : ∀ st c t, Keeps s0 t → Keeps s0 (x5 st c t)) : Keeps s0 (State.settle x1 x3 x4 x5) := by
  unfold State.settle
  split
  · exact ok _ _ hx
  · exact bad _ _ _ hx
  · exact h1
  · exact hx
  · exact State.addStall_keeps h1
  · exact State.requestRead_keeps h1

theorem State.runM_keeps {s0 : State} {x1 : State} {α : Type} {x3 : M α} {x4 : α → State → State}
    {x5 : Nat → Nat → State → State} (h1 : Keeps s0 x1) (hx : Ends s0 x1 x3) (ok : ∀ a t, Keeps s0 t → Keeps s0 (x4 a t))
    (bad : ∀ st c t, Keeps s0 t → Keeps s0 (x5 st c t)) : Keeps s0 (State.runM x1 x3 x4 x5) :=
  State.settle_keeps h1 hx ok bad

end Sys2Proof.Machine
end

