-- ==== Sys2Proof/Laws/KeepsSpine.lean ====
section
/-! SUPPORT. What the operations of Machine/Spine.lean keep. -/

set_option linter.all false

namespace Sys2Proof.Machine

theorem State.modEntry_keeps {s0 : State} {x1 : State} {x2} {x3} {x4} (h1 : Keeps s0 x1) :
    Keeps s0 (State.modEntry x1 x2 x3 x4) := by
  unfold State.modEntry
  repeat' first
    | with_reducible assumption
    | with_reducible apply State.setCtx_keeps
    | with_reducible refine Keeps.ofSnd (by assumption) ?_
    | intro _
    | simp only [Keeps.record_iff]
    | split
    | with_reducible fail_if_success skip

theorem State.modQuire_keeps {s0 : State} {x1 : State} {x2} {x3} {x4} (h1 : Keeps s0 x1) :
    Keeps s0 (State.modQuire x1 x2 x3 x4) := by
  unfold State.modQuire
  repeat' first
    | with_reducible assumption
    | with_reducible apply State.modEntry_keeps
    | with_reducible refine Keeps.ofSnd (by assumption) ?_
    | intro _
    | simp only [Keeps.record_iff]
    | with_reducible fail_if_success skip

theorem State.modOp_keeps {s0 : State} {x1 : State} {x2} {x3} (h1 : Keeps s0 x1) :
    Keeps s0 (State.modOp x1 x2 x3) := by
  unfold State.modOp
  repeat' first
    | with_reducible assumption
    | with_reducible apply State.modQuire_keeps
    | with_reducible refine Keeps.ofSnd (by assumption) ?_
    | intro _
    | simp only [Keeps.record_iff]
    | split
    | with_reducible fail_if_success skip

theorem State.setOp_keeps {s0 : State} {x1 : State} {x2} {x3} (h1 : Keeps s0 x1) :
    Keeps s0 (State.setOp x1 x2 x3) := by
  unfold State.setOp
  repeat' first
    | with_reducible assumption
    | with_reducible apply State.modOp_keeps
    | with_reducible refine Keeps.ofSnd (by assumption) ?_
    | intro _
    | simp only [Keeps.record_iff]
    | with_reducible fail_if_success skip

theorem State.modSlice_keeps {s0 : State} {x1 : State} {x2} {x3} {x4} (h1 : Keeps s0 x1) :
    Keeps s0 (State.modSlice x1 x2 x3 x4) := by
  unfold State.modSlice
  repeat' first
    | with_reducible assumption
    | with_reducible apply State.modOp_keeps
    | with_reducible refine Keeps.ofSnd (by assumption) ?_
    | intro _
    | simp only [Keeps.record_iff]
    | split
    | with_reducible fail_if_success skip

theorem State.numberReady_keeps {s0 : State} {x1 : State} (h1 : Keeps s0 x1) :
    Keeps s0 (State.numberReady x1) := by
  unfold State.numberReady
  repeat' first
    | with_reducible assumption
    | with_reducible apply State.modOp_keeps
    | with_reducible refine Keeps.ofSnd (by assumption) ?_
    | with_reducible apply Keeps.foldl
    | with_reducible apply Keeps.foldlFst
    | with_reducible apply Keeps.foldlSnd
    | intro _
    | simp only [Keeps.record_iff]
    | with_reducible fail_if_success skip

theorem State.latchWaits_keeps {s0 : State} {x1 : State} (h1 : Keeps s0 x1) :
    Keeps s0 (State.latchWaits x1) := by
  unfold State.latchWaits
  repeat' first
    | with_reducible assumption
    | with_reducible apply State.modOp_keeps
    | with_reducible refine Keeps.ofSnd (by assumption) ?_
    | with_reducible refine Keeps.ofFst (by assumption) ?_
    | with_reducible apply Keeps.foldl
    | with_reducible apply Keeps.foldlFst
    | with_reducible apply Keeps.foldlSnd
    | intro _
    | simp only [Keeps.record_iff]
    | split
    | with_reducible fail_if_success skip

theorem State.latchBodies_keeps {s0 : State} {x1 : State} (h1 : Keeps s0 x1) :
    Keeps s0 (State.latchBodies x1) := by
  unfold State.latchBodies
  repeat' first
    | with_reducible assumption
    | with_reducible apply State.modOp_keeps
    | with_reducible refine Keeps.ofSnd (by assumption) ?_
    | with_reducible refine Keeps.ofFst (by assumption) ?_
    | with_reducible apply Keeps.foldl
    | with_reducible apply Keeps.foldlFst
    | with_reducible apply Keeps.foldlSnd
    | intro _
    | simp only [Keeps.record_iff]
    | split
    | with_reducible fail_if_success skip

theorem State.applySignal_keeps {s0 : State} {x1 : State} {x2} (h1 : Keeps s0 x1) :
    Keeps s0 (State.applySignal x1 x2) := by
  unfold State.applySignal
  repeat' first
    | with_reducible assumption
    | with_reducible apply State.numberReady_keeps
    | with_reducible apply State.latchBodies_keeps
    | with_reducible apply State.latchWaits_keeps
    | with_reducible apply State.signal_keeps
    | with_reducible refine Keeps.ofSnd (by assumption) ?_
    | simp only [Keeps.record_iff]
    | split
    | with_reducible fail_if_success skip

theorem State.checkWake_keeps {s0 : State} {x1 : State} {x2} (h1 : Keeps s0 x1) :
    Keeps s0 (State.checkWake x1 x2) := by
  unfold State.checkWake
  repeat' first
    | with_reducible assumption
    | with_reducible apply State.setCtx_keeps
    | with_reducible apply State.sendMsix_keeps
    | with_reducible refine Keeps.ofSnd (by assumption) ?_
    | with_reducible refine Keeps.ofFst (by assumption) ?_
    | intro _
    | simp only [Keeps.record_iff]
    | split
    | with_reducible fail_if_success skip

theorem State.ringWrite_keeps {s0 : State} {x1 : State} {x2} {x3} {x4} {x5 : State} (h1 : Keeps s0 x1) (h5 : Keeps s0 x5) :
    Ends s0 x5 (State.ringWrite x1 x2 x3 x4) := by
  unfold State.ringWrite
  repeat' first
    | with_reducible assumption
    | with_reducible apply translate_keeps
    | with_reducible apply writeDevice_keeps
    | with_reducible apply State.hostWrite_keeps
    | with_reducible apply Ends.pure
    | with_reducible apply Ends.throw
    | with_reducible apply Ends.ite
    | with_reducible apply Ends.get_bind
    | with_reducible apply Ends.set_bind
    | with_reducible apply Ends.modify_bind
    | with_reducible apply Ends.set
    | with_reducible apply Ends.changed
    | with_reducible apply Ends.bind
    | with_reducible refine Ends.ofOk (by assumption) ?_
    | with_reducible refine Ends.ofError (by assumption) ?_
    | with_reducible refine Keeps.ofSnd (by assumption) ?_
    | with_reducible refine Keeps.ofFst (by assumption) ?_
    | intro _
    | simp only [Keeps.record_iff]
    | split
    | (rename_i e; nomatch (e : none = some _))
    | (rename_i e; cases (e : some _ = some _))
    | (rename_i e; dsimp only at e)
    | (rename_i e; split at e)
    | with_reducible fail_if_success skip

/-- What an attempt to write a record leaves is a state a step may leave. -/
def RecordTry.Leaves (s : State) : State.RecordTry → Prop
  | .written t => Keeps s t
  | .held _ t => Keeps s t
  | .wait t => Keeps s t
  | .full => True

theorem State.tryRecord_ends {s0 : State} {x1 : State} {x2} {x3} {x4} (h1 : Keeps s0 x1) :
    RecordTry.Leaves s0 (State.tryRecord x1 x2 x3 x4) := by
  unfold State.tryRecord
  dsimp only
  split
  · exact h1
  · split
    · trivial
    · split
      · rename_i e
        exact Keeps.ofFst e (State.acquireTag_keeps h1)
      · rename_i u e1
        have hu := Keeps.ofFst e1 (State.acquireTag_keeps (x2 := x2) h1)
        split
        · rename_i v e2
          exact State.setCtx_keeps (Ends.ofOk e2 (by apply State.ringWrite_keeps <;> exact hu))
        · rename_i e2
          exact Ends.ofError e2 (by apply State.ringWrite_keeps <;> exact hu)
        · rename_i e2
          exact Ends.ofError e2 (by apply State.ringWrite_keeps <;> exact hu)

theorem State.tryRecord_keeps {s0 : State} {x1 : State} {x2} {x3} {x4} {t : State}
    (e : State.tryRecord x1 x2 x3 x4 = .written t) (h1 : Keeps s0 x1) : Keeps s0 t := by
  have h := State.tryRecord_ends (x2 := x2) (x3 := x3) (x4 := x4) h1
  rw [e] at h
  exact h

theorem State.tryRecord_held_keeps {s0 : State} {x1 : State} {x2} {x3} {x4} {va} {t : State}
    (e : State.tryRecord x1 x2 x3 x4 = .held va t) (h1 : Keeps s0 x1) : Keeps s0 t := by
  have h := State.tryRecord_ends (x2 := x2) (x3 := x3) (x4 := x4) h1
  rw [e] at h
  exact h

theorem State.tryRecord_wait_keeps {s0 : State} {x1 : State} {x2} {x3} {x4} {t : State}
    (e : State.tryRecord x1 x2 x3 x4 = .wait t) (h1 : Keeps s0 x1) : Keeps s0 t := by
  have h := State.tryRecord_ends (x2 := x2) (x3 := x3) (x4 := x4) h1
  rw [e] at h
  exact h

theorem State.pool_keeps {s0 : State} {x1 : State} {x2} {x3} (h1 : Keeps s0 x1) :
    Keeps s0 (State.pool x1 x2 x3) := by
  unfold State.pool
  repeat' first
    | with_reducible assumption
    | with_reducible apply State.modEntry_keeps
    | with_reducible apply State.addObj_keeps
    | with_reducible refine Keeps.ofSnd (by assumption) ?_
    | with_reducible refine Keeps.ofFst (by assumption) ?_
    | intro _
    | simp only [Keeps.record_iff]
    | split
    | with_reducible fail_if_success skip

theorem State.poolAll_keeps {s0 : State} {x1 : State} {x2} (h1 : Keeps s0 x1) :
    Keeps s0 (State.poolAll x1 x2) := by
  unfold State.poolAll
  repeat' first
    | with_reducible assumption
    | with_reducible apply State.pool_keeps
    | with_reducible refine Keeps.ofSnd (by assumption) ?_
    | with_reducible apply Keeps.foldl
    | with_reducible apply Keeps.foldlFst
    | with_reducible apply Keeps.foldlSnd
    | intro _
    | simp only [Keeps.record_iff]
    | with_reducible fail_if_success skip

theorem State.freeGens_keeps {s0 : State} {x1 : State} {x2} (h1 : Keeps s0 x1) :
    Keeps s0 (State.freeGens x1 x2) := by
  unfold State.freeGens
  repeat' first
    | with_reducible assumption
    | with_reducible refine Keeps.ofSnd (by assumption) ?_
    | with_reducible refine Keeps.ofFst (by assumption) ?_
    | intro _
    | simp only [Keeps.record_iff]
    | split
    | with_reducible fail_if_success skip

theorem State.unpin_keeps {s0 : State} {x1 : State} {x2} (h1 : Keeps s0 x1) :
    Keeps s0 (State.unpin x1 x2) := by
  unfold State.unpin
  repeat' first
    | with_reducible assumption
    | with_reducible apply State.freeGens_keeps
    | with_reducible refine Keeps.ofSnd (by assumption) ?_
    | with_reducible refine Keeps.ofFst (by assumption) ?_
    | intro _
    | simp only [Keeps.record_iff]
    | split
    | with_reducible fail_if_success skip

theorem State.enterHeld_keeps {s0 : State} {x1 : State} {x2} {x3} (h1 : Keeps s0 x1) :
    Keeps s0 (State.enterHeld x1 x2 x3) := by
  unfold State.enterHeld
  repeat' first
    | with_reducible assumption
    | with_reducible apply State.poolAll_keeps
    | with_reducible apply State.setCtx_keeps
    | with_reducible apply State.raiseAs_keeps
    | with_reducible refine Keeps.ofSnd (by assumption) ?_
    | with_reducible refine Keeps.ofFst (by assumption) ?_
    | simp only [Keeps.record_iff]
    | split
    | with_reducible fail_if_success skip

theorem State.endRelease_keeps {s0 : State} {x1 : State} {x2} (h1 : Keeps s0 x1) :
    Keeps s0 (State.endRelease x1 x2) := by
  unfold State.endRelease
  repeat' first
    | with_reducible assumption
    | with_reducible apply State.setCtx_keeps
    | with_reducible refine Keeps.ofSnd (by assumption) ?_
    | intro _
    | simp only [Keeps.record_iff]
    | split
    | with_reducible fail_if_success skip

theorem State.issueN_keeps {s0 : State} {x1 : State} {x2} {x3} (h1 : Keeps s0 x1) :
    Keeps s0 (State.issueN x1 x2 x3) := by
  revert h1
  fun_induction State.issueN x1 x2 x3
  all_goals (try dsimp +zetaDelta only at *)
  all_goals (try intro h1)
  all_goals
    repeat' first
    | with_reducible assumption
    | with_reducible apply State.poolAll_keeps
    | with_reducible apply State.endRelease_keeps
    | with_reducible apply State.modEntry_keeps
    | with_reducible apply State.applySignal_keeps
    | with_reducible refine State.tryRecord_keeps (by assumption) ?_
    | with_reducible refine State.tryRecord_held_keeps (by assumption) ?_
    | with_reducible refine State.tryRecord_wait_keeps (by assumption) ?_
    | with_reducible apply State.setCtx_keeps
    | with_reducible apply State.checkWake_keeps
    | with_reducible apply State.addObj_keeps
    | with_reducible apply State.enterHeld_keeps
    | with_reducible refine Keeps.ofSnd (by assumption) ?_
    | with_reducible refine Keeps.ofFst (by assumption) ?_
    | with_reducible refine (by assumption : ∀ {x : State}, Keeps _ x → Ends _ x _) ?_
    | with_reducible refine (by assumption : ∀ a, ∀ {x : State}, Keeps _ x → Ends _ x _) _ ?_
    | with_reducible refine (by assumption : ∀ a b, ∀ {x : State}, Keeps _ x → Ends _ x _) _ _ ?_
    | with_reducible refine (by assumption : _ → _) ?_
    | with_reducible refine (by assumption : ∀ _, _ → _) _ ?_
    | with_reducible refine (by assumption : ∀ _ _, _ → _) _ _ ?_
    | intro _
    | simp only [Keeps.record_iff]
    | split
    | with_reducible fail_if_success skip
    | dsimp +zetaDelta only

theorem State.repool_keeps {s0 : State} {x1 : State} (h1 : Keeps s0 x1) :
    Keeps s0 (State.repool x1) := by
  unfold State.repool
  repeat' first
    | with_reducible assumption
    | with_reducible apply State.pool_keeps
    | with_reducible refine Keeps.ofSnd (by assumption) ?_
    | with_reducible apply Keeps.foldl
    | with_reducible apply Keeps.foldlFst
    | with_reducible apply Keeps.foldlSnd
    | intro _
    | simp only [Keeps.record_iff]
    | split
    | with_reducible fail_if_success skip

theorem State.issue_keeps {s0 : State} {x1 : State} {x2} (h1 : Keeps s0 x1) :
    Keeps s0 (State.issue x1 x2) := by
  unfold State.issue
  repeat' first
    | with_reducible assumption
    | with_reducible apply State.numberReady_keeps
    | with_reducible apply State.repool_keeps
    | with_reducible apply State.issueN_keeps
    | with_reducible refine Keeps.ofSnd (by assumption) ?_
    | with_reducible refine Keeps.ofFst (by assumption) ?_
    | simp only [Keeps.record_iff]
    | with_reducible fail_if_success skip

theorem State.issueAll_keeps {s0 : State} {x1 : State} (h1 : Keeps s0 x1) :
    Keeps s0 (State.issueAll x1) := by
  unfold State.issueAll
  repeat' first
    | with_reducible assumption
    | with_reducible apply State.issue_keeps
    | with_reducible refine Keeps.ofSnd (by assumption) ?_
    | with_reducible refine Keeps.ofFst (by assumption) ?_
    | with_reducible apply Keeps.foldl
    | with_reducible apply Keeps.foldlFst
    | with_reducible apply Keeps.foldlSnd
    | intro _
    | simp only [Keeps.record_iff]
    | with_reducible fail_if_success skip

theorem State.finishQuire_keeps {s0 : State} {x1 : State} {x2} {x3} (h1 : Keeps s0 x1) :
    Keeps s0 (State.finishQuire x1 x2 x3) := by
  unfold State.finishQuire
  repeat' first
    | with_reducible assumption
    | with_reducible apply State.send_keeps
    | with_reducible apply State.modEntry_keeps
    | with_reducible apply State.issue_keeps
    | with_reducible apply State.unpin_keeps
    | with_reducible refine Keeps.ofSnd (by assumption) ?_
    | with_reducible refine Keeps.ofFst (by assumption) ?_
    | with_reducible apply Keeps.foldl
    | with_reducible apply Keeps.foldlFst
    | with_reducible apply Keeps.foldlSnd
    | intro _
    | simp only [Keeps.record_iff]
    | split
    | with_reducible fail_if_success skip

theorem State.wakeOps_keeps {s0 : State} {x1 : State} (h1 : Keeps s0 x1) :
    Keeps s0 (State.wakeOps x1) := by
  unfold State.wakeOps
  repeat' first
    | with_reducible assumption
    | with_reducible apply State.numberReady_keeps
    | with_reducible apply State.latchWaits_keeps
    | with_reducible refine Keeps.ofSnd (by assumption) ?_
    | with_reducible refine Keeps.ofFst (by assumption) ?_
    | simp only [Keeps.record_iff]
    | with_reducible fail_if_success skip

theorem State.settleQuire_keeps {s0 : State} {x1 : State} {x2} {x3} (h1 : Keeps s0 x1) :
    Keeps s0 (State.settleQuire x1 x2 x3) := by
  unfold State.settleQuire
  repeat' first
    | with_reducible assumption
    | with_reducible apply State.wakeOps_keeps
    | with_reducible apply State.finishQuire_keeps
    | with_reducible apply State.latchWaits_keeps
    | with_reducible apply State.modQuire_keeps
    | with_reducible refine Keeps.ofSnd (by assumption) ?_
    | simp only [Keeps.record_iff]
    | with_reducible fail_if_success skip

theorem State.noteUnrecovered_keeps {s0 : State} {x1 : State} {x2} {x3} (h1 : Keeps s0 x1) :
    Keeps s0 (State.noteUnrecovered x1 x2 x3) := by
  unfold State.noteUnrecovered
  repeat' first
    | with_reducible assumption
    | with_reducible apply State.countRaise_keeps
    | with_reducible refine Keeps.ofSnd (by assumption) ?_
    | simp only [Keeps.record_iff]
    | split
    | with_reducible fail_if_success skip

theorem State.notePoison_keeps {s0 : State} {x1 : State} {x2} {x3} (h1 : Keeps s0 x1) :
    Keeps s0 (State.notePoison x1 x2 x3) := by
  unfold State.notePoison
  repeat' first
    | with_reducible assumption
    | with_reducible apply State.consumePoison_keeps
    | with_reducible refine Keeps.ofSnd (by assumption) ?_
    | intro _
    | simp only [Keeps.record_iff]
    | split
    | with_reducible fail_if_success skip

theorem State.endOp_keeps {s0 : State} {x1 : State} {x2} {x3} {x4} {x5} {x6} (h1 : Keeps s0 x1) :
    Keeps s0 (State.endOp x1 x2 x3 x4 x5 x6) := by
  unfold State.endOp
  repeat' first
    | with_reducible assumption
    | with_reducible apply State.notePoison_keeps
    | with_reducible apply State.dropRequests_keeps
    | with_reducible apply State.modOp_keeps
    | with_reducible apply State.noteUnrecovered_keeps
    | with_reducible apply State.bindPins_keeps
    | with_reducible apply State.settleQuire_keeps
    | with_reducible apply State.leftBusy_keeps
    | with_reducible refine Keeps.ofSnd (by assumption) ?_
    | with_reducible refine Keeps.ofFst (by assumption) ?_
    | intro _
    | simp only [Keeps.record_iff]
    | split
    | with_reducible fail_if_success skip

theorem State.failOp_keeps {s0 : State} {x1 : State} {x2} {x3} {x4} (h1 : Keeps s0 x1) :
    Keeps s0 (State.failOp x1 x2 x3 x4) := by
  unfold State.failOp
  repeat' first
    | with_reducible assumption
    | with_reducible apply State.endOp_keeps
    | with_reducible refine Keeps.ofSnd (by assumption) ?_
    | simp only [Keeps.record_iff]
    | with_reducible fail_if_success skip

theorem State.dispatched_keeps {s0 : State} {x1 : State} {x2} {x3} (h1 : Keeps s0 x1) :
    Keeps s0 (State.dispatched x1 x2 x3) := by
  unfold State.dispatched
  repeat' first
    | with_reducible assumption
    | with_reducible apply State.wakeOps_keeps
    | with_reducible apply State.modQuire_keeps
    | with_reducible apply State.setOp_keeps
    | with_reducible refine Keeps.ofSnd (by assumption) ?_
    | intro _
    | simp only [Keeps.record_iff]
    | with_reducible fail_if_success skip

theorem State.dispatch_keeps {s0 : State} {x1 : State} {x2} {x3} {x4 : Op → Req → M Op} (h1 : Keeps s0 x1)
    (hm : ∀ y r u, Keeps s0 u → Ends s0 u (x4 y r)) : Keeps s0 (State.dispatch x1 x2 x3 x4) := by
  unfold State.dispatch
  repeat' first
    | with_reducible assumption
    | with_reducible apply State.numberReady_keeps
    | with_reducible apply State.modQuire_keeps
    | with_reducible apply State.dispatched_keeps
    | with_reducible apply State.failOp_keeps
    | with_reducible apply State.runM_keeps
    | with_reducible apply State.setOp_keeps
    | with_reducible apply State.acquireTag_keeps
    | with_reducible apply hm
    | with_reducible refine Keeps.ofFst (by assumption) ?_
    | intro _
    | simp only
    | split

theorem State.settleSlices_keeps {s0 : State} {x1 : State} {x2} (h1 : Keeps s0 x1) :
    Keeps s0 (State.settleSlices x1 x2) := by
  unfold State.settleSlices
  repeat' first
    | with_reducible assumption
    | with_reducible apply State.modOp_keeps
    | with_reducible refine Keeps.ofSnd (by assumption) ?_
    | with_reducible refine Keeps.ofFst (by assumption) ?_
    | intro _
    | simp only [Keeps.record_iff]
    | split
    | with_reducible fail_if_success skip

end Sys2Proof.Machine
end

