-- ==== Sys2Proof/Laws/KeepsQueues.lean ====
section
/-! SUPPORT. What the operations of Machine/Queues.lean keep. -/

set_option linter.all false

namespace Sys2Proof.Machine

theorem State.doorbell_keeps {s0 : State} {x1 : State} {x2} {x3} {x4 : State → State} (h1 : Keeps s0 x1) (f4 : ∀ a0, Keeps s0 a0 → Keeps s0 (x4 a0)) :
    Keeps s0 (State.doorbell x1 x2 x3 x4) := by
  unfold State.doorbell
  repeat' first
    | with_reducible assumption
    | with_reducible apply State.addObj_keeps
    | with_reducible apply f4
    | with_reducible apply Ends.pure
    | with_reducible apply Ends.ite
    | with_reducible apply Ends.get_bind
    | with_reducible apply Ends.set_bind
    | with_reducible apply Ends.modify_bind
    | with_reducible apply Ends.set
    | with_reducible apply Ends.changed
    | with_reducible apply Ends.bind
    | with_reducible refine Keeps.ofSnd (by assumption) ?_
    | intro _
    | simp only [Keeps.record_iff]
    | split
    | with_reducible fail_if_success skip

theorem State.ringDoorbell_keeps {s0 : State} {x1 : State} {x2} {x3} (h1 : Keeps s0 x1) :
    Keeps s0 (State.ringDoorbell x1 x2 x3) := by
  unfold State.ringDoorbell
  repeat' first
    | with_reducible assumption
    | with_reducible apply State.addObj_keeps
    | with_reducible apply State.countRaise_keeps
    | with_reducible apply State.setCtx_keeps
    | with_reducible refine Keeps.ofSnd (by assumption) ?_
    | with_reducible refine Keeps.ofFst (by assumption) ?_
    | simp only [Keeps.record_iff]
    | split
    | with_reducible fail_if_success skip

theorem State.advanceConsumed_keeps {s0 : State} {x1 : State} {x2} {x3} (h1 : Keeps s0 x1) :
    Keeps s0 (State.advanceConsumed x1 x2 x3) := by
  unfold State.advanceConsumed
  repeat' first
    | with_reducible assumption
    | with_reducible apply State.issue_keeps
    | with_reducible apply State.setCtx_keeps
    | with_reducible refine Keeps.ofSnd (by assumption) ?_
    | simp only [Keeps.record_iff]
    | split
    | with_reducible fail_if_success skip

theorem State.releaseHeld_keeps {s0 : State} {x1 : State} {x2} {x3} (h1 : Keeps s0 x1) :
    Keeps s0 (State.releaseHeld x1 x2 x3) := by
  unfold State.releaseHeld
  repeat' first
    | with_reducible assumption
    | with_reducible apply State.issue_keeps
    | with_reducible apply State.setCtx_keeps
    | with_reducible refine Keeps.ofSnd (by assumption) ?_
    | simp only [Keeps.record_iff]
    | split
    | with_reducible fail_if_success skip

theorem State.take_keeps {s0 : State} {x1 : State} {x2} {x3} (h1 : Keeps s0 x1) :
    Keeps s0 (State.take x1 x2 x3) := by
  unfold State.take
  repeat' first
    | with_reducible assumption
    | with_reducible apply State.setCtx_keeps
    | with_reducible refine Keeps.ofSnd (by assumption) ?_
    | with_reducible refine Keeps.ofFst (by assumption) ?_
    | simp only [Keeps.record_iff]
    | with_reducible fail_if_success skip

theorem State.takeDone_keeps {s0 : State} {x1 : State} {x2} {x3} {x4} {x5} {x6} (h1 : Keeps s0 x1) :
    Keeps s0 (State.takeDone x1 x2 x3 x4 x5 x6) := by
  unfold State.takeDone
  repeat' first
    | with_reducible assumption
    | with_reducible apply State.issue_keeps
    | with_reducible apply State.take_keeps
    | with_reducible refine Keeps.ofSnd (by assumption) ?_
    | with_reducible refine Keeps.ofFst (by assumption) ?_
    | simp only [Keeps.record_iff]
    | with_reducible fail_if_success skip

theorem State.withEntry_keeps {s0 : State} {x1 : State} {x2} {x3} {x4 : Nat → State → State} (h1 : Keeps s0 x1) (f4 : ∀ a0 a1, Keeps s0 a1 → Keeps s0 (x4 a0 a1)) :
    Keeps s0 (State.withEntry x1 x2 x3 x4) := by
  unfold State.withEntry
  repeat' first
    | with_reducible assumption
    | with_reducible apply State.acquireTag_keeps
    | with_reducible apply State.runM_keeps
    | with_reducible apply readNum_keeps
    | with_reducible apply State.takeDone_keeps
    | with_reducible apply f4
    | with_reducible apply Ends.pure
    | with_reducible apply Ends.ite
    | with_reducible apply Ends.get_bind
    | with_reducible apply Ends.set_bind
    | with_reducible apply Ends.modify_bind
    | with_reducible apply Ends.set
    | with_reducible apply Ends.changed
    | with_reducible apply Ends.bind
    | with_reducible apply Ends.tryCatch
    | with_reducible refine Ends.ofOk (by assumption) ?_
    | with_reducible refine Ends.ofError (by assumption) ?_
    | with_reducible refine Keeps.ofSnd (by assumption) ?_
    | with_reducible refine Keeps.ofFst (by assumption) ?_
    | intro _
    | simp only [Keeps.record_iff]
    | split
    | with_reducible fail_if_success skip

theorem State.startQuire_keeps {s0 : State} {x1 : State} {x2} {x3} {x4} {x5} {x6} {x7} (h1 : Keeps s0 x1) :
    Keeps s0 (State.startQuire x1 x2 x3 x4 x5 x6 x7) := by
  unfold State.startQuire
  repeat' first
    | with_reducible assumption
    | with_reducible apply State.unpin_keeps
    | with_reducible apply State.takeDone_keeps
    | with_reducible apply State.take_keeps
    | with_reducible refine Keeps.ofSnd (by assumption) ?_
    | with_reducible refine Keeps.ofFst (by assumption) ?_
    | intro _
    | simp only [Keeps.record_iff]
    | split
    | with_reducible fail_if_success skip

theorem State.submitEntry_keeps {s0 : State} {x1} {x2} {x3 : State} (h3 : Keeps s0 x3) :
    Keeps s0 (State.submitEntry x1 x2 x3) := by
  unfold State.submitEntry
  repeat' first
    | with_reducible assumption
    | with_reducible apply State.runM_keeps
    | with_reducible apply readNum_keeps
    | with_reducible apply State.startQuire_keeps
    | with_reducible apply State.takeDone_keeps
    | with_reducible apply Ends.pure
    | with_reducible apply Ends.ite
    | with_reducible apply Ends.get_bind
    | with_reducible apply Ends.set_bind
    | with_reducible apply Ends.modify_bind
    | with_reducible apply Ends.set
    | with_reducible apply Ends.changed
    | with_reducible apply Ends.bind
    | with_reducible apply Ends.tryCatch
    | with_reducible refine Ends.ofOk (by assumption) ?_
    | with_reducible refine Ends.ofError (by assumption) ?_
    | with_reducible refine Keeps.ofSnd (by assumption) ?_
    | intro _
    | simp only [Keeps.record_iff]
    | with_reducible fail_if_success skip

theorem State.readRecord_keeps {s0 : State} {x1} {x2} {x3} {x4 : State} (h4 : Keeps s0 x4) :
    Ends s0 x4 (State.readRecord x1 x2 x3) := by
  unfold State.readRecord
  repeat' first
    | with_reducible assumption
    | with_reducible apply readNum_keeps
    | with_reducible apply Ends.pure
    | with_reducible apply Ends.throw
    | with_reducible apply Ends.ite
    | with_reducible apply Ends.get_bind
    | with_reducible apply Ends.set_bind
    | with_reducible apply Ends.modify_bind
    | with_reducible apply Ends.set
    | with_reducible apply Ends.changed
    | with_reducible apply Ends.bind
    | with_reducible refine Ends.ofOk (by assumption) ?_
    | with_reducible refine Ends.ofError (by assumption) ?_
    | with_reducible refine Keeps.ofSnd (by assumption) ?_
    | with_reducible refine Keeps.ofFst (by assumption) ?_
    | intro _
    | simp only [Keeps.record_iff]
    | split
    | (rename_i e; nomatch (e : none = some _))
    | (rename_i e; cases (e : some _ = some _))
    | (rename_i e; dsimp only at e)
    | (rename_i e; split at e)
    | with_reducible fail_if_success skip

theorem State.readRecords_keeps {s0 : State} {x1} {x2} {x3} {x4} {x5 : State} (h5 : Keeps s0 x5) :
    Ends s0 x5 (State.readRecords x1 x2 x3 x4) := by
  revert x5 h5
  fun_induction State.readRecords x1 x2 x3 x4
  all_goals (try dsimp +zetaDelta only at *)
  all_goals (try intro x5 h5)
  all_goals
    repeat' first
    | with_reducible assumption
    | with_reducible apply State.readRecord_keeps
    | with_reducible apply Ends.pure
    | with_reducible apply Ends.ite
    | with_reducible apply Ends.get_bind
    | with_reducible apply Ends.set_bind
    | with_reducible apply Ends.modify_bind
    | with_reducible apply Ends.set
    | with_reducible apply Ends.changed
    | with_reducible apply Ends.bind
    | with_reducible refine Ends.ofOk (by assumption) ?_
    | with_reducible refine Ends.ofError (by assumption) ?_
    | with_reducible refine Keeps.ofSnd (by assumption) ?_
    | with_reducible refine Keeps.ofFst (by assumption) ?_
    | with_reducible refine (by assumption : ∀ {x : State}, Keeps _ x → Ends _ x _) ?_
    | with_reducible refine (by assumption : ∀ a, ∀ {x : State}, Keeps _ x → Ends _ x _) _ ?_
    | with_reducible refine (by assumption : ∀ a b, ∀ {x : State}, Keeps _ x → Ends _ x _) _ _ ?_
    | with_reducible refine (by assumption : _ → _) ?_
    | with_reducible refine (by assumption : ∀ _, _ → _) _ ?_
    | with_reducible refine (by assumption : ∀ _ _, _ → _) _ _ ?_
    | intro _
    | simp only [Keeps.record_iff]
    | (rename_i e; nomatch (e : none = some _))
    | (rename_i e; cases (e : some _ = some _))
    | (rename_i e; dsimp only at e)
    | (rename_i e; split at e)
    | with_reducible fail_if_success skip
    | dsimp +zetaDelta only

theorem State.bindEntry_keeps {s0 : State} {x1} {x2} {x3 : State} (h3 : Keeps s0 x3) :
    Keeps s0 (State.bindEntry x1 x2 x3) := by
  unfold State.bindEntry
  repeat' first
    | with_reducible assumption
    | with_reducible apply State.runM_keeps
    | with_reducible apply readNum_keeps
    | with_reducible apply State.takeDone_keeps
    | with_reducible apply State.readRecords_keeps
    | with_reducible apply State.write_keeps
    | with_reducible apply Ends.pure
    | with_reducible apply Ends.ite
    | with_reducible apply Ends.get_bind
    | with_reducible apply Ends.set_bind
    | with_reducible apply Ends.modify_bind
    | with_reducible apply Ends.set
    | with_reducible apply Ends.changed
    | with_reducible apply Ends.bind
    | with_reducible apply Ends.tryCatch
    | with_reducible refine Ends.ofOk (by assumption) ?_
    | with_reducible refine Ends.ofError (by assumption) ?_
    | with_reducible refine Keeps.ofSnd (by assumption) ?_
    | with_reducible refine Keeps.ofFst (by assumption) ?_
    | intro _
    | simp only [Keeps.record_iff]
    | split
    | with_reducible fail_if_success skip

theorem State.patchEntry_keeps {s0 : State} {x1} {x2} {x3 : State} (h3 : Keeps s0 x3) :
    Keeps s0 (State.patchEntry x1 x2 x3) := by
  unfold State.patchEntry
  repeat' first
    | with_reducible assumption
    | with_reducible apply State.takeDone_keeps
    | with_reducible apply State.runM_keeps
    | with_reducible apply readVA_keeps
    | with_reducible apply State.readRecords_keeps
    | with_reducible apply State.write_keeps
    | with_reducible apply State.freeGens_keeps
    | with_reducible apply Ends.pure
    | with_reducible apply Ends.ite
    | with_reducible apply Ends.get_bind
    | with_reducible apply Ends.set_bind
    | with_reducible apply Ends.modify_bind
    | with_reducible apply Ends.set
    | with_reducible apply Ends.changed
    | with_reducible apply Ends.bind
    | with_reducible apply Ends.tryCatch
    | with_reducible refine Ends.ofOk (by assumption) ?_
    | with_reducible refine Ends.ofError (by assumption) ?_
    | with_reducible refine Keeps.ofSnd (by assumption) ?_
    | with_reducible refine Keeps.ofFst (by assumption) ?_
    | intro _
    | simp only [Keeps.record_iff]
    | split
    | with_reducible fail_if_success skip

theorem State.launchEntry_keeps {s0 : State} {x1} {x2} {x3 : State} (h3 : Keeps s0 x3) :
    Keeps s0 (State.launchEntry x1 x2 x3) := by
  unfold State.launchEntry
  repeat' first
    | with_reducible assumption
    | with_reducible apply State.takeDone_keeps
    | with_reducible apply State.runM_keeps
    | with_reducible apply State.readRecord_keeps
    | with_reducible apply State.startQuire_keeps
    | with_reducible apply Ends.pure
    | with_reducible apply Ends.ite
    | with_reducible apply Ends.get_bind
    | with_reducible apply Ends.set_bind
    | with_reducible apply Ends.modify_bind
    | with_reducible apply Ends.set
    | with_reducible apply Ends.changed
    | with_reducible apply Ends.bind
    | with_reducible apply Ends.tryCatch
    | with_reducible refine Ends.ofOk (by assumption) ?_
    | with_reducible refine Ends.ofError (by assumption) ?_
    | with_reducible refine Keeps.ofSnd (by assumption) ?_
    | with_reducible refine Keeps.ofFst (by assumption) ?_
    | intro _
    | simp only [Keeps.record_iff]
    | split
    | with_reducible fail_if_success skip

theorem State.unbindEntry_keeps {s0 : State} {x1} {x2} {x3 : State} (h3 : Keeps s0 x3) :
    Keeps s0 (State.unbindEntry x1 x2 x3) := by
  unfold State.unbindEntry
  repeat' first
    | with_reducible assumption
    | with_reducible apply State.takeDone_keeps
    | with_reducible apply State.freeGens_keeps
    | with_reducible refine Keeps.ofSnd (by assumption) ?_
    | with_reducible refine Keeps.ofFst (by assumption) ?_
    | intro _
    | simp only [Keeps.record_iff]
    | split
    | with_reducible fail_if_success skip

theorem State.readOp_keeps {s0 : State} {x1} {x2} {x3} {x4 : State} (h4 : Keeps s0 x4) :
    Ends s0 x4 (State.readOp x1 x2 x3) := by
  unfold State.readOp
  repeat' first
    | with_reducible assumption
    | with_reducible apply State.readRecord_keeps
    | with_reducible apply State.readRecords_keeps
    | with_reducible apply Ends.pure
    | with_reducible apply Ends.ite
    | with_reducible apply Ends.get_bind
    | with_reducible apply Ends.set_bind
    | with_reducible apply Ends.modify_bind
    | with_reducible apply Ends.set
    | with_reducible apply Ends.changed
    | with_reducible apply Ends.bind
    | with_reducible refine Ends.ofOk (by assumption) ?_
    | with_reducible refine Ends.ofError (by assumption) ?_
    | with_reducible refine Keeps.ofSnd (by assumption) ?_
    | with_reducible refine Keeps.ofFst (by assumption) ?_
    | intro _
    | simp only [Keeps.record_iff]
    | split
    | (rename_i e; nomatch (e : none = some _))
    | (rename_i e; cases (e : some _ = some _))
    | (rename_i e; dsimp only at e)
    | (rename_i e; split at e)
    | with_reducible fail_if_success skip

theorem State.readChunk_keeps {s0 : State} {x1} {x2} {x3} {x4} {x5 : State} (h5 : Keeps s0 x5) :
    Ends s0 x5 (State.readChunk x1 x2 x3 x4) := by
  revert x5 h5
  fun_induction State.readChunk x1 x2 x3 x4
  all_goals (try dsimp +zetaDelta only at *)
  all_goals (try intro x5 h5)
  all_goals
    repeat' first
    | with_reducible assumption
    | with_reducible apply State.readOp_keeps
    | with_reducible apply Ends.pure
    | with_reducible apply Ends.throw
    | with_reducible apply Ends.ite
    | with_reducible apply Ends.get_bind
    | with_reducible apply Ends.set_bind
    | with_reducible apply Ends.modify_bind
    | with_reducible apply Ends.set
    | with_reducible apply Ends.changed
    | with_reducible apply Ends.bind
    | with_reducible apply Ends.tryCatch
    | with_reducible refine Ends.ofOk (by assumption) ?_
    | with_reducible refine Ends.ofError (by assumption) ?_
    | with_reducible refine Keeps.ofSnd (by assumption) ?_
    | with_reducible refine Keeps.ofFst (by assumption) ?_
    | with_reducible refine (by assumption : ∀ {x : State}, Keeps _ x → Ends _ x _) ?_
    | with_reducible refine (by assumption : ∀ a, ∀ {x : State}, Keeps _ x → Ends _ x _) _ ?_
    | with_reducible refine (by assumption : ∀ a b, ∀ {x : State}, Keeps _ x → Ends _ x _) _ _ ?_
    | with_reducible refine (by assumption : _ → _) ?_
    | with_reducible refine (by assumption : ∀ _, _ → _) _ ?_
    | with_reducible refine (by assumption : ∀ _ _, _ → _) _ _ ?_
    | intro _
    | simp only [Keeps.record_iff]
    | split
    | (rename_i e; nomatch (e : none = some _))
    | (rename_i e; cases (e : some _ = some _))
    | (rename_i e; dsimp only at e)
    | (rename_i e; split at e)
    | with_reducible fail_if_success skip
    | dsimp +zetaDelta only

theorem State.chunkPoison_keeps {s0 : State} {x1 : State} {x2} {x3} (h1 : Keeps s0 x1) :
    Keeps s0 (State.chunkPoison x1 x2 x3) := by
  unfold State.chunkPoison
  repeat' first
    | with_reducible assumption
    | with_reducible apply State.consumePoison_keeps
    | with_reducible refine Keeps.ofSnd (by assumption) ?_
    | intro _
    | simp only [Keeps.record_iff]
    | split
    | with_reducible fail_if_success skip

theorem State.rereadOp_keeps {s0 : State} {x1 : State} {x2} {x3} {x4} {x5} (h1 : Keeps s0 x1) :
    Keeps s0 (State.rereadOp x1 x2 x3 x4 x5) := by
  unfold State.rereadOp
  repeat' first
    | with_reducible assumption
    | with_reducible apply State.failOp_keeps
    | with_reducible apply State.runM_keeps
    | with_reducible apply State.readRecords_keeps
    | with_reducible apply State.modOp_keeps
    | with_reducible apply State.modQuire_keeps
    | with_reducible apply Ends.pure
    | with_reducible apply Ends.ite
    | with_reducible apply Ends.get_bind
    | with_reducible apply Ends.set_bind
    | with_reducible apply Ends.modify_bind
    | with_reducible apply Ends.set
    | with_reducible apply Ends.changed
    | with_reducible apply Ends.bind
    | with_reducible refine Ends.ofOk (by assumption) ?_
    | with_reducible refine Ends.ofError (by assumption) ?_
    | with_reducible refine Keeps.ofSnd (by assumption) ?_
    | with_reducible refine Keeps.ofFst (by assumption) ?_
    | intro _
    | simp only [Keeps.record_iff]
    | split
    | with_reducible fail_if_success skip

theorem State.chunkRead_keeps {s0 : State} {x1 : State} {x2} {x3} {x4} (h1 : Keeps s0 x1) :
    Keeps s0 (State.chunkRead x1 x2 x3 x4) := by
  unfold State.chunkRead
  repeat' first
    | with_reducible assumption
    | with_reducible apply State.rereadOp_keeps
    | with_reducible apply State.acquireTag_keeps
    | with_reducible apply State.runM_keeps
    | with_reducible apply State.readChunk_keeps
    | with_reducible apply State.settleQuire_keeps
    | with_reducible apply State.modQuire_keeps
    | with_reducible apply State.chunkPoison_keeps
    | with_reducible apply Ends.pure
    | with_reducible apply Ends.ite
    | with_reducible apply Ends.get_bind
    | with_reducible apply Ends.set_bind
    | with_reducible apply Ends.modify_bind
    | with_reducible apply Ends.set
    | with_reducible apply Ends.changed
    | with_reducible apply Ends.bind
    | with_reducible apply Ends.tryCatch
    | with_reducible refine Ends.ofOk (by assumption) ?_
    | with_reducible refine Ends.ofError (by assumption) ?_
    | with_reducible refine Keeps.ofSnd (by assumption) ?_
    | with_reducible refine Keeps.ofFst (by assumption) ?_
    | intro _
    | simp only [Keeps.record_iff]
    | split
    | with_reducible fail_if_success skip

theorem State.barrierOp_keeps {s0 : State} {x1 : State} {x2} (h1 : Keeps s0 x1) :
    Keeps s0 (State.barrierOp x1 x2) := by
  unfold State.barrierOp
  repeat' first
    | with_reducible assumption
    | with_reducible apply State.dispatch_keeps
    | with_reducible apply failWith_keeps
    | with_reducible apply State.settleQuire_keeps
    | with_reducible apply State.modOp_keeps
    | with_reducible apply State.endOp_keeps
    | with_reducible apply Ends.pure
    | with_reducible apply Ends.ite
    | with_reducible apply Ends.get_bind
    | with_reducible apply Ends.set_bind
    | with_reducible apply Ends.modify_bind
    | with_reducible apply Ends.set
    | with_reducible apply Ends.changed
    | with_reducible apply Ends.bind
    | with_reducible apply Ends.tryCatch
    | with_reducible refine Ends.ofOk (by assumption) ?_
    | with_reducible refine Ends.ofError (by assumption) ?_
    | with_reducible refine Keeps.ofSnd (by assumption) ?_
    | with_reducible refine Keeps.ofFst (by assumption) ?_
    | intro _
    | simp only [Keeps.record_iff]
    | split
    | with_reducible fail_if_success skip

theorem State.endDispatched_keeps {s0 : State} {x1 : State} {x2} {x3} (h1 : Keeps s0 x1) :
    Keeps s0 (State.endDispatched x1 x2 x3) := by
  unfold State.endDispatched
  repeat' first
    | with_reducible assumption
    | with_reducible apply State.endOp_keeps
    | with_reducible refine Keeps.ofSnd (by assumption) ?_
    | with_reducible refine Keeps.ofFst (by assumption) ?_
    | intro _
    | simp only [Keeps.record_iff]
    | split
    | with_reducible fail_if_success skip

theorem State.nopOp_keeps {s0 : State} {x1 : State} {x2} (h1 : Keeps s0 x1) :
    Keeps s0 (State.nopOp x1 x2) := by
  unfold State.nopOp
  repeat' first
    | with_reducible assumption
    | with_reducible apply State.endDispatched_keeps
    | with_reducible apply State.dispatch_keeps
    | with_reducible apply failWith_keeps
    | with_reducible apply Ends.pure
    | with_reducible apply Ends.ite
    | with_reducible apply Ends.get_bind
    | with_reducible apply Ends.set_bind
    | with_reducible apply Ends.modify_bind
    | with_reducible apply Ends.set
    | with_reducible apply Ends.changed
    | with_reducible apply Ends.bind
    | with_reducible refine Ends.ofOk (by assumption) ?_
    | with_reducible refine Ends.ofError (by assumption) ?_
    | with_reducible refine Keeps.ofSnd (by assumption) ?_
    | intro _
    | simp only [Keeps.record_iff]
    | split
    | with_reducible fail_if_success skip

theorem State.fenceWaitOp_keeps {s0 : State} {x1 : State} {x2} (h1 : Keeps s0 x1) :
    Keeps s0 (State.fenceWaitOp x1 x2) := by
  unfold State.fenceWaitOp
  repeat' first
    | with_reducible assumption
    | with_reducible apply State.dispatch_keeps
    | with_reducible apply failWith_keeps
    | with_reducible apply State.latchBodies_keeps
    | with_reducible apply State.endOp_keeps
    | with_reducible apply Ends.pure
    | with_reducible apply Ends.ite
    | with_reducible apply Ends.get_bind
    | with_reducible apply Ends.set_bind
    | with_reducible apply Ends.modify_bind
    | with_reducible apply Ends.set
    | with_reducible apply Ends.changed
    | with_reducible apply Ends.bind
    | with_reducible refine Ends.ofOk (by assumption) ?_
    | with_reducible refine Ends.ofError (by assumption) ?_
    | with_reducible refine Keeps.ofSnd (by assumption) ?_
    | with_reducible refine Keeps.ofFst (by assumption) ?_
    | intro _
    | simp only [Keeps.record_iff]
    | split
    | with_reducible fail_if_success skip

theorem State.fenceSignalOp_keeps {s0 : State} {x1 : State} {x2} (h1 : Keeps s0 x1) :
    Keeps s0 (State.fenceSignalOp x1 x2) := by
  unfold State.fenceSignalOp
  repeat' first
    | with_reducible assumption
    | with_reducible apply State.endDispatched_keeps
    | with_reducible apply State.dispatch_keeps
    | with_reducible apply failWith_keeps
    | with_reducible apply State.applySignal_keeps
    | with_reducible apply Ends.pure
    | with_reducible apply Ends.ite
    | with_reducible apply Ends.get_bind
    | with_reducible apply Ends.set_bind
    | with_reducible apply Ends.modify_bind
    | with_reducible apply Ends.set
    | with_reducible apply Ends.changed
    | with_reducible apply Ends.bind
    | with_reducible refine Ends.ofOk (by assumption) ?_
    | with_reducible refine Ends.ofError (by assumption) ?_
    | with_reducible refine Keeps.ofSnd (by assumption) ?_
    | with_reducible refine Keeps.ofFst (by assumption) ?_
    | with_reducible apply Keeps.foldl
    | with_reducible apply Keeps.foldlFst
    | with_reducible apply Keeps.foldlSnd
    | intro _
    | simp only [Keeps.record_iff]
    | split
    | with_reducible fail_if_success skip

theorem State.writeFlag_keeps {s0 : State} {x1} {x2} {x3 : State} (h3 : Keeps s0 x3) :
    Ends s0 x3 (State.writeFlag x1 x2) := by
  unfold State.writeFlag
  repeat' first
    | with_reducible assumption
    | with_reducible apply translate_keeps
    | with_reducible apply notePort_keeps
    | with_reducible apply State.hostWrite_keeps
    | with_reducible apply failWith_keeps
    | with_reducible apply Ends.pure
    | with_reducible apply Ends.throw
    | with_reducible apply Ends.ite
    | with_reducible apply Ends.get_bind
    | with_reducible apply Ends.set_bind
    | with_reducible apply Ends.modify_bind
    | with_reducible apply Ends.set
    | with_reducible apply Ends.changed
    | with_reducible apply Ends.bind
    | with_reducible refine Ends.ofOk (by assumption) ?_
    | with_reducible refine Ends.ofError (by assumption) ?_
    | with_reducible refine Keeps.ofSnd (by assumption) ?_
    | with_reducible refine Keeps.ofFst (by assumption) ?_
    | intro _
    | simp only [Keeps.record_iff]
    | split
    | (rename_i e; nomatch (e : none = some _))
    | (rename_i e; cases (e : some _ = some _))
    | (rename_i e; dsimp only at e)
    | (rename_i e; split at e)
    | with_reducible fail_if_success skip

theorem State.withPorts_keeps {s0 : State} {x1} {x2} {x3 : State} (h3 : Keeps s0 x3) :
    Ends s0 x3 (State.withPorts x1 x2) := by
  unfold State.withPorts
  repeat' first
    | with_reducible assumption
    | with_reducible apply Ends.pure
    | with_reducible apply Ends.ite
    | with_reducible apply Ends.get_bind
    | with_reducible apply Ends.set_bind
    | with_reducible apply Ends.modify_bind
    | with_reducible apply Ends.set
    | with_reducible apply Ends.changed
    | with_reducible apply Ends.bind
    | with_reducible refine Keeps.ofSnd (by assumption) ?_
    | with_reducible refine Keeps.ofFst (by assumption) ?_
    | intro _
    | simp only [Keeps.record_iff]
    | (rename_i e; nomatch (e : none = some _))
    | (rename_i e; cases (e : some _ = some _))
    | (rename_i e; dsimp only at e)
    | (rename_i e; split at e)
    | with_reducible fail_if_success skip

theorem State.hostFlagOp_keeps {s0 : State} {x1 : State} {x2} (h1 : Keeps s0 x1) :
    Keeps s0 (State.hostFlagOp x1 x2) := by
  unfold State.hostFlagOp
  repeat' first
    | with_reducible assumption
    | with_reducible apply State.dispatch_keeps
    | with_reducible apply translate_keeps
    | with_reducible apply State.writeFlag_keeps
    | with_reducible apply State.withPorts_keeps
    | with_reducible apply State.send_keeps
    | with_reducible apply failWith_keeps
    | with_reducible apply State.endOp_keeps
    | with_reducible apply Ends.pure
    | with_reducible apply Ends.ite
    | with_reducible apply Ends.get_bind
    | with_reducible apply Ends.set_bind
    | with_reducible apply Ends.modify_bind
    | with_reducible apply Ends.set
    | with_reducible apply Ends.changed
    | with_reducible apply Ends.bind
    | with_reducible refine Ends.ofOk (by assumption) ?_
    | with_reducible refine Ends.ofError (by assumption) ?_
    | with_reducible refine Keeps.ofSnd (by assumption) ?_
    | with_reducible refine Keeps.ofFst (by assumption) ?_
    | with_reducible apply Keeps.foldl
    | with_reducible apply Keeps.foldlFst
    | with_reducible apply Keeps.foldlSnd
    | intro _
    | simp only [Keeps.record_iff]
    | split
    | with_reducible fail_if_success skip

theorem State.readBackDone_keeps {s0 : State} {x1 : State} {x2} {x3} {x4} (h1 : Keeps s0 x1) :
    Keeps s0 (State.readBackDone x1 x2 x3 x4) := by
  unfold State.readBackDone
  repeat' first
    | with_reducible assumption
    | with_reducible apply State.issue_keeps
    | with_reducible apply State.modEntry_keeps
    | with_reducible apply State.runM_keeps
    | with_reducible apply State.writeFlag_keeps
    | with_reducible apply State.endOp_keeps
    | with_reducible apply State.modOp_keeps
    | with_reducible apply Ends.pure
    | with_reducible apply Ends.ite
    | with_reducible apply Ends.get_bind
    | with_reducible apply Ends.set_bind
    | with_reducible apply Ends.modify_bind
    | with_reducible apply Ends.set
    | with_reducible apply Ends.changed
    | with_reducible apply Ends.bind
    | with_reducible apply Ends.tryCatch
    | with_reducible refine Ends.ofOk (by assumption) ?_
    | with_reducible refine Ends.ofError (by assumption) ?_
    | with_reducible refine Keeps.ofSnd (by assumption) ?_
    | with_reducible refine Keeps.ofFst (by assumption) ?_
    | intro _
    | simp only [Keeps.record_iff]
    | split
    | with_reducible fail_if_success skip

theorem State.postedWrite_keeps {s0 : State} {x1} {x2} {x3} {x4} {x5 : State} (h5 : Keeps s0 x5) :
    Ends s0 x5 (State.postedWrite x1 x2 x3 x4) := by
  revert x5 h5
  fun_induction State.postedWrite x1 x2 x3 x4
  all_goals (try dsimp +zetaDelta only at *)
  all_goals (try intro x5 h5)
  all_goals
    repeat' first
    | with_reducible assumption
    | with_reducible apply pathTurn_keeps
    | with_reducible apply writeVA_keeps
    | with_reducible apply Ends.pure
    | with_reducible apply Ends.ite
    | with_reducible apply Ends.get_bind
    | with_reducible apply Ends.set_bind
    | with_reducible apply Ends.modify_bind
    | with_reducible apply Ends.set
    | with_reducible apply Ends.changed
    | with_reducible apply Ends.bind
    | with_reducible refine Ends.ofOk (by assumption) ?_
    | with_reducible refine Ends.ofError (by assumption) ?_
    | with_reducible refine Keeps.ofSnd (by assumption) ?_
    | with_reducible refine (by assumption : ∀ {x : State}, Keeps _ x → Ends _ x _) ?_
    | with_reducible refine (by assumption : ∀ a, ∀ {x : State}, Keeps _ x → Ends _ x _) _ ?_
    | with_reducible refine (by assumption : ∀ a b, ∀ {x : State}, Keeps _ x → Ends _ x _) _ _ ?_
    | with_reducible refine (by assumption : _ → _) ?_
    | with_reducible refine (by assumption : ∀ _, _ → _) _ ?_
    | with_reducible refine (by assumption : ∀ _ _, _ → _) _ _ ?_
    | intro _
    | simp only [Keeps.record_iff]
    | split
    | (rename_i e; nomatch (e : none = some _))
    | (rename_i e; cases (e : some _ = some _))
    | (rename_i e; dsimp only at e)
    | (rename_i e; split at e)
    | with_reducible fail_if_success skip
    | dsimp +zetaDelta only

theorem State.inlineOp_keeps {s0 : State} {x1 : State} {x2} (h1 : Keeps s0 x1) :
    Keeps s0 (State.inlineOp x1 x2) := by
  unfold State.inlineOp
  repeat' first
    | with_reducible assumption
    | with_reducible apply State.dispatch_keeps
    | with_reducible apply State.postedWrite_keeps
    | with_reducible apply State.withPorts_keeps
    | with_reducible apply failWith_keeps
    | with_reducible apply State.modOp_keeps
    | with_reducible apply State.endOp_keeps
    | with_reducible apply Ends.pure
    | with_reducible apply Ends.ite
    | with_reducible apply Ends.get_bind
    | with_reducible apply Ends.set_bind
    | with_reducible apply Ends.modify_bind
    | with_reducible apply Ends.set
    | with_reducible apply Ends.changed
    | with_reducible apply Ends.bind
    | with_reducible refine Ends.ofOk (by assumption) ?_
    | with_reducible refine Ends.ofError (by assumption) ?_
    | with_reducible refine Keeps.ofSnd (by assumption) ?_
    | with_reducible refine Keeps.ofFst (by assumption) ?_
    | intro _
    | simp only [Keeps.record_iff]
    | split
    | with_reducible fail_if_success skip

theorem State.opCompletion_keeps {s0 : State} {x1 : State} {x2} (h1 : Keeps s0 x1) :
    Keeps s0 (State.opCompletion x1 x2) := by
  unfold State.opCompletion
  repeat' first
    | with_reducible assumption
    | with_reducible apply State.endOp_keeps
    | with_reducible refine Keeps.ofSnd (by assumption) ?_
    | with_reducible refine Keeps.ofFst (by assumption) ?_
    | intro _
    | simp only [Keeps.record_iff]
    | split
    | with_reducible fail_if_success skip

theorem State.fenceTimeout_keeps {s0 : State} {x1 : State} {x2} (h1 : Keeps s0 x1) :
    Keeps s0 (State.fenceTimeout x1 x2) := by
  unfold State.fenceTimeout
  repeat' first
    | with_reducible assumption
    | with_reducible apply State.endOp_keeps
    | with_reducible apply State.modSlice_keeps
    | with_reducible refine Keeps.ofSnd (by assumption) ?_
    | with_reducible refine Keeps.ofFst (by assumption) ?_
    | intro _
    | simp only [Keeps.record_iff]
    | split
    | with_reducible fail_if_success skip

theorem State.statusEcho_keeps {s0 : State} {x1 : State} {x2} (h1 : Keeps s0 x1) :
    Keeps s0 (State.statusEcho x1 x2) := by
  unfold State.statusEcho
  repeat' first
    | with_reducible assumption
    | with_reducible refine State.tryRecord_keeps (by assumption) ?_
    | with_reducible refine State.tryRecord_held_keeps (by assumption) ?_
    | with_reducible refine State.tryRecord_wait_keeps (by assumption) ?_
    | with_reducible apply State.checkWake_keeps
    | with_reducible refine Keeps.ofSnd (by assumption) ?_
    | with_reducible refine Keeps.ofFst (by assumption) ?_
    | intro _
    | simp only [Keeps.record_iff]
    | split
    | with_reducible fail_if_success skip

end Sys2Proof.Machine
end

