-- ==== Sys2Proof/Laws/KeepsMailbox.lean ====
section
/-! SUPPORT. What the operations of Machine/Mailbox.lean keep. -/

set_option linter.all false

namespace Sys2Proof.Machine

theorem State.setMboxSlot_keeps {s0 : State} {x1 : State} {x2} {x3} (h1 : Keeps s0 x1) :
    Keeps s0 (State.setMboxSlot x1 x2 x3) := by
  unfold State.setMboxSlot
  repeat' first
    | with_reducible assumption
    | with_reducible refine Keeps.ofSnd (by assumption) ?_
    | simp only [Keeps.record_iff]
    | with_reducible fail_if_success skip

theorem State.mboxReply_keeps {s0 : State} {x1 : State} {x2} {x3} {x4} {x5} (h1 : Keeps s0 x1) :
    Keeps s0 (State.mboxReply x1 x2 x3 x4 x5) := by
  unfold State.mboxReply
  repeat' first
    | with_reducible assumption
    | with_reducible apply State.setMboxSlot_keeps
    | with_reducible apply State.hostWrite_keeps
    | with_reducible refine Keeps.ofSnd (by assumption) ?_
    | simp only [Keeps.record_iff]
    | split
    | with_reducible fail_if_success skip

theorem State.mboxEnd_keeps {s0 : State} {x1 : State} {x2} {x3} (h1 : Keeps s0 x1) :
    Keeps s0 (State.mboxEnd x1 x2 x3) := by
  unfold State.mboxEnd
  repeat' first
    | with_reducible assumption
    | with_reducible apply State.mboxReply_keeps
    | with_reducible apply State.setMboxSlot_keeps
    | with_reducible refine Keeps.ofSnd (by assumption) ?_
    | with_reducible refine Keeps.ofFst (by assumption) ?_
    | with_reducible apply Keeps.foldl
    | with_reducible apply Keeps.foldlFst
    | with_reducible apply Keeps.foldlSnd
    | intro _
    | simp only [Keeps.record_iff]
    | split
    | with_reducible fail_if_success skip

theorem State.mboxAccess_gives {s0 : State} {x1 : State} {x2} {x3} {x4} (h1 : Keeps s0 x1) (f4 : Ends s0 x1 x4) :
    Gives s0 (State.mboxAccess x1 x2 x3 x4) := by
  unfold State.mboxAccess
  split
  · rename_i e
    have hu := Ends.ofOk e f4
    split
    · exact Gives.some (State.setMboxSlot_keeps hu)
    · exact Gives.some (State.mboxReply_keeps hu)
  · rename_i e
    exact Gives.some (State.mboxReply_keeps (Ends.ofError e f4))
  · exact Gives.some (State.requestRead_keeps h1)
  · exact Gives.none

theorem State.mboxPerform_gives {s0 : State} {x1 : State} {x2} {x3} (h1 : Keeps s0 x1) :
    Gives s0 (State.mboxPerform x1 x2 x3) := by
  unfold State.mboxPerform
  dsimp only
  split
  · split
    · exact Gives.some (State.mboxReply_keeps h1)
    · exact State.mboxAccess_gives h1 (readVA_keeps h1)
  · exact State.mboxAccess_gives h1 (Ends.bind (writeVA_keeps h1) fun _ _ h => Ends.pure h)

theorem State.mboxResume_keeps {s0 : State} {x1 : State} {x2} (h1 : Keeps s0 x1) :
    Keeps s0 (State.mboxResume x1 x2) := by
  unfold State.mboxResume
  split
  · exact h1
  · split
    · split
      · exact h1
      · exact State.mboxReply_keeps h1
    · exact Gives.getD (State.mboxPerform_gives h1) h1

theorem State.mboxFail_keeps {s0 : State} {x1 : State} {x2} {x3} (h1 : Keeps s0 x1) :
    Keeps s0 (State.mboxFail x1 x2 x3) := by
  unfold State.mboxFail
  repeat' first
    | with_reducible assumption
    | with_reducible apply State.mboxReply_keeps
    | with_reducible refine Keeps.ofSnd (by assumption) ?_
    | with_reducible refine Keeps.ofFst (by assumption) ?_
    | intro _
    | simp only [Keeps.record_iff]
    | split
    | with_reducible fail_if_success skip

theorem State.mboxGo_keeps {s0 : State} {x1 : State} {x2} {x3} {x4} {x5} {x6} {x7 : State → Nat → MboxWait → State} (h1 : Keeps s0 x1) (f7 : ∀ a0 a1 a2, Keeps s0 a0 → Keeps s0 (x7 a0 a1 a2)) :
    Keeps s0 (State.mboxGo x1 x2 x3 x4 x5 x6 x7) := by
  unfold State.mboxGo
  repeat' first
    | with_reducible assumption
    | with_reducible apply State.addObj_keeps
    | with_reducible apply State.mboxReply_keeps
    | with_reducible apply f7
    | with_reducible apply Ends.pure
    | with_reducible apply Ends.ite
    | with_reducible apply Ends.get_bind
    | with_reducible apply Ends.set_bind
    | with_reducible apply Ends.modify_bind
    | with_reducible apply Ends.set
    | with_reducible apply Ends.changed
    | with_reducible apply Ends.bind
    | with_reducible refine Keeps.ofSnd (by assumption) ?_
    | with_reducible refine Keeps.ofFst (by assumption) ?_
    | intro _
    | simp only [Keeps.record_iff]
    | split
    | with_reducible fail_if_success skip

theorem State.mboxMemory_keeps {s0 : State} {x1 : State} {x2} {x3} (h1 : Keeps s0 x1) :
    Keeps s0 (State.mboxMemory x1 x2 x3) := by
  unfold State.mboxMemory
  repeat' first
    | with_reducible assumption
    | with_reducible apply State.setMboxSlot_keeps
    | with_reducible apply State.acquireTag_keeps
    | with_reducible refine State.mboxPerform_keeps (by assumption) ?_
    | with_reducible apply Gives.getD
    | with_reducible apply State.mboxPerform_gives
    | with_reducible refine Keeps.ofSnd (by assumption) ?_
    | with_reducible refine Keeps.ofFst (by assumption) ?_
    | intro _
    | simp only [Keeps.record_iff]
    | split
    | with_reducible fail_if_success skip

theorem State.mboxGoesOn_keeps {s0 : State} {x1 : State} {x2} {x3} {t : State} (e : State.mboxGoesOn x1 x2 x3 = some t) (h1 : Keeps s0 x1) :
    Keeps s0 t := by
  unfold State.mboxGoesOn at e
  revert e
  repeat' first
    | with_reducible assumption
    | with_reducible apply State.acquireTag_keeps
    | with_reducible refine State.mboxPerform_keeps (by assumption) ?_
    | with_reducible refine Gives.of (by assumption) (State.mboxPerform_gives ?_)
    | with_reducible refine Keeps.ofSnd (by assumption) ?_
    | with_reducible refine Keeps.ofFst (by assumption) ?_
    | intro _
    | simp only [Keeps.record_iff]
    | split
    | (rename_i e; nomatch (e : none = some _))
    | (rename_i e; cases (e : some _ = some _))
    | (rename_i e; dsimp only at e)
    | (rename_i e; split at e)
    | with_reducible fail_if_success skip

theorem State.mboxSignal_keeps {s0 : State} {x1 : State} {x2} {x3} (h1 : Keeps s0 x1) :
    Keeps s0 (State.mboxSignal x1 x2 x3) := by
  unfold State.mboxSignal
  repeat' first
    | with_reducible assumption
    | with_reducible apply State.mboxReply_keeps
    | with_reducible apply State.applySignal_keeps
    | with_reducible refine Keeps.ofSnd (by assumption) ?_
    | simp only [Keeps.record_iff]
    | split
    | with_reducible fail_if_success skip

theorem State.mboxFence_keeps {s0 : State} {x1 : State} {x2} {x3} (h1 : Keeps s0 x1) :
    Keeps s0 (State.mboxFence x1 x2 x3) := by
  unfold State.mboxFence
  repeat' first
    | with_reducible assumption
    | with_reducible apply State.mboxReply_keeps
    | with_reducible refine Keeps.ofSnd (by assumption) ?_
    | simp only [Keeps.record_iff]
    | split
    | with_reducible fail_if_success skip

theorem State.mboxQueue_keeps {s0 : State} {x1 : State} {x2} {x3} (h1 : Keeps s0 x1) :
    Keeps s0 (State.mboxQueue x1 x2 x3) := by
  unfold State.mboxQueue
  repeat' first
    | with_reducible assumption
    | with_reducible apply State.mboxReply_keeps
    | with_reducible refine Keeps.ofSnd (by assumption) ?_
    | with_reducible refine Keeps.ofFst (by assumption) ?_
    | simp only [Keeps.record_iff]
    | with_reducible fail_if_success skip

theorem State.attentionLog_keeps {s0 : State} {x1 : State} (h1 : Keeps s0 x1) :
    Keeps s0 (State.attentionLog x1) := by
  unfold State.attentionLog
  repeat' first
    | with_reducible assumption
    | with_reducible apply State.loseEvent_keeps
    | with_reducible refine Keeps.ofSnd (by assumption) ?_
    | with_reducible refine Keeps.ofFst (by assumption) ?_
    | with_reducible apply Keeps.foldl
    | with_reducible apply Keeps.foldlFst
    | with_reducible apply Keeps.foldlSnd
    | intro _
    | simp only [Keeps.record_iff]
    | split
    | with_reducible fail_if_success skip

end Sys2Proof.Machine
end

