-- ==== Sys2Proof/Laws/KeepsContexts.lean ====
section
/-! SUPPORT. What the operations of Machine/Contexts.lean keep. -/

set_option linter.all false

namespace Sys2Proof.Machine

theorem State.noteReady_keeps {s0 : State} {x1 : State} {x2 : State} {x3} {x4} (h1 : Keeps s0 x1) (h2 : Keeps s0 x2) :
    Keeps s0 (State.noteReady x1 x2 x3 x4) := by
  unfold State.noteReady
  repeat' first
    | with_reducible assumption
    | with_reducible apply State.raiseAs_keeps
    | with_reducible refine Keeps.ofSnd (by assumption) ?_
    | simp only [Keeps.record_iff]
    | split
    | with_reducible fail_if_success skip

theorem State.noteAll_keeps {s0 : State} {x1 : State} {x2 : State} (h1 : Keeps s0 x1) (h2 : Keeps s0 x2) :
    Keeps s0 (State.noteAll x1 x2) := by
  unfold State.noteAll
  repeat' first
    | with_reducible assumption
    | with_reducible apply State.noteReady_keeps
    | with_reducible refine Keeps.ofSnd (by assumption) ?_
    | with_reducible refine Keeps.ofFst (by assumption) ?_
    | with_reducible apply Keeps.foldl
    | with_reducible apply Keeps.foldlFst
    | with_reducible apply Keeps.foldlSnd
    | intro _
    | simp only [Keeps.record_iff]
    | with_reducible fail_if_success skip

theorem State.setReady_keeps {s0 : State} {x1 : State} {x2} {x3} {x4} (h1 : Keeps s0 x1) :
    Keeps s0 (State.setReady x1 x2 x3 x4) := by
  unfold State.setReady
  repeat' first
    | with_reducible assumption
    | with_reducible apply State.setObj_keeps
    | with_reducible apply State.raise_keeps
    | with_reducible refine Keeps.ofSnd (by assumption) ?_
    | simp only [Keeps.record_iff]
    | split
    | with_reducible fail_if_success skip

theorem State.ctxCreate_keeps {s0 : State} {x1 : State} {x2} {x3} (h1 : Keeps s0 x1) :
    Keeps s0 (State.ctxCreate x1 x2 x3).state := by
  unfold State.ctxCreate
  repeat' first
    | with_reducible assumption
    | with_reducible apply State.setCtx_keeps
    | with_reducible apply State.setCluster_keeps
    | with_reducible refine Keeps.ofSnd (by assumption) ?_
    | with_reducible refine Keeps.ofFst (by assumption) ?_
    | with_reducible apply Keeps.foldl
    | with_reducible apply Keeps.foldlFst
    | with_reducible apply Keeps.foldlSnd
    | intro _
    | simp only [Keeps.record_iff]
    | split
    | with_reducible fail_if_success skip

theorem State.dropChanges_keeps {s0 : State} {x1 : State} {x2} (h1 : Keeps s0 x1) :
    Keeps s0 (State.dropChanges x1 x2) := by
  unfold State.dropChanges
  repeat' first
    | with_reducible assumption
    | with_reducible apply State.dropRange_keeps
    | with_reducible refine Keeps.ofSnd (by assumption) ?_
    | with_reducible apply Keeps.foldl
    | with_reducible apply Keeps.foldlFst
    | with_reducible apply Keeps.foldlSnd
    | intro _
    | simp only [Keeps.record_iff]
    | with_reducible fail_if_success skip

theorem State.stopWork_keeps {s0 : State} {x1 : State} {x2} (h1 : Keeps s0 x1) :
    Keeps s0 (State.stopWork x1 x2) := by
  unfold State.stopWork
  repeat' first
    | with_reducible assumption
    | with_reducible apply State.dropRequests_keeps
    | with_reducible apply State.dropUnsent_keeps
    | with_reducible apply State.dropChanges_keeps
    | with_reducible refine Keeps.ofSnd (by assumption) ?_
    | with_reducible refine Keeps.ofFst (by assumption) ?_
    | intro _
    | simp only [Keeps.record_iff]
    | split
    | with_reducible fail_if_success skip

theorem State.writeRecords_keeps {s0 : State} {x1 : State} {x2} {x3} (h1 : Keeps s0 x1) :
    Keeps s0 (State.writeRecords x1 x2 x3) := by
  revert h1
  fun_induction State.writeRecords x1 x2 x3
  all_goals (try dsimp +zetaDelta only at *)
  all_goals (try intro h1)
  all_goals
    repeat' first
    | with_reducible assumption
    | with_reducible apply State.setCtx_keeps
    | with_reducible refine State.tryRecord_keeps (by assumption) ?_
    | with_reducible refine State.tryRecord_held_keeps (by assumption) ?_
    | with_reducible refine State.tryRecord_wait_keeps (by assumption) ?_
    | with_reducible apply State.checkWake_keeps
    | with_reducible refine Keeps.ofSnd (by assumption) ?_
    | with_reducible refine Keeps.ofFst (by assumption) ?_
    | with_reducible refine (by assumption : ∀ {x : State}, Keeps _ x → Ends _ x _) ?_
    | with_reducible refine (by assumption : ∀ a, ∀ {x : State}, Keeps _ x → Ends _ x _) _ ?_
    | with_reducible refine (by assumption : ∀ a b, ∀ {x : State}, Keeps _ x → Ends _ x _) _ _ ?_
    | with_reducible refine (by assumption : _ → _) ?_
    | with_reducible refine (by assumption : ∀ _, _ → _) _ ?_
    | with_reducible refine (by assumption : ∀ _ _, _ → _) _ _ ?_
    | intro _
    | simp only [Keeps.record_iff]
    | split
    | with_reducible fail_if_success skip
    | dsimp +zetaDelta only

theorem State.beginTeardown_keeps {s0 : State} {x1 : State} {x2} {x3} (h1 : Keeps s0 x1) :
    Keeps s0 (State.beginTeardown x1 x2 x3) := by
  unfold State.beginTeardown
  repeat' first
    | with_reducible assumption
    | with_reducible apply State.stopWork_keeps
    | with_reducible apply State.writeRecords_keeps
    | with_reducible apply State.mboxEnd_keeps
    | with_reducible apply State.setCtx_keeps
    | with_reducible apply State.repool_keeps
    | with_reducible apply State.unpin_keeps
    | with_reducible refine Keeps.ofSnd (by assumption) ?_
    | with_reducible refine Keeps.ofFst (by assumption) ?_
    | with_reducible apply Keeps.foldl
    | with_reducible apply Keeps.foldlFst
    | with_reducible apply Keeps.foldlSnd
    | intro _
    | simp only [Keeps.record_iff]
    | split
    | with_reducible fail_if_success skip

theorem State.unbindAll_keeps {s0 : State} {x1 : State} {x2} (h1 : Keeps s0 x1) :
    Keeps s0 (State.unbindAll x1 x2) := by
  unfold State.unbindAll
  repeat' first
    | with_reducible assumption
    | with_reducible apply State.freeGens_keeps
    | with_reducible refine Keeps.ofSnd (by assumption) ?_
    | with_reducible refine Keeps.ofFst (by assumption) ?_
    | with_reducible apply Keeps.foldl
    | with_reducible apply Keeps.foldlFst
    | with_reducible apply Keeps.foldlSnd
    | intro _
    | simp only [Keeps.record_iff]
    | split
    | with_reducible fail_if_success skip

theorem State.freeClusters_keeps {s0 : State} {x1 : State} {x2} (h1 : Keeps s0 x1) :
    Keeps s0 (State.freeClusters x1 x2) := by
  unfold State.freeClusters
  repeat' first
    | with_reducible assumption
    | with_reducible refine Keeps.ofSnd (by assumption) ?_
    | with_reducible refine Keeps.ofFst (by assumption) ?_
    | intro _
    | simp only [Keeps.record_iff]
    | with_reducible fail_if_success skip

theorem State.keepReply_keeps {s0 : State} {x1 : State} {x2} {x3} {x4} (h1 : Keeps s0 x1) :
    Keeps s0 (State.keepReply x1 x2 x3 x4) := by
  unfold State.keepReply
  repeat' first
    | with_reducible assumption
    | with_reducible refine Keeps.ofSnd (by assumption) ?_
    | with_reducible refine Keeps.ofFst (by assumption) ?_
    | intro _
    | simp only [Keeps.record_iff]
    | with_reducible fail_if_success skip

theorem State.carryReply_keeps {s0 : State} {x1 : State} {x2} {x3} {x4} (h1 : Keeps s0 x1) :
    Keeps s0 (State.carryReply x1 x2 x3 x4) := by
  unfold State.carryReply
  repeat' first
    | with_reducible assumption
    | with_reducible apply State.send_keeps
    | with_reducible refine Keeps.ofSnd (by assumption) ?_
    | with_reducible refine Keeps.ofFst (by assumption) ?_
    | intro _
    | simp only [Keeps.record_iff]
    | split
    | with_reducible fail_if_success skip

theorem State.sendReply_keeps {s0 : State} {x1 : State} {x2} {x3} {x4} {x5} (h1 : Keeps s0 x1) :
    Keeps s0 (State.sendReply x1 x2 x3 x4 x5) := by
  unfold State.sendReply
  repeat' first
    | with_reducible assumption
    | with_reducible apply State.carryReply_keeps
    | with_reducible apply State.keepReply_keeps
    | with_reducible refine Keeps.ofSnd (by assumption) ?_
    | with_reducible refine Keeps.ofFst (by assumption) ?_
    | intro _
    | simp only [Keeps.record_iff]
    | split
    | with_reducible fail_if_success skip

theorem State.releaseAnswers_keeps {s0 : State} {x1 : State} {x2} (h1 : Keeps s0 x1) :
    Keeps s0 (State.releaseAnswers x1 x2) := by
  unfold State.releaseAnswers
  repeat' first
    | with_reducible assumption
    | with_reducible apply State.sendReply_keeps
    | with_reducible refine Keeps.ofSnd (by assumption) ?_
    | with_reducible apply Keeps.foldl
    | with_reducible apply Keeps.foldlFst
    | with_reducible apply Keeps.foldlSnd
    | intro _
    | simp only [Keeps.record_iff]
    | with_reducible fail_if_success skip

theorem State.teardownComplete_keeps {s0 : State} {x1 : State} {x2} (h1 : Keeps s0 x1) :
    Keeps s0 (State.teardownComplete x1 x2) := by
  unfold State.teardownComplete
  repeat' first
    | with_reducible assumption
    | with_reducible apply State.writeRecords_keeps
    | with_reducible apply State.freeClusters_keeps
    | with_reducible apply State.unbindAll_keeps
    | with_reducible apply State.setCtx_keeps
    | with_reducible apply State.releaseAnswers_keeps
    | with_reducible apply State.touchTag_keeps
    | with_reducible refine Keeps.ofSnd (by assumption) ?_
    | with_reducible refine Keeps.ofFst (by assumption) ?_
    | intro _
    | simp only [Keeps.record_iff]
    | split
    | with_reducible fail_if_success skip

theorem State.ctxTeardown_keeps {s0 : State} {x1 : State} {x2} {x3} {x4} (h1 : Keeps s0 x1) :
    Keeps s0 (State.ctxTeardown x1 x2 x3 x4).state := by
  unfold State.ctxTeardown
  repeat' first
    | with_reducible assumption
    | with_reducible apply State.beginTeardown_keeps
    | with_reducible refine Keeps.ofSnd (by assumption) ?_
    | with_reducible refine Keeps.ofFst (by assumption) ?_
    | intro _
    | simp only [Keeps.record_iff]
    | split
    | with_reducible fail_if_success skip

theorem State.orphan_keeps {s0 : State} {x1 : State} {x2} (h1 : Keeps s0 x1) :
    Keeps s0 (State.orphan x1 x2) := by
  unfold State.orphan
  repeat' first
    | with_reducible assumption
    | with_reducible apply State.mboxEnd_keeps
    | with_reducible apply State.setCtx_keeps
    | with_reducible apply State.raiseAs_keeps
    | with_reducible refine Keeps.ofSnd (by assumption) ?_
    | with_reducible refine Keeps.ofFst (by assumption) ?_
    | simp only [Keeps.record_iff]
    | split
    | with_reducible fail_if_success skip

theorem State.ctxOrphan_keeps {s0 : State} {x1 : State} {x2} (h1 : Keeps s0 x1) :
    Keeps s0 (State.ctxOrphan x1 x2).state := by
  unfold State.ctxOrphan
  repeat' first
    | with_reducible assumption
    | with_reducible apply State.orphan_keeps
    | with_reducible refine Keeps.ofSnd (by assumption) ?_
    | simp only [Keeps.record_iff]
    | split
    | with_reducible fail_if_success skip

theorem State.waitSwarm_keeps {s0 : State} {x1 : State} {x2} {x3} (h1 : Keeps s0 x1) :
    Keeps s0 (State.waitSwarm x1 x2 x3) := by
  unfold State.waitSwarm
  repeat' first
    | with_reducible assumption
    | with_reducible apply State.countRaise_keeps
    | with_reducible apply State.setSwarmPort_keeps
    | with_reducible refine Keeps.ofSnd (by assumption) ?_
    | simp only [Keeps.record_iff]
    | with_reducible fail_if_success skip

theorem State.aheadOfOpen_keeps {s0 : State} {x1 : State} {x2} (h1 : Keeps s0 x1) :
    Keeps s0 (State.aheadOfOpen x1 x2) := by
  unfold State.aheadOfOpen
  repeat' first
    | with_reducible assumption
    | with_reducible refine Keeps.ofSnd (by assumption) ?_
    | with_reducible refine Keeps.ofFst (by assumption) ?_
    | intro _
    | simp only [Keeps.record_iff]
    | split
    | with_reducible fail_if_success skip

theorem State.repostSwarm_keeps {s0 : State} {x1} {x2} {x3} {x4 : State} {x5} (h4 : Keeps s0 x4) :
    Keeps s0 (State.repostSwarm x1 x2 x3 x4 x5) := by
  unfold State.repostSwarm
  repeat' first
    | with_reducible assumption
    | with_reducible apply State.addObj_keeps
    | with_reducible apply State.aheadOfOpen_keeps
    | with_reducible apply State.setSwarmPort_keeps
    | with_reducible apply State.postSwarm_keeps
    | with_reducible apply State.waitSwarm_keeps
    | with_reducible refine Keeps.ofSnd (by assumption) ?_
    | with_reducible refine Keeps.ofFst (by assumption) ?_
    | intro _
    | simp only [Keeps.record_iff]
    | split
    | with_reducible fail_if_success skip

theorem State.repostSwarms_keeps {s0 : State} {x1 : State} {x2} {x3} {x4} (h1 : Keeps s0 x1) :
    Keeps s0 (State.repostSwarms x1 x2 x3 x4) := by
  unfold State.repostSwarms
  repeat' first
    | with_reducible assumption
    | with_reducible apply State.repostSwarm_keeps
    | with_reducible refine Keeps.ofSnd (by assumption) ?_
    | with_reducible refine Keeps.ofFst (by assumption) ?_
    | with_reducible apply Keeps.foldl
    | with_reducible apply Keeps.foldlFst
    | with_reducible apply Keeps.foldlSnd
    | intro _
    | simp only [Keeps.record_iff]
    | split
    | with_reducible fail_if_success skip

theorem State.ctxAttach_keeps {s0 : State} {x1 : State} {x2} {x3} (h1 : Keeps s0 x1) :
    Keeps s0 (State.ctxAttach x1 x2 x3).state := by
  unfold State.ctxAttach
  repeat' first
    | with_reducible assumption
    | with_reducible apply State.setCtx_keeps
    | with_reducible apply State.issue_keeps
    | with_reducible apply State.repostSwarms_keeps
    | with_reducible refine Keeps.ofSnd (by assumption) ?_
    | simp only [Keeps.record_iff]
    | split
    | with_reducible fail_if_success skip

end Sys2Proof.Machine
end

