-- ==== Sys2Proof/Laws/KeepsTidyCore.lean ====
section
/-! SUPPORT. What the operations of Machine/TidyCore.lean keep. -/

set_option linter.all false

namespace Sys2Proof.Machine

theorem State.stopTask_keeps {s0 : State} {x1 : State} {x2} {x3} {x4} (h1 : Keeps s0 x1) :
    Keeps s0 (State.stopTask x1 x2 x3 x4) := by
  unfold State.stopTask
  repeat' first
    | with_reducible assumption
    | with_reducible apply State.dropTask_keeps
    | with_reducible apply State.consumePoison_keeps
    | with_reducible apply State.modSlice_keeps
    | with_reducible refine Keeps.ofSnd (by assumption) ?_
    | with_reducible refine Keeps.ofFst (by assumption) ?_
    | intro _
    | simp only [Keeps.record_iff]
    | split
    | with_reducible fail_if_success skip

theorem State.notePassed_keeps {s0 : State} {x1 : State} {x2} {x3} {x4} (h1 : Keeps s0 x1) :
    Keeps s0 (State.notePassed x1 x2 x3 x4) := by
  unfold State.notePassed
  repeat' first
    | with_reducible assumption
    | with_reducible apply State.raise_keeps
    | with_reducible apply State.modOp_keeps
    | with_reducible refine Keeps.ofSnd (by assumption) ?_
    | intro _
    | simp only [Keeps.record_iff]
    | with_reducible fail_if_success skip

theorem State.unrestartable_keeps {s0 : State} {x1 : State} {x2} (h1 : Keeps s0 x1) :
    Keeps s0 (State.unrestartable x1 x2) := by
  unfold State.unrestartable
  repeat' first
    | with_reducible assumption
    | with_reducible apply State.addObj_keeps
    | with_reducible apply State.setCore_keeps
    | with_reducible refine Keeps.ofSnd (by assumption) ?_
    | with_reducible refine Keeps.ofFst (by assumption) ?_
    | intro _
    | simp only [Keeps.record_iff]
    | split
    | with_reducible fail_if_success skip

theorem State.logWord_keeps {s0 : State} {x1 : State} {x2} {x3} (h1 : Keeps s0 x1) :
    Keeps s0 (State.logWord x1 x2 x3) := by
  unfold State.logWord
  repeat' first
    | with_reducible assumption
    | with_reducible apply State.setCore_keeps
    | with_reducible apply State.unrestartable_keeps
    | with_reducible refine Keeps.ofSnd (by assumption) ?_
    | with_reducible refine Keeps.ofFst (by assumption) ?_
    | intro _
    | simp only [Keeps.record_iff]
    | split
    | with_reducible fail_if_success skip

theorem State.undoLog_keeps {s0 : State} {x1 : State} {x2} {x3} (h1 : Keeps s0 x1) :
    Keeps s0 (State.undoLog x1 x2 x3) := by
  unfold State.undoLog
  repeat' first
    | with_reducible assumption
    | with_reducible apply State.putBytes_keeps
    | with_reducible apply State.markPoison_keeps
    | with_reducible refine Keeps.ofSnd (by assumption) ?_
    | with_reducible apply Keeps.foldl
    | with_reducible apply Keeps.foldlFst
    | with_reducible apply Keeps.foldlSnd
    | intro _
    | simp only [Keeps.record_iff]
    | with_reducible fail_if_success skip

theorem coreLoad_keeps {s0 : State} {x1} {x2} {x3} {x4 : State} (h4 : Keeps s0 x4) :
    Ends s0 x4 (coreLoad x1 x2 x3) := by
  unfold coreLoad
  repeat' first
    | with_reducible assumption
    | with_reducible apply failWith_keeps
    | with_reducible apply readNum_keeps
    | with_reducible apply Ends.pure
    | with_reducible apply Ends.throw
    | with_reducible apply Ends.ite
    | with_reducible apply Ends.get_bind
    | with_reducible apply Ends.set_bind
    | with_reducible apply Ends.modify_bind
    | with_reducible apply Ends.set
    | with_reducible apply Ends.changed
    | with_reducible apply Ends.bind
    | with_reducible refine Ends.ofOk (by assumption) ?_
    | with_reducible refine Ends.ofError (by assumption) ?_
    | with_reducible refine Keeps.ofSnd (by assumption) ?_
    | with_reducible refine Keeps.ofFst (by assumption) ?_
    | intro _
    | simp only [Keeps.record_iff]
    | split
    | (rename_i e; nomatch (e : none = some _))
    | (rename_i e; cases (e : some _ = some _))
    | (rename_i e; dsimp only at e)
    | (rename_i e; split at e)
    | with_reducible fail_if_success skip

theorem storeWord_keeps {s0 : State} {x1} {x2} {x3} {x4} {x5} {x6 : State} (h6 : Keeps s0 x6) :
    Ends s0 x6 (storeWord x1 x2 x3 x4 x5) := by
  unfold storeWord
  repeat' first
    | with_reducible assumption
    | with_reducible apply translate_keeps
    | with_reducible apply State.unrestartable_keeps
    | with_reducible apply State.noteUse_keeps
    | with_reducible apply enterPath_keeps
    | with_reducible apply writeDevice_keeps
    | with_reducible apply State.setCore_keeps
    | with_reducible apply notePort_keeps
    | with_reducible apply Ends.pure
    | with_reducible apply Ends.throw
    | with_reducible apply Ends.ite
    | with_reducible apply Ends.get_bind
    | with_reducible apply Ends.set_bind
    | with_reducible apply Ends.modify_bind
    | with_reducible apply Ends.set
    | with_reducible apply Ends.changed
    | with_reducible apply Ends.bind
    | with_reducible apply Ends.tryCatch
    | with_reducible refine Ends.ofOk (by assumption) ?_
    | with_reducible refine Ends.ofError (by assumption) ?_
    | with_reducible refine Keeps.ofSnd (by assumption) ?_
    | with_reducible refine Keeps.ofFst (by assumption) ?_
    | intro _
    | simp only [Keeps.record_iff]
    | split
    | (rename_i e; nomatch (e : none = some _))
    | (rename_i e; cases (e : some _ = some _))
    | (rename_i e; dsimp only at e)
    | (rename_i e; split at e)
    | with_reducible fail_if_success skip

theorem storePiece_keeps {s0 : State} {x1} {x2} {x3} {x4} {x5 : State} (h5 : Keeps s0 x5) :
    Ends s0 x5 (storePiece x1 x2 x3 x4) := by
  unfold storePiece
  repeat' first
    | with_reducible assumption
    | with_reducible apply State.setCore_keeps
    | with_reducible apply State.logWord_keeps
    | with_reducible apply State.write_keeps
    | with_reducible apply storeWord_keeps
    | with_reducible apply Ends.pure
    | with_reducible apply Ends.throw
    | with_reducible apply Ends.ite
    | with_reducible apply Ends.get_bind
    | with_reducible apply Ends.set_bind
    | with_reducible apply Ends.modify_bind
    | with_reducible apply Ends.set
    | with_reducible apply Ends.changed
    | with_reducible apply Ends.bind
    | with_reducible refine Ends.ofOk (by assumption) ?_
    | with_reducible refine Ends.ofError (by assumption) ?_
    | with_reducible refine Keeps.ofSnd (by assumption) ?_
    | with_reducible refine Keeps.ofFst (by assumption) ?_
    | with_reducible apply Keeps.foldl
    | with_reducible apply Keeps.foldlFst
    | with_reducible apply Keeps.foldlSnd
    | intro _
    | simp only [Keeps.record_iff]
    | split
    | (rename_i e; nomatch (e : none = some _))
    | (rename_i e; cases (e : some _ = some _))
    | (rename_i e; dsimp only at e)
    | (rename_i e; split at e)
    | with_reducible fail_if_success skip

theorem storeAll_keeps {s0 : State} {x1} {x2} {x3} {x4} {x5 : State} (h5 : Keeps s0 x5) :
    Ends s0 x5 (storeAll x1 x2 x3 x4) := by
  revert x5 h5
  fun_induction storeAll x1 x2 x3 x4
  all_goals (try dsimp +zetaDelta only at *)
  all_goals (try intro x5 h5)
  all_goals
    repeat' first
    | with_reducible assumption
    | with_reducible apply storePiece_keeps
    | with_reducible apply State.setCore_keeps
    | with_reducible apply Ends.pure
    | with_reducible apply Ends.ite
    | with_reducible apply Ends.get_bind
    | with_reducible apply Ends.set_bind
    | with_reducible apply Ends.modify_bind
    | with_reducible apply Ends.set
    | with_reducible apply Ends.changed
    | with_reducible apply Ends.bind
    | with_reducible refine Ends.ofOk (by assumption) ?_
    | with_reducible refine Ends.ofError (by assumption) ?_
    | with_reducible refine Keeps.ofSnd (by assumption) ?_
    | with_reducible refine Keeps.ofFst (by assumption) ?_
    | with_reducible refine (by assumption : ∀ {x : State}, Keeps _ x → Ends _ x _) ?_
    | with_reducible refine (by assumption : ∀ a, ∀ {x : State}, Keeps _ x → Ends _ x _) _ ?_
    | with_reducible refine (by assumption : ∀ a b, ∀ {x : State}, Keeps _ x → Ends _ x _) _ _ ?_
    | with_reducible refine (by assumption : _ → _) ?_
    | with_reducible refine (by assumption : ∀ _, _ → _) _ ?_
    | with_reducible refine (by assumption : ∀ _ _, _ → _) _ _ ?_
    | intro _
    | simp only [Keeps.record_iff]
    | split
    | (rename_i e; nomatch (e : none = some _))
    | (rename_i e; cases (e : some _ = some _))
    | (rename_i e; dsimp only at e)
    | (rename_i e; split at e)
    | with_reducible fail_if_success skip
    | dsimp +zetaDelta only

theorem coreStore_keeps {s0 : State} {x1} {x2} {x3} {x4} {x5 : State} (h5 : Keeps s0 x5) :
    Ends s0 x5 (coreStore x1 x2 x3 x4) := by
  unfold coreStore
  repeat' first
    | with_reducible assumption
    | with_reducible apply storeAll_keeps
    | with_reducible apply Ends.pure
    | with_reducible apply Ends.ite
    | with_reducible apply Ends.get_bind
    | with_reducible apply Ends.set_bind
    | with_reducible apply Ends.modify_bind
    | with_reducible apply Ends.set
    | with_reducible apply Ends.changed
    | with_reducible apply Ends.bind
    | with_reducible refine Ends.ofOk (by assumption) ?_
    | with_reducible refine Ends.ofError (by assumption) ?_
    | with_reducible refine Keeps.ofSnd (by assumption) ?_
    | intro _
    | simp only [Keeps.record_iff]
    | (rename_i e; nomatch (e : none = some _))
    | (rename_i e; cases (e : some _ = some _))
    | (rename_i e; dsimp only at e)
    | (rename_i e; split at e)
    | with_reducible fail_if_success skip

theorem State.noteRetry_keeps {s0 : State} {x1 : State} {x2} {x3} (h1 : Keeps s0 x1) :
    Keeps s0 (State.noteRetry x1 x2 x3) := by
  unfold State.noteRetry
  repeat' first
    | with_reducible assumption
    | with_reducible apply State.notePassed_keeps
    | with_reducible apply State.addObj_keeps
    | with_reducible refine Keeps.ofSnd (by assumption) ?_
    | simp only [Keeps.record_iff]
    | split
    | with_reducible fail_if_success skip

theorem State.notePass_keeps {s0 : State} {x1 : State} {x2} {x3} (h1 : Keeps s0 x1) :
    Keeps s0 (State.notePass x1 x2 x3) := by
  unfold State.notePass
  repeat' first
    | with_reducible assumption
    | with_reducible apply State.noteRetry_keeps
    | with_reducible apply State.notePassed_keeps
    | with_reducible apply State.setCore_keeps
    | with_reducible refine Keeps.ofSnd (by assumption) ?_
    | intro _
    | simp only [Keeps.record_iff]
    | split
    | with_reducible fail_if_success skip

theorem State.tidy_keeps {s0 : State} {x1 : State} {x2} {x3} {x4} {x5} {x6 : Core → M Core} (h1 : Keeps s0 x1) (f6 : ∀ a0 u, Keeps s0 u → Ends s0 u (x6 a0)) :
    Keeps s0 (State.tidy x1 x2 x3 x4 x5 x6) := by
  unfold State.tidy
  repeat' first
    | with_reducible assumption
    | with_reducible apply State.stopTask_keeps
    | with_reducible apply State.setCore_keeps
    | with_reducible apply State.runM_keeps
    | with_reducible apply State.notePass_keeps
    | with_reducible apply State.draw_keeps
    | with_reducible apply State.noteRetry_keeps
    | with_reducible apply f6
    | with_reducible apply Ends.pure
    | with_reducible apply Ends.ite
    | with_reducible apply Ends.get_bind
    | with_reducible apply Ends.set_bind
    | with_reducible apply Ends.modify_bind
    | with_reducible apply Ends.set
    | with_reducible apply Ends.changed
    | with_reducible apply Ends.bind
    | with_reducible apply Ends.tryCatch
    | with_reducible refine Ends.ofOk (by assumption) ?_
    | with_reducible refine Ends.ofError (by assumption) ?_
    | with_reducible refine Keeps.ofSnd (by assumption) ?_
    | with_reducible refine Keeps.ofFst (by assumption) ?_
    | intro _
    | simp only [Keeps.record_iff]
    | split
    | with_reducible fail_if_success skip

end Sys2Proof.Machine
end

