-- ==== Sys2Proof/Laws/KeepsTidyScalar.lean ====
section
/-! SUPPORT. What the operations of Machine/TidyScalar.lean keep. -/

set_option linter.all false

namespace Sys2Proof.Machine

theorem State.aluReg_keeps {s0 : State} {x1 : State} {x2} {x3} {x4} (h1 : Keeps s0 x1) :
    Keeps s0 (State.aluReg x1 x2 x3 x4) := by
  unfold State.aluReg
  repeat' first
    | with_reducible assumption
    | with_reducible apply State.tidy_keeps
    | with_reducible apply Ends.pure
    | with_reducible apply Ends.ite
    | with_reducible apply Ends.get_bind
    | with_reducible apply Ends.set_bind
    | with_reducible apply Ends.modify_bind
    | with_reducible apply Ends.set
    | with_reducible apply Ends.changed
    | with_reducible apply Ends.bind
    | with_reducible refine Ends.ofOk (by assumption) ?_
    | with_reducible refine Ends.ofError (by assumption) ?_
    | with_reducible refine Keeps.ofSnd (by assumption) ?_
    | intro _
    | simp only [Keeps.record_iff]
    | with_reducible fail_if_success skip

theorem State.aluImm_keeps {s0 : State} {x1 : State} {x2} {x3} {x4} (h1 : Keeps s0 x1) :
    Keeps s0 (State.aluImm x1 x2 x3 x4) := by
  unfold State.aluImm
  repeat' first
    | with_reducible assumption
    | with_reducible apply State.tidy_keeps
    | with_reducible apply Ends.pure
    | with_reducible apply Ends.ite
    | with_reducible apply Ends.get_bind
    | with_reducible apply Ends.set_bind
    | with_reducible apply Ends.modify_bind
    | with_reducible apply Ends.set
    | with_reducible apply Ends.changed
    | with_reducible apply Ends.bind
    | with_reducible refine Ends.ofOk (by assumption) ?_
    | with_reducible refine Ends.ofError (by assumption) ?_
    | with_reducible refine Keeps.ofSnd (by assumption) ?_
    | intro _
    | simp only [Keeps.record_iff]
    | with_reducible fail_if_success skip

theorem State.branch_keeps {s0 : State} {x1 : State} {x2} {x3} {x4} {x5} {x6} {x7} (h1 : Keeps s0 x1) :
    Keeps s0 (State.branch x1 x2 x3 x4 x5 x6 x7) := by
  unfold State.branch
  repeat' first
    | with_reducible assumption
    | with_reducible apply State.tidy_keeps
    | with_reducible apply Ends.pure
    | with_reducible apply Ends.ite
    | with_reducible apply Ends.get_bind
    | with_reducible apply Ends.set_bind
    | with_reducible apply Ends.modify_bind
    | with_reducible apply Ends.set
    | with_reducible apply Ends.changed
    | with_reducible apply Ends.bind
    | with_reducible refine Ends.ofOk (by assumption) ?_
    | with_reducible refine Ends.ofError (by assumption) ?_
    | with_reducible refine Keeps.ofSnd (by assumption) ?_
    | intro _
    | simp only [Keeps.record_iff]
    | split
    | with_reducible fail_if_success skip

theorem fenceHostStep_keeps {s0 : State} {x1} {x2 : State} (h2 : Keeps s0 x2) :
    Ends s0 x2 (fenceHostStep x1) := by
  unfold fenceHostStep
  repeat' first
    | with_reducible assumption
    | with_reducible apply State.send_keeps
    | with_reducible apply State.closePath_keeps
    | with_reducible apply State.setCore_keeps
    | with_reducible apply Ends.pure
    | with_reducible apply Ends.throw
    | with_reducible apply Ends.ite
    | with_reducible apply Ends.get_bind
    | with_reducible apply Ends.set_bind
    | with_reducible apply Ends.modify_bind
    | with_reducible apply Ends.set
    | with_reducible apply Ends.changed
    | with_reducible apply Ends.bind
    | with_reducible refine Keeps.ofSnd (by assumption) ?_
    | with_reducible refine Keeps.ofFst (by assumption) ?_
    | with_reducible apply Keeps.foldl
    | with_reducible apply Keeps.foldlFst
    | with_reducible apply Keeps.foldlSnd
    | intro _
    | simp only [Keeps.record_iff]
    | split
    | (rename_i e; nomatch (e : none = some _))
    | (rename_i e; cases (e : some _ = some _))
    | (rename_i e; dsimp only at e)
    | (rename_i e; split at e)
    | with_reducible fail_if_success skip

theorem fenceDevStep_keeps {s0 : State} {x1} {x2 : State} (h2 : Keeps s0 x2) :
    Ends s0 x2 (fenceDevStep x1) := by
  unfold fenceDevStep
  repeat' first
    | with_reducible assumption
    | with_reducible apply State.closePath_keeps
    | with_reducible apply Ends.pure
    | with_reducible apply Ends.throw
    | with_reducible apply Ends.ite
    | with_reducible apply Ends.get_bind
    | with_reducible apply Ends.set_bind
    | with_reducible apply Ends.modify_bind
    | with_reducible apply Ends.set
    | with_reducible apply Ends.changed
    | with_reducible apply Ends.bind
    | with_reducible refine Keeps.ofSnd (by assumption) ?_
    | with_reducible refine Keeps.ofFst (by assumption) ?_
    | intro _
    | simp only [Keeps.record_iff]
    | split
    | (rename_i e; nomatch (e : none = some _))
    | (rename_i e; cases (e : some _ = some _))
    | (rename_i e; dsimp only at e)
    | (rename_i e; split at e)
    | with_reducible fail_if_success skip

end Sys2Proof.Machine
end

