-- ==== Sys2Proof/Laws/KeepsTidyMemory.lean ====
section
/-! SUPPORT. What the operations of Machine/TidyMemory.lean keep. -/

set_option linter.all false

namespace Sys2Proof.Machine

theorem alignCheck_keeps {s0 : State} {x1} {x2} {x3 : State} (h3 : Keeps s0 x3) :
    Ends s0 x3 (alignCheck x1 x2) := by
  unfold alignCheck
  repeat' first
    | with_reducible assumption
    | with_reducible apply Ends.pure
    | with_reducible apply Ends.throw
    | with_reducible apply Ends.ite
    | with_reducible apply Ends.get_bind
    | with_reducible apply Ends.set_bind
    | with_reducible apply Ends.modify_bind
    | with_reducible apply Ends.set
    | with_reducible apply Ends.changed
    | with_reducible apply Ends.bind
    | with_reducible refine Keeps.ofSnd (by assumption) ?_
    | intro _
    | simp only [Keeps.record_iff]
    | split
    | (rename_i e; nomatch (e : none = some _))
    | (rename_i e; cases (e : some _ = some _))
    | (rename_i e; dsimp only at e)
    | (rename_i e; split at e)
    | with_reducible fail_if_success skip

theorem State.loadOp_keeps {s0 : State} {x1 : State} {x2} {x3} {x4} {x5} (h1 : Keeps s0 x1) :
    Keeps s0 (State.loadOp x1 x2 x3 x4 x5) := by
  unfold State.loadOp
  repeat' first
    | with_reducible assumption
    | with_reducible apply State.tidy_keeps
    | with_reducible apply alignCheck_keeps
    | with_reducible apply coreLoad_keeps
    | with_reducible apply Ends.pure
    | with_reducible apply Ends.ite
    | with_reducible apply Ends.get_bind
    | with_reducible apply Ends.set_bind
    | with_reducible apply Ends.modify_bind
    | with_reducible apply Ends.set
    | with_reducible apply Ends.changed
    | with_reducible apply Ends.bind
    | with_reducible refine Ends.ofOk (by assumption) ?_
    | with_reducible refine Ends.ofError (by assumption) ?_
    | with_reducible refine Keeps.ofSnd (by assumption) ?_
    | with_reducible refine Keeps.ofFst (by assumption) ?_
    | intro _
    | simp only [Keeps.record_iff]
    | split
    | with_reducible fail_if_success skip

theorem State.storeOp_keeps {s0 : State} {x1 : State} {x2} {x3} {x4} {x5} {x6 : Nat → M Unit} (h1 : Keeps s0 x1) (f6 : ∀ a0 u, Keeps s0 u → Ends s0 u (x6 a0)) :
    Keeps s0 (State.storeOp x1 x2 x3 x4 x5 x6) := by
  unfold State.storeOp
  repeat' first
    | with_reducible assumption
    | with_reducible apply State.tidy_keeps
    | with_reducible apply alignCheck_keeps
    | with_reducible apply coreStore_keeps
    | with_reducible apply f6
    | with_reducible apply Ends.pure
    | with_reducible apply Ends.ite
    | with_reducible apply Ends.get_bind
    | with_reducible apply Ends.set_bind
    | with_reducible apply Ends.modify_bind
    | with_reducible apply Ends.set
    | with_reducible apply Ends.changed
    | with_reducible apply Ends.bind
    | with_reducible refine Ends.ofOk (by assumption) ?_
    | with_reducible refine Ends.ofError (by assumption) ?_
    | with_reducible refine Keeps.ofSnd (by assumption) ?_
    | intro _
    | simp only [Keeps.record_iff]
    | with_reducible fail_if_success skip

theorem releaseStep_keeps {s0 : State} {x1} {x2} {x3 : State} (h3 : Keeps s0 x3) :
    Ends s0 x3 (releaseStep x1 x2) := by
  unfold releaseStep
  repeat' first
    | with_reducible assumption
    | with_reducible apply fenceDevStep_keeps
    | with_reducible apply translate_keeps
    | with_reducible apply fenceHostStep_keeps
    | with_reducible apply Ends.pure
    | with_reducible apply Ends.ite
    | with_reducible apply Ends.get_bind
    | with_reducible apply Ends.set_bind
    | with_reducible apply Ends.modify_bind
    | with_reducible apply Ends.set
    | with_reducible apply Ends.changed
    | with_reducible apply Ends.bind
    | with_reducible refine Ends.ofOk (by assumption) ?_
    | with_reducible refine Ends.ofError (by assumption) ?_
    | with_reducible refine Keeps.ofSnd (by assumption) ?_
    | with_reducible refine Keeps.ofFst (by assumption) ?_
    | intro _
    | simp only [Keeps.record_iff]
    | split
    | (rename_i e; nomatch (e : none = some _))
    | (rename_i e; cases (e : some _ = some _))
    | (rename_i e; dsimp only at e)
    | (rename_i e; split at e)
    | with_reducible fail_if_success skip

theorem State.atomic_keeps {s0 : State} {x1 : State} {x2} {x3} {x4} {x5} {x6} (h1 : Keeps s0 x1) :
    Keeps s0 (State.atomic x1 x2 x3 x4 x5 x6) := by
  unfold State.atomic
  repeat' first
    | with_reducible assumption
    | with_reducible apply State.tidy_keeps
    | with_reducible apply coreLoad_keeps
    | with_reducible apply State.logWord_keeps
    | with_reducible apply State.draw_keeps
    | with_reducible apply State.write_keeps
    | with_reducible apply alignCheck_keeps
    | with_reducible apply Ends.pure
    | with_reducible apply Ends.throw
    | with_reducible apply Ends.ite
    | with_reducible apply Ends.get_bind
    | with_reducible apply Ends.set_bind
    | with_reducible apply Ends.modify_bind
    | with_reducible apply Ends.set
    | with_reducible apply Ends.changed
    | with_reducible apply Ends.bind
    | with_reducible refine Ends.ofOk (by assumption) ?_
    | with_reducible refine Ends.ofError (by assumption) ?_
    | with_reducible refine Keeps.ofSnd (by assumption) ?_
    | with_reducible refine Keeps.ofFst (by assumption) ?_
    | intro _
    | simp only [Keeps.record_iff]
    | split
    | with_reducible fail_if_success skip

theorem State.atomicAlu_keeps {s0 : State} {x1 : State} {x2} {x3} {x4} {x5} (h1 : Keeps s0 x1) :
    Keeps s0 (State.atomicAlu x1 x2 x3 x4 x5) := by
  unfold State.atomicAlu
  repeat' first
    | with_reducible assumption
    | with_reducible apply State.atomic_keeps
    | with_reducible refine Keeps.ofSnd (by assumption) ?_
    | intro _
    | simp only [Keeps.record_iff]
    | with_reducible fail_if_success skip

theorem vectorCheck_keeps {s0 : State} {x1} {x2} {x3} {x4 : State} (h4 : Keeps s0 x4) :
    Ends s0 x4 (vectorCheck x1 x2 x3) := by
  unfold vectorCheck
  repeat' first
    | with_reducible assumption
    | with_reducible apply Ends.pure
    | with_reducible apply Ends.throw
    | with_reducible apply Ends.ite
    | with_reducible apply Ends.get_bind
    | with_reducible apply Ends.set_bind
    | with_reducible apply Ends.modify_bind
    | with_reducible apply Ends.set
    | with_reducible apply Ends.changed
    | with_reducible apply Ends.bind
    | with_reducible refine Keeps.ofSnd (by assumption) ?_
    | intro _
    | simp only [Keeps.record_iff]
    | split
    | (rename_i e; nomatch (e : none = some _))
    | (rename_i e; cases (e : some _ = some _))
    | (rename_i e; dsimp only at e)
    | (rename_i e; split at e)
    | with_reducible fail_if_success skip

theorem loadRuns_keeps {s0 : State} {x1} {x2} {x3} {x4 : State} (h4 : Keeps s0 x4) :
    Ends s0 x4 (loadRuns x1 x2 x3) := by
  revert x4 h4
  fun_induction loadRuns x1 x2 x3
  all_goals (try dsimp +zetaDelta only at *)
  all_goals (try intro x4 h4)
  all_goals
    repeat' first
    | with_reducible assumption
    | with_reducible apply coreLoad_keeps
    | with_reducible apply Ends.pure
    | with_reducible apply Ends.ite
    | with_reducible apply Ends.get_bind
    | with_reducible apply Ends.set_bind
    | with_reducible apply Ends.modify_bind
    | with_reducible apply Ends.set
    | with_reducible apply Ends.changed
    | with_reducible apply Ends.bind
    | with_reducible refine Ends.ofOk (by assumption) ?_
    | with_reducible refine Ends.ofError (by assumption) ?_
    | with_reducible refine Keeps.ofSnd (by assumption) ?_
    | with_reducible refine Keeps.ofFst (by assumption) ?_
    | with_reducible refine (by assumption : ∀ {x : State}, Keeps _ x → Ends _ x _) ?_
    | with_reducible refine (by assumption : ∀ a, ∀ {x : State}, Keeps _ x → Ends _ x _) _ ?_
    | with_reducible refine (by assumption : ∀ a b, ∀ {x : State}, Keeps _ x → Ends _ x _) _ _ ?_
    | with_reducible refine (by assumption : _ → _) ?_
    | with_reducible refine (by assumption : ∀ _, _ → _) _ ?_
    | with_reducible refine (by assumption : ∀ _ _, _ → _) _ _ ?_
    | intro _
    | simp only [Keeps.record_iff]
    | (rename_i e; nomatch (e : none = some _))
    | (rename_i e; cases (e : some _ = some _))
    | (rename_i e; dsimp only at e)
    | (rename_i e; split at e)
    | with_reducible fail_if_success skip
    | dsimp +zetaDelta only

theorem storeRuns_keeps {s0 : State} {x1} {x2} {x3} {x4} {x5 : State} (h5 : Keeps s0 x5) :
    Ends s0 x5 (storeRuns x1 x2 x3 x4) := by
  unfold storeRuns
  repeat' first
    | with_reducible assumption
    | with_reducible apply storeAll_keeps
    | with_reducible apply Ends.pure
    | with_reducible apply Ends.ite
    | with_reducible apply Ends.get_bind
    | with_reducible apply Ends.set_bind
    | with_reducible apply Ends.modify_bind
    | with_reducible apply Ends.set
    | with_reducible apply Ends.changed
    | with_reducible apply Ends.bind
    | with_reducible refine Ends.ofOk (by assumption) ?_
    | with_reducible refine Ends.ofError (by assumption) ?_
    | with_reducible refine Keeps.ofSnd (by assumption) ?_
    | intro _
    | simp only [Keeps.record_iff]
    | (rename_i e; nomatch (e : none = some _))
    | (rename_i e; cases (e : some _ = some _))
    | (rename_i e; dsimp only at e)
    | (rename_i e; split at e)
    | with_reducible fail_if_success skip

theorem State.vload_keeps {s0 : State} {x1 : State} {x2} {x3} {x4} (h1 : Keeps s0 x1) :
    Keeps s0 (State.vload x1 x2 x3 x4) := by
  unfold State.vload
  repeat' first
    | with_reducible assumption
    | with_reducible apply State.tidy_keeps
    | with_reducible apply vectorCheck_keeps
    | with_reducible apply loadRuns_keeps
    | with_reducible apply Ends.pure
    | with_reducible apply Ends.ite
    | with_reducible apply Ends.get_bind
    | with_reducible apply Ends.set_bind
    | with_reducible apply Ends.modify_bind
    | with_reducible apply Ends.set
    | with_reducible apply Ends.changed
    | with_reducible apply Ends.bind
    | with_reducible refine Ends.ofOk (by assumption) ?_
    | with_reducible refine Ends.ofError (by assumption) ?_
    | with_reducible refine Keeps.ofSnd (by assumption) ?_
    | with_reducible refine Keeps.ofFst (by assumption) ?_
    | intro _
    | simp only [Keeps.record_iff]
    | with_reducible fail_if_success skip

theorem State.vstore_keeps {s0 : State} {x1 : State} {x2} {x3} {x4} (h1 : Keeps s0 x1) :
    Keeps s0 (State.vstore x1 x2 x3 x4) := by
  unfold State.vstore
  repeat' first
    | with_reducible assumption
    | with_reducible apply State.tidy_keeps
    | with_reducible apply vectorCheck_keeps
    | with_reducible apply storeRuns_keeps
    | with_reducible apply Ends.pure
    | with_reducible apply Ends.ite
    | with_reducible apply Ends.get_bind
    | with_reducible apply Ends.set_bind
    | with_reducible apply Ends.modify_bind
    | with_reducible apply Ends.set
    | with_reducible apply Ends.changed
    | with_reducible apply Ends.bind
    | with_reducible refine Ends.ofOk (by assumption) ?_
    | with_reducible refine Ends.ofError (by assumption) ?_
    | with_reducible refine Keeps.ofSnd (by assumption) ?_
    | intro _
    | simp only [Keeps.record_iff]
    | with_reducible fail_if_success skip

end Sys2Proof.Machine
end

