-- ==== Sys2Proof/Laws/KeepsTiers.lean ====
section
/-! SUPPORT. What the operations of Machine/Tiers.lean keep. -/

set_option linter.all false

namespace Sys2Proof.Machine

theorem State.takeFrameN_keeps {s0 : State} {x1 : State} {x2} {x3} (h1 : Keeps s0 x1) :
    Keeps s0 (State.takeFrameN x1 x2 x3).2 := by
  revert h1
  fun_induction State.takeFrameN x1 x2 x3
  all_goals (try dsimp +zetaDelta only at *)
  all_goals (try intro h1)
  all_goals
    repeat' first
    | with_reducible assumption
    | with_reducible apply State.setObj_keeps
    | with_reducible apply State.addObj_keeps
    | with_reducible refine Keeps.ofSnd (by assumption) ?_
    | with_reducible refine (by assumption : ∀ {x : State}, Keeps _ x → Ends _ x _) ?_
    | with_reducible refine (by assumption : ∀ a, ∀ {x : State}, Keeps _ x → Ends _ x _) _ ?_
    | with_reducible refine (by assumption : ∀ a b, ∀ {x : State}, Keeps _ x → Ends _ x _) _ _ ?_
    | with_reducible refine (by assumption : _ → _) ?_
    | with_reducible refine (by assumption : ∀ _, _ → _) _ ?_
    | with_reducible refine (by assumption : ∀ _ _, _ → _) _ _ ?_
    | intro _
    | simp only [Keeps.record_iff]
    | split
    | with_reducible fail_if_success skip
    | dsimp +zetaDelta only

theorem State.takeFrame_keeps {s0 : State} {x1 : State} {x2} {x3} (h1 : Keeps s0 x1) :
    Keeps s0 (State.takeFrame x1 x2 x3).2 := by
  unfold State.takeFrame
  repeat' first
    | with_reducible assumption
    | with_reducible apply State.takeFrameN_keeps
    | with_reducible refine Keeps.ofSnd (by assumption) ?_
    | with_reducible refine Keeps.ofFst (by assumption) ?_
    | intro _
    | simp only [Keeps.record_iff]
    | split
    | with_reducible fail_if_success skip

theorem State.propose_keeps {s0 : State} {x1 : State} {x2} {x3} {x4} {x5} (h1 : Keeps s0 x1) :
    Keeps s0 (State.propose x1 x2 x3 x4 x5) := by
  unfold State.propose
  repeat' first
    | with_reducible assumption
    | with_reducible apply State.proposalRecord_keeps
    | with_reducible refine Keeps.ofSnd (by assumption) ?_
    | with_reducible refine Keeps.ofFst (by assumption) ?_
    | intro _
    | simp only [Keeps.record_iff]
    | split
    | with_reducible fail_if_success skip

theorem State.performChange_keeps {s0 : State} {x1 : State} {x2} {x3} {x4} {x5} {x6} {x7} (h1 : Keeps s0 x1) :
    Keeps s0 (State.performChange x1 x2 x3 x4 x5 x6 x7) := by
  unfold State.performChange
  repeat' first
    | with_reducible assumption
    | with_reducible apply State.changeRecord_keeps
    | with_reducible apply State.dropRange_keeps
    | with_reducible apply State.withdrawFolio_keeps
    | with_reducible apply State.takeFrame_keeps
    | with_reducible apply State.propose_keeps
    | with_reducible apply State.putLeaves_keeps
    | with_reducible apply State.copyAtoms_keeps
    | with_reducible apply State.setHomes_keeps
    | with_reducible refine Keeps.ofSnd (by assumption) ?_
    | with_reducible refine Keeps.ofFst (by assumption) ?_
    | intro _
    | simp only [Keeps.record_iff]
    | split
    | with_reducible fail_if_success skip

theorem State.applyChange_keeps {s0 : State} {x1 : State} {x2} {x3} {x4} {x5} {x6} {x7} {x8} (h1 : Keeps s0 x1) :
    Keeps s0 (State.applyChange x1 x2 x3 x4 x5 x6 x7 x8) := by
  unfold State.applyChange
  repeat' first
    | with_reducible assumption
    | with_reducible apply State.propose_keeps
    | with_reducible apply State.performChange_keeps
    | with_reducible refine Keeps.ofSnd (by assumption) ?_
    | simp only [Keeps.record_iff]
    | split
    | with_reducible fail_if_success skip

theorem State.epochFolio_keeps {s0 : State} {x1} {x2} {x3 : State} {x4} (h3 : Keeps s0 x3) :
    Keeps s0 (State.epochFolio x1 x2 x3 x4) := by
  unfold State.epochFolio
  repeat' first
    | with_reducible assumption
    | with_reducible apply State.applyChange_keeps
    | with_reducible refine Keeps.ofSnd (by assumption) ?_
    | with_reducible refine Keeps.ofFst (by assumption) ?_
    | intro _
    | simp only [Keeps.record_iff]
    | split
    | with_reducible fail_if_success skip

theorem State.epochGrant_keeps {s0 : State} {x1 : State} {x2} (h1 : Keeps s0 x1) :
    Keeps s0 (State.epochGrant x1 x2) := by
  unfold State.epochGrant
  repeat' first
    | with_reducible assumption
    | with_reducible apply State.epochFolio_keeps
    | with_reducible refine Keeps.ofSnd (by assumption) ?_
    | with_reducible apply Keeps.foldl
    | with_reducible apply Keeps.foldlFst
    | with_reducible apply Keeps.foldlSnd
    | intro _
    | simp only [Keeps.record_iff]
    | split
    | with_reducible fail_if_success skip

theorem State.countShard_keeps {s0 : State} {x1 : State} {x2} (h1 : Keeps s0 x1) :
    Keeps s0 (State.countShard x1 x2) := by
  unfold State.countShard
  repeat' first
    | with_reducible assumption
    | with_reducible refine Keeps.ofSnd (by assumption) ?_
    | with_reducible refine Keeps.ofFst (by assumption) ?_
    | intro _
    | simp only [Keeps.record_iff]
    | split
    | with_reducible fail_if_success skip

theorem State.moveShardFolio_keeps {s0 : State} {x1} {x2} {x3} {x4} {x5} {x6} (h5 : Keeps s0 x5.1) :
    Keeps s0 (State.moveShardFolio x1 x2 x3 x4 x5 x6).1 := by
  unfold State.moveShardFolio
  repeat' first
    | with_reducible assumption
    | with_reducible apply State.applyChange_keeps
    | with_reducible refine Keeps.ofSnd (by assumption) ?_
    | with_reducible refine Keeps.ofFst (by assumption) ?_
    | intro _
    | simp only [Keeps.record_iff]
    | split
    | with_reducible fail_if_success skip

theorem State.moveShardIn_keeps {s0 : State} {x1} {x2} {x3} {x4} (h3 : Keeps s0 x3.1) :
    Keeps s0 (State.moveShardIn x1 x2 x3 x4).1 := by
  unfold State.moveShardIn
  repeat' first
    | with_reducible assumption
    | with_reducible apply State.moveShardFolio_keeps
    | with_reducible refine Keeps.ofSnd (by assumption) ?_
    | with_reducible apply Keeps.foldl
    | with_reducible apply Keeps.foldlFst
    | with_reducible apply Keeps.foldlSnd
    | intro _
    | simp only [Keeps.record_iff]
    | split
    | with_reducible fail_if_success skip

theorem State.moveShard_keeps {s0 : State} {x1 : State} {x2} {x3} (h1 : Keeps s0 x1) :
    Keeps s0 (State.moveShard x1 x2 x3).1 := by
  unfold State.moveShard
  repeat' first
    | with_reducible assumption
    | with_reducible apply State.moveShardIn_keeps
    | with_reducible refine Keeps.ofSnd (by assumption) ?_
    | with_reducible refine Keeps.ofFst (by assumption) ?_
    | with_reducible apply Keeps.foldl
    | with_reducible apply Keeps.foldlFst
    | with_reducible apply Keeps.foldlSnd
    | intro _
    | simp only [Keeps.record_iff]
    | split
    | with_reducible fail_if_success skip

theorem State.rebalance_succ (skip : List Nat) (load : AMap Nat) (moves : Nat) (s : State) (n : Nat) :
    State.rebalance skip load moves s (n + 1) =
      if moves = 0 then s
      else
        match s.nextShard skip load with
        | some (k, h, l) =>
          match s.moveShard k l with
          | (t, .none) => State.rebalance (k :: skip) load moves t n
          | (t, .proposed) => t
          | (t, .moved) =>
            let m := AMap.getD s.weevils.latched k 0
            State.rebalance skip (AMap.set (AMap.set load h (AMap.getD load h 0 - m)) l (AMap.getD load l 0 + m)) (moves - 1) t n
        | none => s := by
  delta State.rebalance
  rfl

theorem State.rebalance_keeps {s0 : State} {x1} {x2} {x3} {x4 : State} {x5} (h4 : Keeps s0 x4) :
    Keeps s0 (State.rebalance x1 x2 x3 x4 x5) := by
  induction x5 generalizing x1 x2 x3 x4 with
  | zero => exact h4
  | succ n ih =>
    rw [State.rebalance_succ]
    split
    · exact h4
    · split
      · split
        · rename_i e
          exact ih (Keeps.ofFst e (State.moveShard_keeps h4))
        · rename_i e
          exact Keeps.ofFst e (State.moveShard_keeps h4)
        · rename_i e
          exact ih (Keeps.ofFst e (State.moveShard_keeps h4))
      · exact h4

theorem State.latchShards_keeps {s0 : State} {x1 : State} (h1 : Keeps s0 x1) :
    Keeps s0 (State.latchShards x1) := by
  unfold State.latchShards
  repeat' first
    | with_reducible assumption
    | with_reducible refine Keeps.ofSnd (by assumption) ?_
    | with_reducible refine Keeps.ofFst (by assumption) ?_
    | intro _
    | simp only [Keeps.record_iff]
    | with_reducible fail_if_success skip

theorem State.countFullRing_keeps {s0 : State} {x1 : State} {x2} (h1 : Keeps s0 x1) :
    Keeps s0 (State.countFullRing x1 x2) := by
  unfold State.countFullRing
  repeat' first
    | with_reducible assumption
    | with_reducible apply State.countRaise_keeps
    | with_reducible refine Keeps.ofSnd (by assumption) ?_
    | simp only [Keeps.record_iff]
    | split
    | with_reducible fail_if_success skip

theorem State.epochEnd_keeps {s0 : State} {x1 : State} {x2} (h1 : Keeps s0 x1) :
    Keeps s0 (State.epochEnd x1 x2) := by
  unfold State.epochEnd
  repeat' first
    | with_reducible assumption
    | with_reducible apply State.countFullRing_keeps
    | with_reducible apply State.latchShards_keeps
    | with_reducible apply State.epochGrant_keeps
    | with_reducible apply State.rebalance_keeps
    | with_reducible refine Keeps.ofSnd (by assumption) ?_
    | with_reducible refine Keeps.ofFst (by assumption) ?_
    | with_reducible apply Keeps.foldl
    | with_reducible apply Keeps.foldlFst
    | with_reducible apply Keeps.foldlSnd
    | intro _
    | simp only [Keeps.record_iff]
    | with_reducible fail_if_success skip

theorem State.remapRow_keeps {s0 : State} {x1 : State} {x2} {x3} (h1 : Keeps s0 x1) :
    Keeps s0 (State.remapRow x1 x2 x3) := by
  unfold State.remapRow
  repeat' first
    | with_reducible assumption
    | with_reducible apply State.raise_keeps
    | with_reducible apply State.triggerChan_keeps
    | with_reducible apply State.addObj_keeps
    | with_reducible refine Keeps.ofSnd (by assumption) ?_
    | with_reducible refine Keeps.ofFst (by assumption) ?_
    | intro _
    | simp only [Keeps.record_iff]
    | split
    | with_reducible fail_if_success skip

theorem State.storeErrors_keeps {s0 : State} {x1 : State} {x2} {x3} {x4} {x5} (h1 : Keeps s0 x1) :
    Keeps s0 (State.storeErrors x1 x2 x3 x4 x5) := by
  unfold State.storeErrors
  repeat' first
    | with_reducible assumption
    | with_reducible apply State.addObj_keeps
    | with_reducible apply State.makePoison_keeps
    | with_reducible apply State.triggerSparing_keeps
    | with_reducible refine Keeps.ofSnd (by assumption) ?_
    | with_reducible refine Keeps.ofFst (by assumption) ?_
    | with_reducible apply Keeps.foldl
    | with_reducible apply Keeps.foldlFst
    | with_reducible apply Keeps.foldlSnd
    | intro _
    | simp only [Keeps.record_iff]
    | split
    | with_reducible fail_if_success skip

theorem State.channelErrors_keeps {s0 : State} {x1 : State} {x2} {x3} {x4} {x5} (h1 : Keeps s0 x1) :
    Keeps s0 (State.channelErrors x1 x2 x3 x4 x5) := by
  unfold State.channelErrors
  repeat' first
    | with_reducible assumption
    | with_reducible apply State.addObj_keeps
    | with_reducible apply State.makePoison_keeps
    | with_reducible apply State.remapRow_keeps
    | with_reducible apply State.triggerChan_keeps
    | with_reducible refine Keeps.ofSnd (by assumption) ?_
    | with_reducible refine Keeps.ofFst (by assumption) ?_
    | with_reducible apply Keeps.foldl
    | with_reducible apply Keeps.foldlFst
    | with_reducible apply Keeps.foldlSnd
    | intro _
    | simp only [Keeps.record_iff]
    | split
    | with_reducible fail_if_success skip

theorem State.parityDrop_keeps {s0 : State} {x1 : State} {x2} {x3} {x4} (h1 : Keeps s0 x1) :
    Keeps s0 (State.parityDrop x1 x2 x3 x4) := by
  unfold State.parityDrop
  repeat' first
    | with_reducible assumption
    | with_reducible apply State.setBuffer_keeps
    | with_reducible refine Keeps.ofSnd (by assumption) ?_
    | intro _
    | simp only [Keeps.record_iff]
    | with_reducible fail_if_success skip

theorem State.fenceErrors_keeps {s0 : State} {x1 : State} {x2} (h1 : Keeps s0 x1) :
    Keeps s0 (State.fenceErrors x1 x2) := by
  unfold State.fenceErrors
  repeat' first
    | with_reducible assumption
    | with_reducible refine Keeps.ofSnd (by assumption) ?_
    | with_reducible refine Keeps.ofFst (by assumption) ?_
    | with_reducible apply Keeps.foldl
    | with_reducible apply Keeps.foldlFst
    | with_reducible apply Keeps.foldlSnd
    | intro _
    | simp only [Keeps.record_iff]
    | with_reducible fail_if_success skip

theorem State.contextError_keeps {s0 : State} {x1 : State} {x2} (h1 : Keeps s0 x1) :
    Keeps s0 (State.contextError x1 x2) := by
  unfold State.contextError
  repeat' first
    | with_reducible assumption
    | with_reducible apply State.raise_keeps
    | with_reducible apply State.beginTeardown_keeps
    | with_reducible refine Keeps.ofSnd (by assumption) ?_
    | intro _
    | simp only [Keeps.record_iff]
    | split
    | with_reducible fail_if_success skip

theorem State.patrolScrub_keeps {s0 : State} {x1 : State} {x2} {x3} {x4} {x5} (h1 : Keeps s0 x1) :
    Keeps s0 (State.patrolScrub x1 x2 x3 x4 x5) := by
  unfold State.patrolScrub
  repeat' first
    | with_reducible assumption
    | with_reducible apply State.channelErrors_keeps
    | with_reducible apply State.storeErrors_keeps
    | with_reducible apply State.parityDrop_keeps
    | with_reducible apply State.fenceErrors_keeps
    | with_reducible apply State.contextError_keeps
    | with_reducible refine Keeps.ofSnd (by assumption) ?_
    | with_reducible apply Keeps.foldl
    | with_reducible apply Keeps.foldlFst
    | with_reducible apply Keeps.foldlSnd
    | intro _
    | simp only [Keeps.record_iff]
    | split
    | with_reducible fail_if_success skip

theorem State.remapDone_keeps {s0 : State} {x1 : State} {x2} {x3} (h1 : Keeps s0 x1) :
    Keeps s0 (State.remapDone x1 x2 x3) := by
  unfold State.remapDone
  repeat' first
    | with_reducible assumption
    | with_reducible refine Keeps.ofSnd (by assumption) ?_
    | intro _
    | simp only [Keeps.record_iff]
    | split
    | with_reducible fail_if_success skip

theorem State.capChannel_keeps {s0 : State} {x1 : State} {x2} (h1 : Keeps s0 x1) :
    Keeps s0 (State.capChannel x1 x2) := by
  unfold State.capChannel
  repeat' first
    | with_reducible assumption
    | with_reducible apply State.raise_keeps
    | with_reducible refine Keeps.ofSnd (by assumption) ?_
    | simp only [Keeps.record_iff]
    | split
    | with_reducible fail_if_success skip

theorem State.capStack_keeps {s0 : State} {x1 : State} {x2} (h1 : Keeps s0 x1) :
    Keeps s0 (State.capStack x1 x2) := by
  unfold State.capStack
  repeat' first
    | with_reducible assumption
    | with_reducible apply State.draw_keeps
    | with_reducible apply State.raise_keeps
    | with_reducible refine Keeps.ofSnd (by assumption) ?_
    | with_reducible refine Keeps.ofFst (by assumption) ?_
    | simp only [Keeps.record_iff]
    | split
    | with_reducible fail_if_success skip

theorem State.liftStack_keeps {s0 : State} {x1 : State} {x2} (h1 : Keeps s0 x1) :
    Keeps s0 (State.liftStack x1 x2) := by
  unfold State.liftStack
  repeat' first
    | with_reducible assumption
    | with_reducible refine Keeps.ofSnd (by assumption) ?_
    | simp only [Keeps.record_iff]
    | split
    | with_reducible fail_if_success skip

end Sys2Proof.Machine
end

