-- ==== Sys2Proof/Laws/KeepsUpdate.lean ====
section
/-! SUPPORT. What the operations of Machine/Update.lean keep. -/

set_option linter.all false

namespace Sys2Proof.Machine

theorem readUpdate_keeps {s0 : State} {x1} {x2} {x3 : State} (h3 : Keeps s0 x3) :
    Ends s0 x3 (readUpdate x1 x2) := by
  unfold readUpdate
  repeat' first
    | with_reducible assumption
    | with_reducible apply readNum_keeps
    | with_reducible apply readVA_keeps
    | with_reducible apply readTcbs_keeps
    | with_reducible apply readWords_keeps
    | with_reducible apply failWith_keeps
    | with_reducible apply Ends.pure
    | with_reducible apply Ends.ite
    | with_reducible apply Ends.get_bind
    | with_reducible apply Ends.set_bind
    | with_reducible apply Ends.modify_bind
    | with_reducible apply Ends.set
    | with_reducible apply Ends.changed
    | with_reducible apply Ends.bind
    | with_reducible apply Ends.tryCatch
    | with_reducible refine Ends.ofOk (by assumption) ?_
    | with_reducible refine Ends.ofError (by assumption) ?_
    | with_reducible refine Keeps.ofSnd (by assumption) ?_
    | with_reducible refine Keeps.ofFst (by assumption) ?_
    | intro _
    | simp only [Keeps.record_iff]
    | split
    | (rename_i e; nomatch (e : none = some _))
    | (rename_i e; cases (e : some _ = some _))
    | (rename_i e; dsimp only at e)
    | (rename_i e; split at e)
    | with_reducible fail_if_success skip

theorem takeGrad_keeps {s0 : State} {x1} {x2} {x3} {x4} {x5} {x6 : State} (h6 : Keeps s0 x6) :
    Ends s0 x6 (takeGrad x1 x2 x3 x4 x5) := by
  unfold takeGrad
  repeat' first
    | with_reducible assumption
    | with_reducible apply attempt_keeps
    | with_reducible apply readMarked_keeps
    | with_reducible apply Ends.pure
    | with_reducible apply Ends.ite
    | with_reducible apply Ends.get_bind
    | with_reducible apply Ends.set_bind
    | with_reducible apply Ends.modify_bind
    | with_reducible apply Ends.set
    | with_reducible apply Ends.changed
    | with_reducible apply Ends.bind
    | with_reducible apply Ends.tryCatch
    | with_reducible refine Ends.ofOk (by assumption) ?_
    | with_reducible refine Ends.ofError (by assumption) ?_
    | with_reducible refine Keeps.ofSnd (by assumption) ?_
    | with_reducible refine Keeps.ofFst (by assumption) ?_
    | intro _
    | simp only [Keeps.record_iff]
    | split
    | (rename_i e; nomatch (e : none = some _))
    | (rename_i e; cases (e : some _ = some _))
    | (rename_i e; dsimp only at e)
    | (rename_i e; split at e)
    | with_reducible fail_if_success skip

theorem combine_keeps {s0 : State} {x1} {x2} {x3} {x4} {x5} {x6} {x7} {x8} {x9} {x10 : State} (h10 : Keeps s0 x10) :
    Ends s0 x10 (combine x1 x2 x3 x4 x5 x6 x7 x8 x9) := by
  revert h10
  induction x8 generalizing x9 x10 with
  | zero =>
    intro h10
    unfold combine
    repeat' first
      | with_reducible assumption
      | with_reducible apply takeNum_keeps
      | with_reducible apply takeGrad_keeps
      | with_reducible apply Ends.pure
      | with_reducible apply Ends.ite
      | with_reducible apply Ends.get_bind
      | with_reducible apply Ends.set_bind
      | with_reducible apply Ends.modify_bind
      | with_reducible apply Ends.set
      | with_reducible apply Ends.changed
      | with_reducible apply Ends.bind
      | with_reducible apply Ends.tryCatch
      | with_reducible refine Ends.ofOk (by assumption) ?_
      | with_reducible refine Ends.ofError (by assumption) ?_
      | with_reducible refine Keeps.ofSnd (by assumption) ?_
      | with_reducible refine Keeps.ofFst (by assumption) ?_
        | intro _
      | simp only [Keeps.record_iff]
      | split
      | (rename_i e; nomatch (e : none = some _))
      | (rename_i e; cases (e : some _ = some _))
      | (rename_i e; dsimp only at e)
      | (rename_i e; split at e)
      | with_reducible fail_if_success skip
  | succ _ ih =>
    intro h10
    unfold combine
    repeat' first
      | with_reducible apply ih
      | with_reducible assumption
      | with_reducible apply takeNum_keeps
      | with_reducible apply takeGrad_keeps
      | with_reducible apply Ends.pure
      | with_reducible apply Ends.ite
      | with_reducible apply Ends.get_bind
      | with_reducible apply Ends.set_bind
      | with_reducible apply Ends.modify_bind
      | with_reducible apply Ends.set
      | with_reducible apply Ends.changed
      | with_reducible apply Ends.bind
      | with_reducible apply Ends.tryCatch
      | with_reducible refine Ends.ofOk (by assumption) ?_
      | with_reducible refine Ends.ofError (by assumption) ?_
      | with_reducible refine Keeps.ofSnd (by assumption) ?_
      | with_reducible refine Keeps.ofFst (by assumption) ?_
      | apply ih
      | intro _
      | simp only [Keeps.record_iff]
      | split
      | (rename_i e; nomatch (e : none = some _))
      | (rename_i e; cases (e : some _ = some _))
      | (rename_i e; dsimp only at e)
      | (rename_i e; split at e)
      | with_reducible fail_if_success skip

theorem updateIntake_keeps {s0 : State} {x1} {x2} {x3} {x4} {x5} {x6} {x7} {x8} {x9 : State} (h9 : Keeps s0 x9) :
    Ends s0 x9 (updateIntake x1 x2 x3 x4 x5 x6 x7 x8) := by
  unfold updateIntake
  repeat' first
    | with_reducible assumption
    | with_reducible apply combine_keeps
    | with_reducible apply takeNum_keeps
    | with_reducible apply Ends.pure
    | with_reducible apply Ends.ite
    | with_reducible apply Ends.get_bind
    | with_reducible apply Ends.set_bind
    | with_reducible apply Ends.modify_bind
    | with_reducible apply Ends.set
    | with_reducible apply Ends.changed
    | with_reducible apply Ends.bind
    | with_reducible apply Ends.tryCatch
    | with_reducible refine Ends.ofOk (by assumption) ?_
    | with_reducible refine Ends.ofError (by assumption) ?_
    | with_reducible refine Keeps.ofSnd (by assumption) ?_
    | with_reducible refine Keeps.ofFst (by assumption) ?_
    | intro _
    | simp only [Keeps.record_iff]
    | split
    | (rename_i e; nomatch (e : none = some _))
    | (rename_i e; cases (e : some _ = some _))
    | (rename_i e; dsimp only at e)
    | (rename_i e; split at e)
    | with_reducible fail_if_success skip

theorem State.slotWrite_keeps {s0 : State} {x1 : State} {x2} {x3} {x4} (h1 : Keeps s0 x1) :
    Keeps s0 (State.slotWrite x1 x2 x3 x4) := by
  unfold State.slotWrite
  repeat' first
    | with_reducible assumption
    | with_reducible apply State.clearPoison_keeps
    | with_reducible apply State.write_keeps
    | with_reducible refine Keeps.ofSnd (by assumption) ?_
    | with_reducible apply Keeps.foldl
    | with_reducible apply Keeps.foldlFst
    | with_reducible apply Keeps.foldlSnd
    | intro _
    | simp only [Keeps.record_iff]
    | with_reducible fail_if_success skip

theorem State.writeReplicas_keeps {s0 : State} {x1 : State} {x2} {x3} {x4} (h1 : Keeps s0 x1) :
    Keeps s0 (State.writeReplicas x1 x2 x3 x4) := by
  unfold State.writeReplicas
  repeat' first
    | with_reducible assumption
    | with_reducible apply State.slotWrite_keeps
    | with_reducible refine Keeps.ofSnd (by assumption) ?_
    | with_reducible apply Keeps.foldl
    | with_reducible apply Keeps.foldlFst
    | with_reducible apply Keeps.foldlSnd
    | intro _
    | simp only [Keeps.record_iff]
    | with_reducible fail_if_success skip

theorem State.mirrorRow_keeps {s0 : State} {x1 : State} {x2} {x3} {x4} {x5} (h1 : Keeps s0 x1) :
    Keeps s0 (State.mirrorRow x1 x2 x3 x4 x5).2 := by
  unfold State.mirrorRow
  repeat' first
    | with_reducible assumption
    | with_reducible apply State.addObj_keeps
    | with_reducible apply State.writeReplicas_keeps
    | with_reducible refine Keeps.ofSnd (by assumption) ?_
    | with_reducible refine Keeps.ofFst (by assumption) ?_
    | intro _
    | simp only [Keeps.record_iff]
    | split
    | with_reducible fail_if_success skip

theorem State.countRowWrite_keeps {s0 : State} {x1 : State} {x2} {x3} (h1 : Keeps s0 x1) :
    Keeps s0 (State.countRowWrite x1 x2 x3) := by
  unfold State.countRowWrite
  repeat' first
    | with_reducible assumption
    | with_reducible apply State.countShard_keeps
    | with_reducible apply State.addObj_keeps
    | with_reducible refine Keeps.ofSnd (by assumption) ?_
    | with_reducible refine Keeps.ofFst (by assumption) ?_
    | simp only [Keeps.record_iff]
    | with_reducible fail_if_success skip

theorem State.nonFiniteRow_keeps {s0 : State} {x1 : State} {x2} {x3} {x4} (h1 : Keeps s0 x1) :
    Keeps s0 (State.nonFiniteRow x1 x2 x3 x4) := by
  unfold State.nonFiniteRow
  repeat' first
    | with_reducible assumption
    | with_reducible apply State.countRaise_keeps
    | with_reducible refine Keeps.ofSnd (by assumption) ?_
    | simp only [Keeps.record_iff]
    | split
    | with_reducible fail_if_success skip

theorem State.queueUpdate_keeps {s0 : State} {x1 : State} {x2} {x3} (h1 : Keeps s0 x1) :
    Keeps s0 (State.queueUpdate x1 x2 x3) := by
  unfold State.queueUpdate
  repeat' first
    | with_reducible assumption
    | with_reducible apply State.addObj_keeps
    | with_reducible refine Keeps.ofSnd (by assumption) ?_
    | simp only [Keeps.record_iff]
    | with_reducible fail_if_success skip

theorem State.freeUpdates_keeps {s0 : State} {x1 : State} {x2} (h1 : Keeps s0 x1) :
    Keeps s0 (State.freeUpdates x1 x2) := by
  unfold State.freeUpdates
  repeat' first
    | with_reducible assumption
    | with_reducible apply State.draw_keeps
    | with_reducible apply State.addObj_keeps
    | with_reducible refine Keeps.ofSnd (by assumption) ?_
    | with_reducible refine Keeps.ofFst (by assumption) ?_
    | with_reducible apply Keeps.foldl
    | with_reducible apply Keeps.foldlFst
    | with_reducible apply Keeps.foldlSnd
    | intro _
    | simp only [Keeps.record_iff]
    | split
    | with_reducible fail_if_success skip

theorem rowRmw_keeps {s0 : State} {x1} {x2} {x3} {x4} {x5} {x6} {x7} {x8 : State} (h8 : Keeps s0 x8) :
    Ends s0 x8 (rowRmw x1 x2 x3 x4 x5 x6 x7) := by
  unfold rowRmw
  repeat' first
    | with_reducible assumption
    | with_reducible apply rowHome_keeps
    | with_reducible apply State.noteUse_keeps
    | with_reducible apply readDevice_keeps
    | with_reducible apply writeDevice_keeps
    | with_reducible apply Ends.pure
    | with_reducible apply Ends.throw
    | with_reducible apply Ends.ite
    | with_reducible apply Ends.get_bind
    | with_reducible apply Ends.set_bind
    | with_reducible apply Ends.modify_bind
    | with_reducible apply Ends.set
    | with_reducible apply Ends.changed
    | with_reducible apply Ends.bind
    | with_reducible refine Ends.ofOk (by assumption) ?_
    | with_reducible refine Ends.ofError (by assumption) ?_
    | with_reducible refine Keeps.ofSnd (by assumption) ?_
    | with_reducible refine Keeps.ofFst (by assumption) ?_
    | intro _
    | simp only [Keeps.record_iff]
    | split
    | (rename_i e; nomatch (e : none = some _))
    | (rename_i e; cases (e : some _ = some _))
    | (rename_i e; dsimp only at e)
    | (rename_i e; split at e)
    | with_reducible fail_if_success skip

theorem State.endUpdate_keeps {s0 : State} {x1 : State} {x2} {x3} (h1 : Keeps s0 x1) :
    Keeps s0 (State.endUpdate x1 x2 x3) := by
  unfold State.endUpdate
  repeat' first
    | with_reducible assumption
    | with_reducible apply State.endTable_keeps
    | with_reducible apply State.freeUpdates_keeps
    | with_reducible apply State.dropRows_keeps
    | with_reducible apply State.runM_keeps
    | with_reducible apply attempt_keeps
    | with_reducible apply writeVA_keeps
    | with_reducible apply State.notePassed_keeps
    | with_reducible apply Ends.pure
    | with_reducible apply Ends.ite
    | with_reducible apply Ends.get_bind
    | with_reducible apply Ends.set_bind
    | with_reducible apply Ends.modify_bind
    | with_reducible apply Ends.set
    | with_reducible apply Ends.changed
    | with_reducible apply Ends.bind
    | with_reducible apply Ends.tryCatch
    | with_reducible refine Ends.ofOk (by assumption) ?_
    | with_reducible refine Ends.ofError (by assumption) ?_
    | with_reducible refine Keeps.ofSnd (by assumption) ?_
    | with_reducible refine Keeps.ofFst (by assumption) ?_
    | intro _
    | simp only [Keeps.record_iff]
    | split
    | with_reducible fail_if_success skip

theorem State.updateDone_keeps {s0 : State} {x1 : State} {x2} {x3} {x4} {x5} {x6} {x7} (h1 : Keeps s0 x1) :
    Keeps s0 (State.updateDone x1 x2 x3 x4 x5 x6 x7) := by
  unfold State.updateDone
  repeat' first
    | with_reducible assumption
    | with_reducible apply State.modSlice_keeps
    | with_reducible refine Keeps.ofSnd (by assumption) ?_
    | with_reducible refine Keeps.ofFst (by assumption) ?_
    | intro _
    | simp only [Keeps.record_iff]
    | split
    | with_reducible fail_if_success skip

theorem State.updateRow_keeps {s0 : State} {x1 : State} {x2} {x3} {x4} (h1 : Keeps s0 x1) :
    Keeps s0 (State.updateRow x1 x2 x3 x4) := by
  unfold State.updateRow
  repeat' first
    | with_reducible assumption
    | with_reducible apply State.queueUpdate_keeps
    | with_reducible apply State.runM_keeps
    | with_reducible apply rowRmw_keeps
    | with_reducible apply State.freeUpdates_keeps
    | with_reducible apply State.notePassed_keeps
    | with_reducible apply State.countRedo_keeps
    | with_reducible apply State.nonFiniteRow_keeps
    | with_reducible apply State.countRowWrite_keeps
    | with_reducible apply State.mirrorRow_keeps
    | with_reducible apply State.updateDone_keeps
    | with_reducible apply State.checkFailed_keeps
    | with_reducible apply Ends.pure
    | with_reducible apply Ends.ite
    | with_reducible apply Ends.get_bind
    | with_reducible apply Ends.set_bind
    | with_reducible apply Ends.modify_bind
    | with_reducible apply Ends.set
    | with_reducible apply Ends.changed
    | with_reducible apply Ends.bind
    | with_reducible refine Ends.ofOk (by assumption) ?_
    | with_reducible refine Ends.ofError (by assumption) ?_
    | with_reducible refine Keeps.ofSnd (by assumption) ?_
    | with_reducible refine Keeps.ofFst (by assumption) ?_
    | intro _
    | simp only [Keeps.record_iff]
    | split
    | with_reducible fail_if_success skip

theorem State.startUpdate_keeps {s0 : State} {x1 : State} {x2} {x3} {x4} (h1 : Keeps s0 x1) :
    Keeps s0 (State.startUpdate x1 x2 x3 x4) := by
  unfold State.startUpdate
  repeat' first
    | with_reducible assumption
    | with_reducible apply State.runM_keeps
    | with_reducible apply updateIntake_keeps
    | with_reducible apply State.countRedo_keeps
    | with_reducible apply State.setWork_keeps
    | with_reducible apply State.modSlice_keeps
    | with_reducible apply State.countTaken_keeps
    | with_reducible apply Ends.pure
    | with_reducible apply Ends.ite
    | with_reducible apply Ends.get_bind
    | with_reducible apply Ends.set_bind
    | with_reducible apply Ends.modify_bind
    | with_reducible apply Ends.set
    | with_reducible apply Ends.changed
    | with_reducible apply Ends.bind
    | with_reducible refine Ends.ofOk (by assumption) ?_
    | with_reducible refine Ends.ofError (by assumption) ?_
    | with_reducible refine Keeps.ofSnd (by assumption) ?_
    | with_reducible refine Keeps.ofFst (by assumption) ?_
    | intro _
    | simp only [Keeps.record_iff]
    | split
    | with_reducible fail_if_success skip

theorem finishUpdate_keeps {s0 : State} {x1} {x2} {x3 : State} (h3 : Keeps s0 x3) :
    Ends s0 x3 (finishUpdate x1 x2) := by
  unfold finishUpdate
  repeat' first
    | with_reducible assumption
    | with_reducible apply writeSides_keeps
    | with_reducible apply writeVA_keeps
    | with_reducible apply Ends.pure
    | with_reducible apply Ends.ite
    | with_reducible apply Ends.get_bind
    | with_reducible apply Ends.set_bind
    | with_reducible apply Ends.modify_bind
    | with_reducible apply Ends.set
    | with_reducible apply Ends.changed
    | with_reducible apply Ends.bind
    | with_reducible refine Ends.ofOk (by assumption) ?_
    | with_reducible refine Ends.ofError (by assumption) ?_
    | with_reducible refine Keeps.ofSnd (by assumption) ?_
    | with_reducible refine Keeps.ofFst (by assumption) ?_
    | intro _
    | simp only [Keeps.record_iff]
    | split
    | (rename_i e; nomatch (e : none = some _))
    | (rename_i e; cases (e : some _ = some _))
    | (rename_i e; dsimp only at e)
    | (rename_i e; split at e)
    | with_reducible fail_if_success skip

theorem State.finishUpdates_keeps {s0 : State} {x1 : State} {x2} (h1 : Keeps s0 x1) :
    Keeps s0 (State.finishUpdates x1 x2) := by
  unfold State.finishUpdates
  repeat' first
    | with_reducible assumption
    | with_reducible apply State.runM_keeps
    | with_reducible apply finishUpdate_keeps
    | with_reducible apply State.settleTables_keeps
    | with_reducible apply Ends.pure
    | with_reducible apply Ends.ite
    | with_reducible apply Ends.get_bind
    | with_reducible apply Ends.set_bind
    | with_reducible apply Ends.modify_bind
    | with_reducible apply Ends.set
    | with_reducible apply Ends.changed
    | with_reducible apply Ends.bind
    | with_reducible refine Ends.ofOk (by assumption) ?_
    | with_reducible refine Ends.ofError (by assumption) ?_
    | with_reducible refine Keeps.ofSnd (by assumption) ?_
    | with_reducible refine Keeps.ofFst (by assumption) ?_
    | intro _
    | simp only [Keeps.record_iff]
    | split
    | with_reducible fail_if_success skip

theorem readReplace_keeps {s0 : State} {x1} {x2} {x3 : State} (h3 : Keeps s0 x3) :
    Ends s0 x3 (readReplace x1 x2) := by
  unfold readReplace
  repeat' first
    | with_reducible assumption
    | with_reducible apply readTcb_keeps
    | with_reducible apply readVA_keeps
    | with_reducible apply failWith_keeps
    | with_reducible apply Ends.pure
    | with_reducible apply Ends.ite
    | with_reducible apply Ends.get_bind
    | with_reducible apply Ends.set_bind
    | with_reducible apply Ends.modify_bind
    | with_reducible apply Ends.set
    | with_reducible apply Ends.changed
    | with_reducible apply Ends.bind
    | with_reducible refine Ends.ofOk (by assumption) ?_
    | with_reducible refine Ends.ofError (by assumption) ?_
    | with_reducible refine Keeps.ofSnd (by assumption) ?_
    | with_reducible refine Keeps.ofFst (by assumption) ?_
    | intro _
    | simp only [Keeps.record_iff]
    | split
    | (rename_i e; nomatch (e : none = some _))
    | (rename_i e; cases (e : some _ = some _))
    | (rename_i e; dsimp only at e)
    | (rename_i e; split at e)
    | with_reducible fail_if_success skip

theorem readUpper_keeps {s0 : State} {x1} {x2} {x3 : State} (h3 : Keeps s0 x3) :
    Ends s0 x3 (readUpper x1 x2) := by
  unfold readUpper
  repeat' first
    | with_reducible assumption
    | with_reducible apply readNum_keeps
    | with_reducible apply Ends.pure
    | with_reducible apply Ends.ite
    | with_reducible apply Ends.get_bind
    | with_reducible apply Ends.set_bind
    | with_reducible apply Ends.modify_bind
    | with_reducible apply Ends.set
    | with_reducible apply Ends.changed
    | with_reducible apply Ends.bind
    | with_reducible refine Ends.ofOk (by assumption) ?_
    | with_reducible refine Ends.ofError (by assumption) ?_
    | with_reducible refine Keeps.ofSnd (by assumption) ?_
    | with_reducible refine Keeps.ofFst (by assumption) ?_
    | intro _
    | simp only [Keeps.record_iff]
    | (rename_i e; nomatch (e : none = some _))
    | (rename_i e; cases (e : some _ = some _))
    | (rename_i e; dsimp only at e)
    | (rename_i e; split at e)
    | with_reducible fail_if_success skip

theorem replaceHome_keeps {s0 : State} {x1} {x2} {x3} {x4} {x5} {x6} {x7 : State} (h7 : Keeps s0 x7) :
    Ends s0 x7 (replaceHome x1 x2 x3 x4 x5 x6) := by
  unfold replaceHome
  repeat' first
    | with_reducible assumption
    | with_reducible apply rowHome_keeps
    | with_reducible apply State.noteUse_keeps
    | with_reducible apply readDevice_keeps
    | with_reducible apply State.draw_keeps
    | with_reducible apply State.checkFailed_keeps
    | with_reducible apply failWith_keeps
    | with_reducible apply Ends.pure
    | with_reducible apply Ends.throw
    | with_reducible apply Ends.ite
    | with_reducible apply Ends.get_bind
    | with_reducible apply Ends.set_bind
    | with_reducible apply Ends.modify_bind
    | with_reducible apply Ends.set
    | with_reducible apply Ends.changed
    | with_reducible apply Ends.bind
    | with_reducible refine Ends.ofOk (by assumption) ?_
    | with_reducible refine Ends.ofError (by assumption) ?_
    | with_reducible refine Keeps.ofSnd (by assumption) ?_
    | with_reducible refine Keeps.ofFst (by assumption) ?_
    | intro _
    | simp only [Keeps.record_iff]
    | split
    | (rename_i e; nomatch (e : none = some _))
    | (rename_i e; cases (e : some _ = some _))
    | (rename_i e; dsimp only at e)
    | (rename_i e; split at e)
    | with_reducible fail_if_success skip

theorem replaceErrors_keeps {s0 : State} {x1} {x2} {x3} {x4 : State} (h4 : Keeps s0 x4) :
    Ends s0 x4 (replaceErrors x1 x2 x3) := by
  unfold replaceErrors
  repeat' first
    | with_reducible assumption
    | with_reducible apply State.notePassed_keeps
    | with_reducible apply failWith_keeps
    | with_reducible apply State.countRedo_keeps
    | with_reducible apply Ends.pure
    | with_reducible apply Ends.ite
    | with_reducible apply Ends.get_bind
    | with_reducible apply Ends.set_bind
    | with_reducible apply Ends.modify_bind
    | with_reducible apply Ends.set
    | with_reducible apply Ends.changed
    | with_reducible apply Ends.bind
    | with_reducible refine Ends.ofOk (by assumption) ?_
    | with_reducible refine Ends.ofError (by assumption) ?_
    | with_reducible refine Keeps.ofSnd (by assumption) ?_
    | intro _
    | simp only [Keeps.record_iff]
    | split
    | (rename_i e; nomatch (e : none = some _))
    | (rename_i e; cases (e : some _ = some _))
    | (rename_i e; dsimp only at e)
    | (rename_i e; split at e)
    | with_reducible fail_if_success skip

theorem replaceWrite_keeps {s0 : State} {x1} {x2} {x3} {x4} {x5} {x6} {x7} {x8} {x9} {x10 : State} (h10 : Keeps s0 x10) :
    Ends s0 x10 (replaceWrite x1 x2 x3 x4 x5 x6 x7 x8 x9) := by
  unfold replaceWrite
  repeat' first
    | with_reducible assumption
    | with_reducible apply writeDevice_keeps
    | with_reducible apply State.clearPoison_keeps
    | with_reducible apply State.mirrorRow_keeps
    | with_reducible apply State.nonFiniteRow_keeps
    | with_reducible apply State.countRowWrite_keeps
    | with_reducible apply Ends.pure
    | with_reducible apply Ends.ite
    | with_reducible apply Ends.get_bind
    | with_reducible apply Ends.set_bind
    | with_reducible apply Ends.modify_bind
    | with_reducible apply Ends.set
    | with_reducible apply Ends.changed
    | with_reducible apply Ends.bind
    | with_reducible refine Ends.ofOk (by assumption) ?_
    | with_reducible refine Ends.ofError (by assumption) ?_
    | with_reducible refine Keeps.ofSnd (by assumption) ?_
    | with_reducible refine Keeps.ofFst (by assumption) ?_
    | with_reducible apply Keeps.foldl
    | with_reducible apply Keeps.foldlFst
    | with_reducible apply Keeps.foldlSnd
    | intro _
    | simp only [Keeps.record_iff]
    | (rename_i e; nomatch (e : none = some _))
    | (rename_i e; cases (e : some _ = some _))
    | (rename_i e; dsimp only at e)
    | (rename_i e; split at e)
    | with_reducible fail_if_success skip

theorem replaceItem_keeps {s0 : State} {x1} {x2} {x3} {x4} {x5} {x6} {x7} {x8} {x9} {x10} {x11 : State} (h11 : Keeps s0 x11) :
    Ends s0 x11 (replaceItem x1 x2 x3 x4 x5 x6 x7 x8 x9 x10) := by
  unfold replaceItem
  repeat' first
    | with_reducible assumption
    | with_reducible apply attempt_keeps
    | with_reducible apply readVA_keeps
    | with_reducible apply replaceHome_keeps
    | with_reducible apply replaceErrors_keeps
    | with_reducible apply replaceWrite_keeps
    | with_reducible apply failWith_keeps
    | with_reducible apply Ends.pure
    | with_reducible apply Ends.ite
    | with_reducible apply Ends.get_bind
    | with_reducible apply Ends.set_bind
    | with_reducible apply Ends.modify_bind
    | with_reducible apply Ends.set
    | with_reducible apply Ends.changed
    | with_reducible apply Ends.bind
    | with_reducible apply Ends.tryCatch
    | with_reducible refine Ends.ofOk (by assumption) ?_
    | with_reducible refine Ends.ofError (by assumption) ?_
    | with_reducible refine Keeps.ofSnd (by assumption) ?_
    | with_reducible refine Keeps.ofFst (by assumption) ?_
    | intro _
    | simp only [Keeps.record_iff]
    | split
    | (rename_i e; nomatch (e : none = some _))
    | (rename_i e; cases (e : some _ = some _))
    | (rename_i e; dsimp only at e)
    | (rename_i e; split at e)
    | with_reducible fail_if_success skip

theorem replaceItems_keeps {s0 : State} {x1} {x2} {x3} {x4} {x5} {x6} {x7} {x8} {x9} {x10 : State} (h10 : Keeps s0 x10) :
    Ends s0 x10 (replaceItems x1 x2 x3 x4 x5 x6 x7 x8 x9) := by
  revert h10
  induction x9 generalizing x8 x10 with
  | nil =>
    intro h10
    unfold replaceItems
    repeat' first
      | with_reducible assumption
      | with_reducible apply attempt_keeps
      | with_reducible apply replaceItem_keeps
      | with_reducible apply Ends.pure
      | with_reducible apply Ends.ite
      | with_reducible apply Ends.get_bind
      | with_reducible apply Ends.set_bind
      | with_reducible apply Ends.modify_bind
      | with_reducible apply Ends.set
      | with_reducible apply Ends.changed
      | with_reducible apply Ends.bind
      | with_reducible apply Ends.tryCatch
      | with_reducible refine Ends.ofOk (by assumption) ?_
      | with_reducible refine Ends.ofError (by assumption) ?_
      | with_reducible refine Keeps.ofSnd (by assumption) ?_
      | with_reducible refine Keeps.ofFst (by assumption) ?_
        | intro _
      | simp only [Keeps.record_iff]
      | split
      | (rename_i e; nomatch (e : none = some _))
      | (rename_i e; cases (e : some _ = some _))
      | (rename_i e; dsimp only at e)
      | (rename_i e; split at e)
      | with_reducible fail_if_success skip
  | cons _ _ ih =>
    intro h10
    unfold replaceItems
    repeat' first
      | with_reducible apply ih
      | with_reducible assumption
      | with_reducible apply attempt_keeps
      | with_reducible apply replaceItem_keeps
      | with_reducible apply Ends.pure
      | with_reducible apply Ends.ite
      | with_reducible apply Ends.get_bind
      | with_reducible apply Ends.set_bind
      | with_reducible apply Ends.modify_bind
      | with_reducible apply Ends.set
      | with_reducible apply Ends.changed
      | with_reducible apply Ends.bind
      | with_reducible apply Ends.tryCatch
      | with_reducible refine Ends.ofOk (by assumption) ?_
      | with_reducible refine Ends.ofError (by assumption) ?_
      | with_reducible refine Keeps.ofSnd (by assumption) ?_
      | with_reducible refine Keeps.ofFst (by assumption) ?_
      | apply ih
      | intro _
      | simp only [Keeps.record_iff]
      | split
      | (rename_i e; nomatch (e : none = some _))
      | (rename_i e; cases (e : some _ = some _))
      | (rename_i e; dsimp only at e)
      | (rename_i e; split at e)
      | with_reducible fail_if_success skip

theorem itemsReport_keeps {s0 : State} {x1} {x2} {x3} {x4 : State} (h4 : Keeps s0 x4) :
    Ends s0 x4 (itemsReport x1 x2 x3) := by
  unfold itemsReport
  repeat' first
    | with_reducible assumption
    | with_reducible apply attempt_keeps
    | with_reducible apply writeVA_keeps
    | with_reducible apply Ends.pure
    | with_reducible apply Ends.ite
    | with_reducible apply Ends.get_bind
    | with_reducible apply Ends.set_bind
    | with_reducible apply Ends.modify_bind
    | with_reducible apply Ends.set
    | with_reducible apply Ends.changed
    | with_reducible apply Ends.bind
    | with_reducible apply Ends.tryCatch
    | with_reducible refine Ends.ofOk (by assumption) ?_
    | with_reducible refine Ends.ofError (by assumption) ?_
    | with_reducible refine Keeps.ofSnd (by assumption) ?_
    | with_reducible refine Keeps.ofFst (by assumption) ?_
    | intro _
    | simp only [Keeps.record_iff]
    | split
    | (rename_i e; nomatch (e : none = some _))
    | (rename_i e; cases (e : some _ = some _))
    | (rename_i e; dsimp only at e)
    | (rename_i e; split at e)
    | with_reducible fail_if_success skip

theorem runReplace_keeps {s0 : State} {x1} {x2} {x3} {x4} {x5} {x6} {x7} {x8} {x9} {x10 : State} (h10 : Keeps s0 x10) :
    Ends s0 x10 (runReplace x1 x2 x3 x4 x5 x6 x7 x8 x9) := by
  unfold runReplace
  repeat' first
    | with_reducible assumption
    | with_reducible apply readUpper_keeps
    | with_reducible apply replaceItems_keeps
    | with_reducible apply itemsReport_keeps
    | with_reducible apply writeVA_keeps
    | with_reducible apply failWith_keeps
    | with_reducible apply Ends.pure
    | with_reducible apply Ends.ite
    | with_reducible apply Ends.get_bind
    | with_reducible apply Ends.set_bind
    | with_reducible apply Ends.modify_bind
    | with_reducible apply Ends.set
    | with_reducible apply Ends.changed
    | with_reducible apply Ends.bind
    | with_reducible refine Ends.ofOk (by assumption) ?_
    | with_reducible refine Ends.ofError (by assumption) ?_
    | with_reducible refine Keeps.ofSnd (by assumption) ?_
    | with_reducible refine Keeps.ofFst (by assumption) ?_
    | intro _
    | simp only [Keeps.record_iff]
    | split
    | (rename_i e; nomatch (e : none = some _))
    | (rename_i e; cases (e : some _ = some _))
    | (rename_i e; dsimp only at e)
    | (rename_i e; split at e)
    | with_reducible fail_if_success skip

theorem State.settleItems_keeps {s0 : State} {x1 : State} {x2} {x3} {x4} {x5} (h1 : Keeps s0 x1) :
    Keeps s0 (State.settleItems x1 x2 x3 x4 x5) := by
  unfold State.settleItems
  repeat' first
    | with_reducible assumption
    | with_reducible apply State.consumePoison_keeps
    | with_reducible apply State.noteUnrecovered_keeps
    | with_reducible apply State.modOp_keeps
    | with_reducible refine Keeps.ofSnd (by assumption) ?_
    | with_reducible refine Keeps.ofFst (by assumption) ?_
    | with_reducible apply Keeps.foldl
    | with_reducible apply Keeps.foldlFst
    | with_reducible apply Keeps.foldlSnd
    | intro _
    | simp only [Keeps.record_iff]
    | split
    | with_reducible fail_if_success skip

theorem State.dispatchLead_keeps {s0 : State} {x1 : State} {x2} {x3} {x4 : Op → Req → M Op} (h1 : Keeps s0 x1) (f4 : ∀ a0 a1 u, Keeps s0 u → Ends s0 u (x4 a0 a1)) :
    Keeps s0 (State.dispatchLead x1 x2 x3 x4) := by
  unfold State.dispatchLead
  repeat' first
    | with_reducible assumption
    | with_reducible apply State.dispatch_keeps
    | with_reducible apply State.queueSlices_keeps
    | with_reducible apply f4
    | with_reducible apply Ends.pure
    | with_reducible apply Ends.ite
    | with_reducible apply Ends.get_bind
    | with_reducible apply Ends.set_bind
    | with_reducible apply Ends.modify_bind
    | with_reducible apply Ends.set
    | with_reducible apply Ends.changed
    | with_reducible apply Ends.bind
    | with_reducible refine Ends.ofOk (by assumption) ?_
    | with_reducible refine Ends.ofError (by assumption) ?_
    | with_reducible refine Keeps.ofSnd (by assumption) ?_
    | with_reducible refine Keeps.ofFst (by assumption) ?_
    | intro _
    | simp only [Keeps.record_iff]
    | split
    | with_reducible fail_if_success skip

theorem State.failAtLead_keeps {s0 : State} {x1 : State} {x2} {x3} {x4} {x5} (h1 : Keeps s0 x1) :
    Keeps s0 (State.failAtLead x1 x2 x3 x4 x5) := by
  unfold State.failAtLead
  repeat' first
    | with_reducible assumption
    | with_reducible apply State.failOp_keeps
    | with_reducible apply State.leaveLead_keeps
    | with_reducible refine Keeps.ofSnd (by assumption) ?_
    | with_reducible refine Keeps.ofFst (by assumption) ?_
    | simp only [Keeps.record_iff]
    | with_reducible fail_if_success skip

theorem State.replace_keeps {s0 : State} {x1 : State} {x2} {x3} (h1 : Keeps s0 x1) :
    Keeps s0 (State.replace x1 x2 x3) := by
  unfold State.replace
  repeat' first
    | with_reducible assumption
    | with_reducible apply State.dispatchLead_keeps
    | with_reducible apply readReplace_keeps
    | with_reducible apply State.queueUpdate_keeps
    | with_reducible apply State.runM_keeps
    | with_reducible apply runReplace_keeps
    | with_reducible apply State.settleItems_keeps
    | with_reducible apply State.leaveLead_keeps
    | with_reducible apply State.freeUpdates_keeps
    | with_reducible apply State.failAtLead_keeps
    | with_reducible apply Ends.pure
    | with_reducible apply Ends.ite
    | with_reducible apply Ends.get_bind
    | with_reducible apply Ends.set_bind
    | with_reducible apply Ends.modify_bind
    | with_reducible apply Ends.set
    | with_reducible apply Ends.changed
    | with_reducible apply Ends.bind
    | with_reducible refine Ends.ofOk (by assumption) ?_
    | with_reducible refine Ends.ofError (by assumption) ?_
    | with_reducible refine Keeps.ofSnd (by assumption) ?_
    | with_reducible refine Keeps.ofFst (by assumption) ?_
    | intro _
    | simp only [Keeps.record_iff]
    | split
    | with_reducible fail_if_success skip

theorem admitItem_keeps {s0 : State} {x1} {x2} {x3} {x4} {x5} {x6 : State} (h6 : Keeps s0 x6) :
    Ends s0 x6 (admitItem x1 x2 x3 x4 x5) := by
  unfold admitItem
  repeat' first
    | with_reducible assumption
    | with_reducible apply readRow_keeps
    | with_reducible apply State.writeReplicas_keeps
    | with_reducible apply State.addObj_keeps
    | with_reducible apply State.checkFailed_keeps
    | with_reducible apply failWith_keeps
    | with_reducible apply Ends.pure
    | with_reducible apply Ends.ite
    | with_reducible apply Ends.get_bind
    | with_reducible apply Ends.set_bind
    | with_reducible apply Ends.modify_bind
    | with_reducible apply Ends.set
    | with_reducible apply Ends.changed
    | with_reducible apply Ends.bind
    | with_reducible apply Ends.tryCatch
    | with_reducible refine Ends.ofOk (by assumption) ?_
    | with_reducible refine Ends.ofError (by assumption) ?_
    | with_reducible refine Keeps.ofSnd (by assumption) ?_
    | with_reducible refine Keeps.ofFst (by assumption) ?_
    | with_reducible apply Keeps.foldl
    | with_reducible apply Keeps.foldlFst
    | with_reducible apply Keeps.foldlSnd
    | intro _
    | simp only [Keeps.record_iff]
    | split
    | (rename_i e; nomatch (e : none = some _))
    | (rename_i e; cases (e : some _ = some _))
    | (rename_i e; dsimp only at e)
    | (rename_i e; split at e)
    | with_reducible fail_if_success skip

theorem admitItems_keeps {s0 : State} {x1} {x2} {x3} {x4} {x5} {x6} {x7 : State} (h7 : Keeps s0 x7) :
    Ends s0 x7 (admitItems x1 x2 x3 x4 x5 x6) := by
  revert h7
  induction x6 generalizing x5 x7 with
  | nil =>
    intro h7
    unfold admitItems
    repeat' first
      | with_reducible assumption
      | with_reducible apply attempt_keeps
      | with_reducible apply admitItem_keeps
      | with_reducible apply Ends.pure
      | with_reducible apply Ends.ite
      | with_reducible apply Ends.get_bind
      | with_reducible apply Ends.set_bind
      | with_reducible apply Ends.modify_bind
      | with_reducible apply Ends.set
      | with_reducible apply Ends.changed
      | with_reducible apply Ends.bind
      | with_reducible apply Ends.tryCatch
      | with_reducible refine Ends.ofOk (by assumption) ?_
      | with_reducible refine Ends.ofError (by assumption) ?_
      | with_reducible refine Keeps.ofSnd (by assumption) ?_
      | with_reducible refine Keeps.ofFst (by assumption) ?_
        | intro _
      | simp only [Keeps.record_iff]
      | split
      | (rename_i e; nomatch (e : none = some _))
      | (rename_i e; cases (e : some _ = some _))
      | (rename_i e; dsimp only at e)
      | (rename_i e; split at e)
      | with_reducible fail_if_success skip
  | cons _ _ ih =>
    intro h7
    unfold admitItems
    repeat' first
      | with_reducible apply ih
      | with_reducible assumption
      | with_reducible apply attempt_keeps
      | with_reducible apply admitItem_keeps
      | with_reducible apply Ends.pure
      | with_reducible apply Ends.ite
      | with_reducible apply Ends.get_bind
      | with_reducible apply Ends.set_bind
      | with_reducible apply Ends.modify_bind
      | with_reducible apply Ends.set
      | with_reducible apply Ends.changed
      | with_reducible apply Ends.bind
      | with_reducible apply Ends.tryCatch
      | with_reducible refine Ends.ofOk (by assumption) ?_
      | with_reducible refine Ends.ofError (by assumption) ?_
      | with_reducible refine Keeps.ofSnd (by assumption) ?_
      | with_reducible refine Keeps.ofFst (by assumption) ?_
      | apply ih
      | intro _
      | simp only [Keeps.record_iff]
      | split
      | (rename_i e; nomatch (e : none = some _))
      | (rename_i e; cases (e : some _ = some _))
      | (rename_i e; dsimp only at e)
      | (rename_i e; split at e)
      | with_reducible fail_if_success skip

theorem State.admitRows_keeps {s0 : State} {x1 : State} {x2} (h1 : Keeps s0 x1) :
    Keeps s0 (State.admitRows x1 x2) := by
  unfold State.admitRows
  repeat' first
    | with_reducible assumption
    | with_reducible apply State.dispatchLead_keeps
    | with_reducible apply readReplace_keeps
    | with_reducible apply admitItems_keeps
    | with_reducible apply itemsReport_keeps
    | with_reducible apply State.runM_keeps
    | with_reducible apply State.settleItems_keeps
    | with_reducible apply State.leaveLead_keeps
    | with_reducible apply State.failAtLead_keeps
    | with_reducible apply Ends.pure
    | with_reducible apply Ends.ite
    | with_reducible apply Ends.get_bind
    | with_reducible apply Ends.set_bind
    | with_reducible apply Ends.modify_bind
    | with_reducible apply Ends.set
    | with_reducible apply Ends.changed
    | with_reducible apply Ends.bind
    | with_reducible refine Ends.ofOk (by assumption) ?_
    | with_reducible refine Ends.ofError (by assumption) ?_
    | with_reducible refine Keeps.ofSnd (by assumption) ?_
    | with_reducible refine Keeps.ofFst (by assumption) ?_
    | intro _
    | simp only [Keeps.record_iff]
    | split
    | with_reducible fail_if_success skip

theorem State.evictItem_keeps {s0 : State} {x1 : State} {x2} {x3} {x4} {t : State}
    (e : State.evictItem x1 x2 x3 x4 = some t) (h1 : Keeps s0 x1) : Keeps s0 t := by
  unfold State.evictItem at e
  split at e
  · cases e
  · split at e
    · cases e
      exact Keeps.record h1
    · cases e

theorem State.endEvict_keeps {s0 : State} {x1 : State} {x2} (h1 : Keeps s0 x1) :
    Keeps s0 (State.endEvict x1 x2) := by
  unfold State.endEvict
  repeat' first
    | with_reducible assumption
    | with_reducible apply State.runM_keeps
    | with_reducible apply itemsReport_keeps
    | with_reducible apply State.settleItems_keeps
    | with_reducible apply State.leaveLead_keeps
    | with_reducible apply Ends.pure
    | with_reducible apply Ends.ite
    | with_reducible apply Ends.get_bind
    | with_reducible apply Ends.set_bind
    | with_reducible apply Ends.modify_bind
    | with_reducible apply Ends.set
    | with_reducible apply Ends.changed
    | with_reducible apply Ends.bind
    | with_reducible refine Ends.ofOk (by assumption) ?_
    | with_reducible refine Ends.ofError (by assumption) ?_
    | with_reducible refine Keeps.ofSnd (by assumption) ?_
    | with_reducible refine Keeps.ofFst (by assumption) ?_
    | intro _
    | simp only [Keeps.record_iff]
    | split
    | with_reducible fail_if_success skip

theorem State.evict_keeps {s0 : State} {x1 : State} {x2} (h1 : Keeps s0 x1) :
    Keeps s0 (State.evict x1 x2) := by
  unfold State.evict
  repeat' first
    | with_reducible assumption
    | with_reducible apply State.dispatchLead_keeps
    | with_reducible apply readReplace_keeps
    | with_reducible refine State.evictItem_keeps (by assumption) ?_
    | with_reducible apply State.endEvict_keeps
    | with_reducible apply State.modOp_keeps
    | with_reducible apply Ends.pure
    | with_reducible apply Ends.ite
    | with_reducible apply Ends.get_bind
    | with_reducible apply Ends.set_bind
    | with_reducible apply Ends.modify_bind
    | with_reducible apply Ends.set
    | with_reducible apply Ends.changed
    | with_reducible apply Ends.bind
    | with_reducible refine Ends.ofOk (by assumption) ?_
    | with_reducible refine Ends.ofError (by assumption) ?_
    | with_reducible refine Keeps.ofSnd (by assumption) ?_
    | with_reducible refine Keeps.ofFst (by assumption) ?_
    | with_reducible apply Keeps.foldl
    | with_reducible apply Keeps.foldlFst
    | with_reducible apply Keeps.foldlSnd
    | intro _
    | simp only [Keeps.record_iff]
    | split
    | with_reducible fail_if_success skip

theorem State.slotFree_keeps {s0 : State} {x1 : State} {x2} (h1 : Keeps s0 x1) :
    Keeps s0 (State.slotFree x1 x2) := by
  unfold State.slotFree
  repeat' first
    | with_reducible assumption
    | with_reducible apply State.endEvict_keeps
    | with_reducible refine Keeps.ofSnd (by assumption) ?_
    | with_reducible refine Keeps.ofFst (by assumption) ?_
    | intro _
    | simp only [Keeps.record_iff]
    | split
    | with_reducible fail_if_success skip

theorem readMark_keeps {s0 : State} {x1} {x2} {x3 : State} (h3 : Keeps s0 x3) :
    Ends s0 x3 (readMark x1 x2) := by
  unfold readMark
  repeat' first
    | with_reducible assumption
    | with_reducible apply readTcb_keeps
    | with_reducible apply failWith_keeps
    | with_reducible apply Ends.pure
    | with_reducible apply Ends.ite
    | with_reducible apply Ends.get_bind
    | with_reducible apply Ends.set_bind
    | with_reducible apply Ends.modify_bind
    | with_reducible apply Ends.set
    | with_reducible apply Ends.changed
    | with_reducible apply Ends.bind
    | with_reducible refine Ends.ofOk (by assumption) ?_
    | with_reducible refine Ends.ofError (by assumption) ?_
    | with_reducible refine Keeps.ofSnd (by assumption) ?_
    | with_reducible refine Keeps.ofFst (by assumption) ?_
    | intro _
    | simp only [Keeps.record_iff]
    | split
    | (rename_i e; nomatch (e : none = some _))
    | (rename_i e; cases (e : some _ = some _))
    | (rename_i e; dsimp only at e)
    | (rename_i e; split at e)
    | with_reducible fail_if_success skip

theorem runMark_keeps {s0 : State} {x1} {x2} {x3} {x4 : State} (h4 : Keeps s0 x4) :
    Ends s0 x4 (runMark x1 x2 x3) := by
  unfold runMark
  repeat' first
    | with_reducible assumption
    | with_reducible apply readUpper_keeps
    | with_reducible apply writeVA_keeps
    | with_reducible apply failWith_keeps
    | with_reducible apply Ends.pure
    | with_reducible apply Ends.ite
    | with_reducible apply Ends.get_bind
    | with_reducible apply Ends.set_bind
    | with_reducible apply Ends.modify_bind
    | with_reducible apply Ends.set
    | with_reducible apply Ends.changed
    | with_reducible apply Ends.bind
    | with_reducible refine Ends.ofOk (by assumption) ?_
    | with_reducible refine Ends.ofError (by assumption) ?_
    | with_reducible refine Keeps.ofSnd (by assumption) ?_
    | with_reducible refine Keeps.ofFst (by assumption) ?_
    | intro _
    | simp only [Keeps.record_iff]
    | split
    | (rename_i e; nomatch (e : none = some _))
    | (rename_i e; cases (e : some _ = some _))
    | (rename_i e; dsimp only at e)
    | (rename_i e; split at e)
    | with_reducible fail_if_success skip

theorem State.rebindMark_keeps {s0 : State} {x1 : State} {x2} {x3} (h1 : Keeps s0 x1) :
    Keeps s0 (State.rebindMark x1 x2 x3) := by
  unfold State.rebindMark
  repeat' first
    | with_reducible assumption
    | with_reducible apply State.dispatchLead_keeps
    | with_reducible apply readMark_keeps
    | with_reducible apply State.runM_keeps
    | with_reducible apply runMark_keeps
    | with_reducible apply State.modOp_keeps
    | with_reducible apply State.leaveLead_keeps
    | with_reducible apply State.failAtLead_keeps
    | with_reducible apply Ends.pure
    | with_reducible apply Ends.ite
    | with_reducible apply Ends.get_bind
    | with_reducible apply Ends.set_bind
    | with_reducible apply Ends.modify_bind
    | with_reducible apply Ends.set
    | with_reducible apply Ends.changed
    | with_reducible apply Ends.bind
    | with_reducible refine Ends.ofOk (by assumption) ?_
    | with_reducible refine Ends.ofError (by assumption) ?_
    | with_reducible refine Keeps.ofSnd (by assumption) ?_
    | with_reducible refine Keeps.ofFst (by assumption) ?_
    | intro _
    | simp only [Keeps.record_iff]
    | split
    | with_reducible fail_if_success skip

end Sys2Proof.Machine
end

