-- ==== Sys2Proof/Laws/KeepsStreams.lean ====
section
/-! SUPPORT. What the operations of Machine/Streams.lean keep. -/

set_option linter.all false

namespace Sys2Proof.Machine

theorem readList_keeps {s0 : State} {x1} {x2} {x3} {x4} {x5} {x6 : State} (h6 : Keeps s0 x6) :
    Ends s0 x6 (readList x1 x2 x3 x4 x5) := by
  unfold readList
  repeat' first
    | with_reducible assumption
    | with_reducible apply readVA_keeps
    | with_reducible apply Ends.pure
    | with_reducible apply Ends.throw
    | with_reducible apply Ends.ite
    | with_reducible apply Ends.get_bind
    | with_reducible apply Ends.set_bind
    | with_reducible apply Ends.modify_bind
    | with_reducible apply Ends.set
    | with_reducible apply Ends.changed
    | with_reducible apply Ends.bind
    | with_reducible apply Ends.tryCatch
    | with_reducible refine Ends.ofOk (by assumption) ?_
    | with_reducible refine Ends.ofError (by assumption) ?_
    | with_reducible refine Keeps.ofSnd (by assumption) ?_
    | with_reducible refine Keeps.ofFst (by assumption) ?_
    | intro _
    | simp only [Keeps.record_iff]
    | split
    | (rename_i e; nomatch (e : none = some _))
    | (rename_i e; cases (e : some _ = some _))
    | (rename_i e; dsimp only at e)
    | (rename_i e; split at e)
    | with_reducible fail_if_success skip

theorem readStream_keeps {s0 : State} {x1} {x2} {x3 : State} (h3 : Keeps s0 x3) :
    Ends s0 x3 (readStream x1 x2) := by
  unfold readStream
  repeat' first
    | with_reducible assumption
    | with_reducible apply readList_keeps
    | with_reducible apply failWith_keeps
    | with_reducible apply Ends.pure
    | with_reducible apply Ends.ite
    | with_reducible apply Ends.get_bind
    | with_reducible apply Ends.set_bind
    | with_reducible apply Ends.modify_bind
    | with_reducible apply Ends.set
    | with_reducible apply Ends.changed
    | with_reducible apply Ends.bind
    | with_reducible refine Ends.ofOk (by assumption) ?_
    | with_reducible refine Ends.ofError (by assumption) ?_
    | with_reducible refine Keeps.ofSnd (by assumption) ?_
    | with_reducible refine Keeps.ofFst (by assumption) ?_
    | intro _
    | simp only [Keeps.record_iff]
    | split
    | (rename_i e; nomatch (e : none = some _))
    | (rename_i e; cases (e : some _ = some _))
    | (rename_i e; dsimp only at e)
    | (rename_i e; split at e)
    | with_reducible fail_if_success skip

theorem streamPage_keeps {s0 : State} {x1} {x2} {x3} {x4 : State} (h4 : Keeps s0 x4) :
    Ends s0 x4 (streamPage x1 x2 x3) := by
  unfold streamPage
  repeat' first
    | with_reducible assumption
    | with_reducible apply translate_keeps
    | with_reducible apply poisonLeaf_keeps
    | with_reducible apply State.noteUse_keeps
    | with_reducible apply readDevice_keeps
    | with_reducible apply State.hostRead_keeps
    | with_reducible apply failWith_keeps
    | with_reducible apply readPeer_keeps
    | with_reducible apply Ends.pure
    | with_reducible apply Ends.ite
    | with_reducible apply Ends.get_bind
    | with_reducible apply Ends.set_bind
    | with_reducible apply Ends.modify_bind
    | with_reducible apply Ends.set
    | with_reducible apply Ends.changed
    | with_reducible apply Ends.bind
    | with_reducible refine Ends.ofOk (by assumption) ?_
    | with_reducible refine Ends.ofError (by assumption) ?_
    | with_reducible refine Keeps.ofSnd (by assumption) ?_
    | with_reducible refine Keeps.ofFst (by assumption) ?_
    | intro _
    | simp only [Keeps.record_iff]
    | split
    | (rename_i e; nomatch (e : none = some _))
    | (rename_i e; cases (e : some _ = some _))
    | (rename_i e; dsimp only at e)
    | (rename_i e; split at e)
    | with_reducible fail_if_success skip

theorem streamRow_keeps {s0 : State} {x1} {x2} {x3} {x4} {x5 : State} (h5 : Keeps s0 x5) :
    Ends s0 x5 (streamRow x1 x2 x3 x4) := by
  revert h5
  induction x2 generalizing x3 x4 x5 with
  | zero =>
    intro h5
    unfold streamRow
    repeat' first
      | with_reducible assumption
      | with_reducible apply streamPage_keeps
      | with_reducible apply failWith_keeps
      | with_reducible apply Ends.pure
      | with_reducible apply Ends.ite
      | with_reducible apply Ends.get_bind
      | with_reducible apply Ends.set_bind
      | with_reducible apply Ends.modify_bind
      | with_reducible apply Ends.set
      | with_reducible apply Ends.changed
      | with_reducible apply Ends.bind
      | with_reducible refine Ends.ofOk (by assumption) ?_
      | with_reducible refine Ends.ofError (by assumption) ?_
      | with_reducible refine Keeps.ofSnd (by assumption) ?_
      | with_reducible refine Keeps.ofFst (by assumption) ?_
        | intro _
      | simp only [Keeps.record_iff]
      | split
      | (rename_i e; nomatch (e : none = some _))
      | (rename_i e; cases (e : some _ = some _))
      | (rename_i e; dsimp only at e)
      | (rename_i e; split at e)
      | with_reducible fail_if_success skip
  | succ _ ih =>
    intro h5
    unfold streamRow
    repeat' first
      | with_reducible apply ih
      | with_reducible assumption
      | with_reducible apply streamPage_keeps
      | with_reducible apply failWith_keeps
      | with_reducible apply Ends.pure
      | with_reducible apply Ends.ite
      | with_reducible apply Ends.get_bind
      | with_reducible apply Ends.set_bind
      | with_reducible apply Ends.modify_bind
      | with_reducible apply Ends.set
      | with_reducible apply Ends.changed
      | with_reducible apply Ends.bind
      | with_reducible refine Ends.ofOk (by assumption) ?_
      | with_reducible refine Ends.ofError (by assumption) ?_
      | with_reducible refine Keeps.ofSnd (by assumption) ?_
      | with_reducible refine Keeps.ofFst (by assumption) ?_
      | apply ih
      | intro _
      | simp only [Keeps.record_iff]
      | split
      | (rename_i e; nomatch (e : none = some _))
      | (rename_i e; cases (e : some _ = some _))
      | (rename_i e; dsimp only at e)
      | (rename_i e; split at e)
      | with_reducible fail_if_success skip

theorem streamRows_keeps {s0 : State} {x1} {x2} {x3} {x4 : State} (h4 : Keeps s0 x4) :
    Ends s0 x4 (streamRows x1 x2 x3) := by
  revert h4
  induction x3 generalizing x4 with
  | nil =>
    intro h4
    unfold streamRows
    repeat' first
      | with_reducible assumption
      | with_reducible apply streamRow_keeps
      | with_reducible apply Ends.pure
      | with_reducible apply Ends.ite
      | with_reducible apply Ends.get_bind
      | with_reducible apply Ends.set_bind
      | with_reducible apply Ends.modify_bind
      | with_reducible apply Ends.set
      | with_reducible apply Ends.changed
      | with_reducible apply Ends.bind
      | with_reducible refine Ends.ofOk (by assumption) ?_
      | with_reducible refine Ends.ofError (by assumption) ?_
      | with_reducible refine Keeps.ofSnd (by assumption) ?_
      | with_reducible refine Keeps.ofFst (by assumption) ?_
        | intro _
      | simp only [Keeps.record_iff]
      | (rename_i e; nomatch (e : none = some _))
      | (rename_i e; cases (e : some _ = some _))
      | (rename_i e; dsimp only at e)
      | (rename_i e; split at e)
      | with_reducible fail_if_success skip
  | cons _ _ ih =>
    intro h4
    unfold streamRows
    repeat' first
      | with_reducible apply ih
      | with_reducible assumption
      | with_reducible apply streamRow_keeps
      | with_reducible apply Ends.pure
      | with_reducible apply Ends.ite
      | with_reducible apply Ends.get_bind
      | with_reducible apply Ends.set_bind
      | with_reducible apply Ends.modify_bind
      | with_reducible apply Ends.set
      | with_reducible apply Ends.changed
      | with_reducible apply Ends.bind
      | with_reducible refine Ends.ofOk (by assumption) ?_
      | with_reducible refine Ends.ofError (by assumption) ?_
      | with_reducible refine Keeps.ofSnd (by assumption) ?_
      | with_reducible refine Keeps.ofFst (by assumption) ?_
      | apply ih
      | intro _
      | simp only [Keeps.record_iff]
      | (rename_i e; nomatch (e : none = some _))
      | (rename_i e; cases (e : some _ = some _))
      | (rename_i e; dsimp only at e)
      | (rename_i e; split at e)
      | with_reducible fail_if_success skip

theorem writeRows_keeps {s0 : State} {x1} {x2} {x3 : State} (h3 : Keeps s0 x3) :
    Ends s0 x3 (writeRows x1 x2) := by
  revert h3
  induction x2 generalizing x3 with
  | nil =>
    intro h3
    unfold writeRows
    repeat' first
      | with_reducible assumption
      | with_reducible apply writeMarked_keeps
      | with_reducible apply Ends.pure
      | with_reducible apply Ends.ite
      | with_reducible apply Ends.get_bind
      | with_reducible apply Ends.set_bind
      | with_reducible apply Ends.modify_bind
      | with_reducible apply Ends.set
      | with_reducible apply Ends.changed
      | with_reducible apply Ends.bind
      | with_reducible refine Ends.ofOk (by assumption) ?_
      | with_reducible refine Ends.ofError (by assumption) ?_
      | with_reducible refine Keeps.ofSnd (by assumption) ?_
        | intro _
      | simp only [Keeps.record_iff]
      | (rename_i e; nomatch (e : none = some _))
      | (rename_i e; cases (e : some _ = some _))
      | (rename_i e; dsimp only at e)
      | (rename_i e; split at e)
      | with_reducible fail_if_success skip
  | cons _ _ ih =>
    intro h3
    unfold writeRows
    repeat' first
      | with_reducible apply ih
      | with_reducible assumption
      | with_reducible apply writeMarked_keeps
      | with_reducible apply Ends.pure
      | with_reducible apply Ends.ite
      | with_reducible apply Ends.get_bind
      | with_reducible apply Ends.set_bind
      | with_reducible apply Ends.modify_bind
      | with_reducible apply Ends.set
      | with_reducible apply Ends.changed
      | with_reducible apply Ends.bind
      | with_reducible refine Ends.ofOk (by assumption) ?_
      | with_reducible refine Ends.ofError (by assumption) ?_
      | with_reducible refine Keeps.ofSnd (by assumption) ?_
      | apply ih
      | intro _
      | simp only [Keeps.record_iff]
      | (rename_i e; nomatch (e : none = some _))
      | (rename_i e; cases (e : some _ = some _))
      | (rename_i e; dsimp only at e)
      | (rename_i e; split at e)
      | with_reducible fail_if_success skip

theorem copyRows_keeps {s0 : State} {x1} {x2} {x3} {x4} {x5} {x6} {x7 : State} (h7 : Keeps s0 x7) :
    Ends s0 x7 (copyRows x1 x2 x3 x4 x5 x6) := by
  unfold copyRows
  repeat' first
    | with_reducible assumption
    | with_reducible apply streamRows_keeps
    | with_reducible apply State.draw_keeps
    | with_reducible apply writeRows_keeps
    | with_reducible apply failWith_keeps
    | with_reducible apply Ends.pure
    | with_reducible apply Ends.ite
    | with_reducible apply Ends.get_bind
    | with_reducible apply Ends.set_bind
    | with_reducible apply Ends.modify_bind
    | with_reducible apply Ends.set
    | with_reducible apply Ends.changed
    | with_reducible apply Ends.bind
    | with_reducible apply Ends.tryCatch
    | with_reducible refine Ends.ofOk (by assumption) ?_
    | with_reducible refine Ends.ofError (by assumption) ?_
    | with_reducible refine Keeps.ofSnd (by assumption) ?_
    | with_reducible refine Keeps.ofFst (by assumption) ?_
    | intro _
    | simp only [Keeps.record_iff]
    | split
    | (rename_i e; nomatch (e : none = some _))
    | (rename_i e; cases (e : some _ = some _))
    | (rename_i e; dsimp only at e)
    | (rename_i e; split at e)
    | with_reducible fail_if_success skip

theorem ringPages_keeps {s0 : State} {x1} {x2} {x3} {x4 : State} (h4 : Keeps s0 x4) :
    Ends s0 x4 (ringPages x1 x2 x3) := by
  revert h4
  induction x2 generalizing x3 x4 with
  | zero =>
    intro h4
    unfold ringPages
    repeat' first
      | with_reducible assumption
      | with_reducible apply translate_keeps
      | with_reducible apply failWith_keeps
      | with_reducible apply Ends.pure
      | with_reducible apply Ends.ite
      | with_reducible apply Ends.get_bind
      | with_reducible apply Ends.set_bind
      | with_reducible apply Ends.modify_bind
      | with_reducible apply Ends.set
      | with_reducible apply Ends.changed
      | with_reducible apply Ends.bind
      | with_reducible refine Ends.ofOk (by assumption) ?_
      | with_reducible refine Ends.ofError (by assumption) ?_
      | with_reducible refine Keeps.ofSnd (by assumption) ?_
      | with_reducible refine Keeps.ofFst (by assumption) ?_
        | intro _
      | simp only [Keeps.record_iff]
      | split
      | (rename_i e; nomatch (e : none = some _))
      | (rename_i e; cases (e : some _ = some _))
      | (rename_i e; dsimp only at e)
      | (rename_i e; split at e)
      | with_reducible fail_if_success skip
  | succ _ ih =>
    intro h4
    unfold ringPages
    repeat' first
      | with_reducible apply ih
      | with_reducible assumption
      | with_reducible apply translate_keeps
      | with_reducible apply failWith_keeps
      | with_reducible apply Ends.pure
      | with_reducible apply Ends.ite
      | with_reducible apply Ends.get_bind
      | with_reducible apply Ends.set_bind
      | with_reducible apply Ends.modify_bind
      | with_reducible apply Ends.set
      | with_reducible apply Ends.changed
      | with_reducible apply Ends.bind
      | with_reducible refine Ends.ofOk (by assumption) ?_
      | with_reducible refine Ends.ofError (by assumption) ?_
      | with_reducible refine Keeps.ofSnd (by assumption) ?_
      | with_reducible refine Keeps.ofFst (by assumption) ?_
      | apply ih
      | intro _
      | simp only [Keeps.record_iff]
      | split
      | (rename_i e; nomatch (e : none = some _))
      | (rename_i e; cases (e : some _ = some _))
      | (rename_i e; dsimp only at e)
      | (rename_i e; split at e)
      | with_reducible fail_if_success skip

theorem State.beginStream_keeps {s0 : State} {x1 : State} {x2} {x3} (h1 : Keeps s0 x1) :
    Keeps s0 (State.beginStream x1 x2 x3) := by
  unfold State.beginStream
  repeat' first
    | with_reducible assumption
    | with_reducible apply State.modSlice_keeps
    | with_reducible apply State.startSlice_keeps
    | with_reducible refine Keeps.ofSnd (by assumption) ?_
    | intro _
    | simp only [Keeps.record_iff]
    | split
    | with_reducible fail_if_success skip

theorem State.blockDone_keeps {s0 : State} {x1 : State} {x2} {x3} (h1 : Keeps s0 x1) :
    Keeps s0 (State.blockDone x1 x2 x3) := by
  unfold State.blockDone
  repeat' first
    | with_reducible assumption
    | with_reducible apply State.modOp_keeps
    | with_reducible apply State.stopSlice_keeps
    | with_reducible apply State.latchBodies_keeps
    | with_reducible refine Keeps.ofSnd (by assumption) ?_
    | with_reducible refine Keeps.ofFst (by assumption) ?_
    | intro _
    | simp only [Keeps.record_iff]
    | split
    | with_reducible fail_if_success skip

theorem State.blockFails_keeps {s0 : State} {x1 : State} {x2} {x3} {x4} {x5} (h1 : Keeps s0 x1) :
    Keeps s0 (State.blockFails x1 x2 x3 x4 x5) := by
  unfold State.blockFails
  repeat' first
    | with_reducible assumption
    | with_reducible apply State.stopSlice_keeps
    | with_reducible refine Keeps.ofSnd (by assumption) ?_
    | simp only [Keeps.record_iff]
    | with_reducible fail_if_success skip

theorem State.blockReplayed_keeps {s0 : State} {x1 : State} {x2} {x3} {x4} (h1 : Keeps s0 x1) :
    Keeps s0 (State.blockReplayed x1 x2 x3 x4) := by
  unfold State.blockReplayed
  repeat' first
    | with_reducible assumption
    | with_reducible apply State.notePassed_keeps
    | with_reducible apply State.addObj_keeps
    | with_reducible refine Keeps.ofSnd (by assumption) ?_
    | simp only [Keeps.record_iff]
    | split
    | with_reducible fail_if_success skip

theorem State.runCopyBlock_keeps {s0 : State} {x1 : State} {x2} {x3} (h1 : Keeps s0 x1) :
    Keeps s0 (State.runCopyBlock x1 x2 x3) := by
  unfold State.runCopyBlock
  repeat' first
    | with_reducible assumption
    | with_reducible apply State.beginStream_keeps
    | with_reducible apply State.blockFails_keeps
    | with_reducible apply State.runM_keeps
    | with_reducible apply copyRows_keeps
    | with_reducible apply State.blockDone_keeps
    | with_reducible apply State.blockReplayed_keeps
    | with_reducible apply Ends.pure
    | with_reducible apply Ends.ite
    | with_reducible apply Ends.get_bind
    | with_reducible apply Ends.set_bind
    | with_reducible apply Ends.modify_bind
    | with_reducible apply Ends.set
    | with_reducible apply Ends.changed
    | with_reducible apply Ends.bind
    | with_reducible apply Ends.tryCatch
    | with_reducible refine Ends.ofOk (by assumption) ?_
    | with_reducible refine Ends.ofError (by assumption) ?_
    | with_reducible refine Keeps.ofSnd (by assumption) ?_
    | with_reducible refine Keeps.ofFst (by assumption) ?_
    | intro _
    | simp only [Keeps.record_iff]
    | split
    | with_reducible fail_if_success skip

theorem State.runRingBlock_keeps {s0 : State} {x1 : State} {x2} {x3} (h1 : Keeps s0 x1) :
    Keeps s0 (State.runRingBlock x1 x2 x3) := by
  unfold State.runRingBlock
  repeat' first
    | with_reducible assumption
    | with_reducible apply State.beginStream_keeps
    | with_reducible apply State.blockFails_keeps
    | with_reducible apply State.modOp_keeps
    | with_reducible apply State.runM_keeps
    | with_reducible apply ringPages_keeps
    | with_reducible apply copyRows_keeps
    | with_reducible apply State.blockDone_keeps
    | with_reducible apply State.blockReplayed_keeps
    | with_reducible apply State.applySignal_keeps
    | with_reducible apply Ends.pure
    | with_reducible apply Ends.ite
    | with_reducible apply Ends.get_bind
    | with_reducible apply Ends.set_bind
    | with_reducible apply Ends.modify_bind
    | with_reducible apply Ends.set
    | with_reducible apply Ends.changed
    | with_reducible apply Ends.bind
    | with_reducible apply Ends.tryCatch
    | with_reducible refine Ends.ofOk (by assumption) ?_
    | with_reducible refine Ends.ofError (by assumption) ?_
    | with_reducible refine Keeps.ofSnd (by assumption) ?_
    | with_reducible refine Keeps.ofFst (by assumption) ?_
    | intro _
    | simp only [Keeps.record_iff]
    | split
    | with_reducible fail_if_success skip

theorem State.runWaitBlock_keeps {s0 : State} {x1 : State} {x2} (h1 : Keeps s0 x1) :
    Keeps s0 (State.runWaitBlock x1 x2) := by
  unfold State.runWaitBlock
  repeat' first
    | with_reducible assumption
    | with_reducible apply State.latchBodies_keeps
    | with_reducible apply State.beginStream_keeps
    | with_reducible apply State.blockDone_keeps
    | with_reducible apply State.blockFails_keeps
    | with_reducible refine Keeps.ofSnd (by assumption) ?_
    | with_reducible refine Keeps.ofFst (by assumption) ?_
    | intro _
    | simp only [Keeps.record_iff]
    | split
    | with_reducible fail_if_success skip

theorem State.runSignalBlock_keeps {s0 : State} {x1 : State} {x2} (h1 : Keeps s0 x1) :
    Keeps s0 (State.runSignalBlock x1 x2) := by
  unfold State.runSignalBlock
  repeat' first
    | with_reducible assumption
    | with_reducible apply State.applySignal_keeps
    | with_reducible apply State.blockDone_keeps
    | with_reducible apply State.beginStream_keeps
    | with_reducible refine Keeps.ofSnd (by assumption) ?_
    | with_reducible refine Keeps.ofFst (by assumption) ?_
    | intro _
    | simp only [Keeps.record_iff]
    | split
    | with_reducible fail_if_success skip

theorem State.runChainBlock_keeps {s0 : State} {x1 : State} {x2} (h1 : Keeps s0 x1) :
    Keeps s0 (State.runChainBlock x1 x2) := by
  unfold State.runChainBlock
  repeat' first
    | with_reducible assumption
    | with_reducible apply State.beginStream_keeps
    | with_reducible apply State.runM_keeps
    | with_reducible apply readList_keeps
    | with_reducible apply State.latchBodies_keeps
    | with_reducible apply State.modOp_keeps
    | with_reducible apply State.blockFails_keeps
    | with_reducible apply Ends.pure
    | with_reducible apply Ends.ite
    | with_reducible apply Ends.get_bind
    | with_reducible apply Ends.set_bind
    | with_reducible apply Ends.modify_bind
    | with_reducible apply Ends.set
    | with_reducible apply Ends.changed
    | with_reducible apply Ends.bind
    | with_reducible apply Ends.tryCatch
    | with_reducible refine Ends.ofOk (by assumption) ?_
    | with_reducible refine Ends.ofError (by assumption) ?_
    | with_reducible refine Keeps.ofSnd (by assumption) ?_
    | with_reducible refine Keeps.ofFst (by assumption) ?_
    | intro _
    | simp only [Keeps.record_iff]
    | split
    | with_reducible fail_if_success skip

theorem State.streamOp_keeps {s0 : State} {x1 : State} {x2} (h1 : Keeps s0 x1) :
    Keeps s0 (State.streamOp x1 x2) := by
  unfold State.streamOp
  repeat' first
    | with_reducible assumption
    | with_reducible apply State.dispatch_keeps
    | with_reducible apply readStream_keeps
    | with_reducible apply State.queueAtLead_keeps
    | with_reducible apply State.latchBodies_keeps
    | with_reducible apply State.placeAll_keeps
    | with_reducible apply Ends.pure
    | with_reducible apply Ends.ite
    | with_reducible apply Ends.get_bind
    | with_reducible apply Ends.set_bind
    | with_reducible apply Ends.modify_bind
    | with_reducible apply Ends.set
    | with_reducible apply Ends.changed
    | with_reducible apply Ends.bind
    | with_reducible refine Ends.ofOk (by assumption) ?_
    | with_reducible refine Ends.ofError (by assumption) ?_
    | with_reducible refine Keeps.ofSnd (by assumption) ?_
    | with_reducible refine Keeps.ofFst (by assumption) ?_
    | intro _
    | simp only [Keeps.record_iff]
    | split
    | with_reducible fail_if_success skip

end Sys2Proof.Machine
end

