-- ==== Sys2Proof/Laws/KeepsSwitch.lean ====
section
/-! SUPPORT. What the operations of Machine/Switch.lean keep. -/

set_option linter.all false

namespace Sys2Proof.Machine

theorem State.clearUnits_keeps {s0 : State} {x1 : State} {x2} {x3} (h1 : Keeps s0 x1) :
    Keeps s0 (State.clearUnits x1 x2 x3) := by
  unfold State.clearUnits
  repeat' first
    | with_reducible assumption
    | with_reducible refine Keeps.ofSnd (by assumption) ?_
    | with_reducible refine Keeps.ofFst (by assumption) ?_
    | intro _
    | simp only [Keeps.record_iff]
    | split
    | with_reducible fail_if_success skip

theorem State.putWords_keeps {s0 : State} {x1 : State} {x2} {x3} {x4} {x5} (h1 : Keeps s0 x1) :
    Keeps s0 (State.putWords x1 x2 x3 x4 x5) := by
  unfold State.putWords
  repeat' first
    | with_reducible assumption
    | with_reducible apply State.writeNat_keeps
    | with_reducible refine Keeps.ofSnd (by assumption) ?_
    | with_reducible apply Keeps.foldl
    | with_reducible apply Keeps.foldlFst
    | with_reducible apply Keeps.foldlSnd
    | intro _
    | simp only [Keeps.record_iff]
    | split
    | with_reducible fail_if_success skip

theorem State.coreOut_keeps {s0 : State} {x1 : State} {x2} {x3} (h1 : Keeps s0 x1) :
    Keeps s0 (State.coreOut x1 x2 x3) := by
  unfold State.coreOut
  repeat' first
    | with_reducible assumption
    | with_reducible apply State.zeroRange_keeps
    | with_reducible apply State.putWords_keeps
    | with_reducible apply State.writeNat_keeps
    | with_reducible refine Keeps.ofSnd (by assumption) ?_
    | with_reducible refine Keeps.ofFst (by assumption) ?_
    | with_reducible apply Keeps.foldl
    | with_reducible apply Keeps.foldlFst
    | with_reducible apply Keeps.foldlSnd
    | intro _
    | simp only [Keeps.record_iff]
    | with_reducible fail_if_success skip

theorem State.tilesOut_keeps {s0 : State} {x1 : State} {x2} {x3} (h1 : Keeps s0 x1) :
    Keeps s0 (State.tilesOut x1 x2 x3) := by
  unfold State.tilesOut
  repeat' first
    | with_reducible assumption
    | with_reducible apply State.putWords_keeps
    | with_reducible apply State.zeroRange_keeps
    | with_reducible refine Keeps.ofSnd (by assumption) ?_
    | with_reducible refine Keeps.ofFst (by assumption) ?_
    | intro _
    | simp only [Keeps.record_iff]
    | split
    | with_reducible fail_if_success skip

theorem State.saveOut_keeps {s0 : State} {x1 : State} {x2} {x3} {x4} (h1 : Keeps s0 x1) :
    Keeps s0 (State.saveOut x1 x2 x3 x4) := by
  unfold State.saveOut
  repeat' first
    | with_reducible assumption
    | with_reducible apply State.copyRange_keeps
    | with_reducible apply State.tilesOut_keeps
    | with_reducible apply State.coreOut_keeps
    | with_reducible apply State.dropStalls_keeps
    | with_reducible apply State.clearUnits_keeps
    | with_reducible apply State.setCluster_keeps
    | with_reducible refine Keeps.ofSnd (by assumption) ?_
    | with_reducible refine Keeps.ofFst (by assumption) ?_
    | with_reducible apply Keeps.foldl
    | with_reducible apply Keeps.foldlFst
    | with_reducible apply Keeps.foldlSnd
    | intro _
    | simp only [Keeps.record_iff]
    | with_reducible fail_if_success skip

theorem State.restoreUnits_keeps {s0 : State} {x1 : State} {x2} {x3} {x4} (h1 : Keeps s0 x1) :
    Keeps s0 (State.restoreUnits x1 x2 x3 x4) := by
  unfold State.restoreUnits
  repeat' first
    | with_reducible assumption
    | with_reducible apply State.setEngine_keeps
    | with_reducible apply State.setCore_keeps
    | with_reducible refine Keeps.ofSnd (by assumption) ?_
    | with_reducible refine Keeps.ofFst (by assumption) ?_
    | with_reducible apply Keeps.foldl
    | with_reducible apply Keeps.foldlFst
    | with_reducible apply Keeps.foldlSnd
    | intro _
    | simp only [Keeps.record_iff]
    | with_reducible fail_if_success skip

theorem State.switchOut_keeps {s0 : State} {x1 : State} {x2} (h1 : Keeps s0 x1) :
    Keeps s0 (State.switchOut x1 x2) := by
  unfold State.switchOut
  repeat' first
    | with_reducible assumption
    | with_reducible apply State.setCluster_keeps
    | with_reducible apply State.raise_keeps
    | with_reducible apply State.addObj_keeps
    | with_reducible apply State.saveOut_keeps
    | with_reducible refine Keeps.ofSnd (by assumption) ?_
    | with_reducible refine Keeps.ofFst (by assumption) ?_
    | intro _
    | simp only [Keeps.record_iff]
    | split
    | with_reducible fail_if_success skip

theorem State.switchIn_keeps {s0 : State} {x1 : State} {x2} (h1 : Keeps s0 x1) :
    Keeps s0 (State.switchIn x1 x2) := by
  unfold State.switchIn
  repeat' first
    | with_reducible assumption
    | with_reducible apply State.setCluster_keeps
    | with_reducible apply State.zeroRange_keeps
    | with_reducible apply State.copyRange_keeps
    | with_reducible apply State.restoreUnits_keeps
    | with_reducible apply State.killSlices_keeps
    | with_reducible refine Keeps.ofSnd (by assumption) ?_
    | with_reducible refine Keeps.ofFst (by assumption) ?_
    | intro _
    | simp only [Keeps.record_iff]
    | split
    | with_reducible fail_if_success skip

theorem State.beginMove_keeps {s0 : State} {x1 : State} {x2} {x3} (h1 : Keeps s0 x1) :
    Keeps s0 (State.beginMove x1 x2 x3) := by
  unfold State.beginMove
  repeat' first
    | with_reducible assumption
    | with_reducible apply State.returnSlices_keeps
    | with_reducible apply State.setCluster_keeps
    | with_reducible refine Keeps.ofSnd (by assumption) ?_
    | intro _
    | simp only [Keeps.record_iff]
    | with_reducible fail_if_success skip

theorem State.adoptCluster_keeps {s0 : State} {x1 : State} {x2} (h1 : Keeps s0 x1) :
    Keeps s0 (State.adoptCluster x1 x2) := by
  unfold State.adoptCluster
  repeat' first
    | with_reducible assumption
    | with_reducible apply State.zeroRange_keeps
    | with_reducible apply State.setCluster_keeps
    | with_reducible refine Keeps.ofSnd (by assumption) ?_
    | with_reducible refine Keeps.ofFst (by assumption) ?_
    | intro _
    | simp only [Keeps.record_iff]
    | split
    | with_reducible fail_if_success skip

theorem State.moveHandover_keeps {s0 : State} {x1 : State} {x2} (h1 : Keeps s0 x1) :
    Keeps s0 (State.moveHandover x1 x2) := by
  unfold State.moveHandover
  repeat' first
    | with_reducible assumption
    | with_reducible apply State.adoptCluster_keeps
    | with_reducible apply State.raiseAs_keeps
    | with_reducible refine Keeps.ofSnd (by assumption) ?_
    | intro _
    | simp only [Keeps.record_iff]
    | split
    | with_reducible fail_if_success skip

theorem State.moveExpired_keeps {s0 : State} {x1 : State} {x2} (h1 : Keeps s0 x1) :
    Keeps s0 (State.moveExpired x1 x2) := by
  unfold State.moveExpired
  repeat' first
    | with_reducible assumption
    | with_reducible apply State.killSlices_keeps
    | with_reducible refine Keeps.ofSnd (by assumption) ?_
    | intro _
    | simp only [Keeps.record_iff]
    | split
    | with_reducible fail_if_success skip

end Sys2Proof.Machine
end

