-- ==== Sys2Proof/Laws/KeepsFabric.lean ====
section
/-! SUPPORT. What the operations of Machine/Fabric.lean keep. -/

set_option linter.all false

namespace Sys2Proof.Machine

theorem State.failWork_keeps {s0 : State} {x1 : State} {x2} {x3} {x4} (h1 : Keeps s0 x1) :
    Keeps s0 (State.failWork x1 x2 x3 x4) := by
  unfold State.failWork
  repeat' first
    | with_reducible assumption
    | with_reducible apply State.modOp_keeps
    | with_reducible apply State.modSlice_keeps
    | with_reducible refine Keeps.ofSnd (by assumption) ?_
    | with_reducible refine Keeps.ofFst (by assumption) ?_
    | intro _
    | simp only [Keeps.record_iff]
    | split
    | with_reducible fail_if_success skip

theorem State.failPayer_keeps {s0 : State} {x1 : State} {x2} {x3} {x4} (h1 : Keeps s0 x1) :
    Keeps s0 (State.failPayer x1 x2 x3 x4) := by
  unfold State.failPayer
  repeat' first
    | with_reducible assumption
    | with_reducible apply State.mboxFail_keeps
    | with_reducible apply State.draw_keeps
    | with_reducible apply State.stopTask_keeps
    | with_reducible apply State.failWork_keeps
    | with_reducible apply State.failSlice_keeps
    | with_reducible refine Keeps.ofSnd (by assumption) ?_
    | with_reducible refine Keeps.ofFst (by assumption) ?_
    | intro _
    | simp only [Keeps.record_iff]
    | split
    | with_reducible fail_if_success skip

theorem State.failRead_keeps {s0 : State} {x1 : State} {x2} {x3} {x4} (h1 : Keeps s0 x1) :
    Keeps s0 (State.failRead x1 x2 x3 x4) := by
  unfold State.failRead
  repeat' first
    | with_reducible assumption
    | with_reducible apply State.mboxResume_keeps
    | with_reducible refine Keeps.ofSnd (by assumption) ?_
    | with_reducible refine Keeps.ofFst (by assumption) ?_
    | with_reducible apply Keeps.foldl
    | with_reducible apply Keeps.foldlFst
    | with_reducible apply Keeps.foldlSnd
    | intro _
    | simp only [Keeps.record_iff]
    | split
    | with_reducible fail_if_success skip

theorem State.failStream_keeps {s0 : State} {x1 : State} {x2} {x3} {x4} {x5} (h1 : Keeps s0 x1) :
    Keeps s0 (State.failStream x1 x2 x3 x4 x5) := by
  unfold State.failStream
  repeat' first
    | with_reducible assumption
    | with_reducible apply State.closeSend_keeps
    | with_reducible apply State.addObj_keeps
    | with_reducible apply State.failPayer_keeps
    | with_reducible apply State.failRead_keeps
    | with_reducible refine Keeps.ofSnd (by assumption) ?_
    | with_reducible refine Keeps.ofFst (by assumption) ?_
    | with_reducible apply Keeps.foldl
    | with_reducible apply Keeps.foldlFst
    | with_reducible apply Keeps.foldlSnd
    | intro _
    | simp only [Keeps.record_iff]
    | split
    | with_reducible fail_if_success skip

theorem State.resumeMailboxes_keeps {s0 : State} {x1 : State} (h1 : Keeps s0 x1) :
    Keeps s0 (State.resumeMailboxes x1) := by
  unfold State.resumeMailboxes
  repeat' first
    | with_reducible assumption
    | with_reducible apply State.mboxResume_keeps
    | with_reducible refine Keeps.ofSnd (by assumption) ?_
    | with_reducible apply Keeps.foldl
    | with_reducible apply Keeps.foldlFst
    | with_reducible apply Keeps.foldlSnd
    | intro _
    | simp only [Keeps.record_iff]
    | split
    | with_reducible fail_if_success skip

theorem State.acked_keeps {s0 : State} {x1 : State} {x2} {x3} {x4} (h1 : Keeps s0 x1) :
    Keeps s0 (State.acked x1 x2 x3 x4) := by
  unfold State.acked
  repeat' first
    | with_reducible assumption
    | with_reducible apply State.setSendStream_keeps
    | with_reducible apply State.pump_keeps
    | with_reducible apply State.resumeMailboxes_keeps
    | with_reducible refine Keeps.ofSnd (by assumption) ?_
    | with_reducible refine Keeps.ofFst (by assumption) ?_
    | intro _
    | simp only [Keeps.record_iff]
    | split
    | with_reducible fail_if_success skip

theorem State.sendDirect_keeps {s0 : State} {x1 : State} {x2} {x3} {x4} (h1 : Keeps s0 x1) :
    Keeps s0 (State.sendDirect x1 x2 x3 x4) := by
  unfold State.sendDirect
  repeat' first
    | with_reducible assumption
    | with_reducible apply State.emitFrame_keeps
    | with_reducible refine Keeps.ofSnd (by assumption) ?_
    | with_reducible refine Keeps.ofFst (by assumption) ?_
    | intro _
    | simp only [Keeps.record_iff]
    | split
    | with_reducible fail_if_success skip

theorem State.sendNak_keeps {s0 : State} {x1 : State} {x2} {x3} {x4} (h1 : Keeps s0 x1) :
    Keeps s0 (State.sendNak x1 x2 x3 x4) := by
  unfold State.sendNak
  repeat' first
    | with_reducible assumption
    | with_reducible apply State.sendDirect_keeps
    | with_reducible refine Keeps.ofSnd (by assumption) ?_
    | simp only [Keeps.record_iff]
    | with_reducible fail_if_success skip

theorem State.transit_keeps {s0 : State} {x1 : State} {x2} (h1 : Keeps s0 x1) :
    Keeps s0 (State.transit x1 x2).1 := by
  unfold State.transit
  repeat' first
    | with_reducible assumption
    | with_reducible apply State.addObj_keeps
    | with_reducible apply State.emitFrame_keeps
    | with_reducible refine Keeps.ofSnd (by assumption) ?_
    | with_reducible refine Keeps.ofFst (by assumption) ?_
    | intro _
    | simp only [Keeps.record_iff]
    | split
    | with_reducible fail_if_success skip

theorem State.takeIn_keeps {s0 : State} {x1} {x2 : State → Prod State Bool} {x3 : State} (f2 : ∀ a0, Keeps s0 a0 → Keeps s0 (x2 a0).1) (h3 : Keeps s0 x3) :
    Keeps s0 (State.takeIn x1 x2 x3).1 := by
  unfold State.takeIn
  repeat' first
    | with_reducible assumption
    | with_reducible apply State.transit_keeps
    | with_reducible apply State.addObj_keeps
    | with_reducible apply State.sendNak_keeps
    | with_reducible apply f2
    | with_reducible apply Ends.pure
    | with_reducible apply Ends.ite
    | with_reducible apply Ends.get_bind
    | with_reducible apply Ends.set_bind
    | with_reducible apply Ends.modify_bind
    | with_reducible apply Ends.set
    | with_reducible apply Ends.changed
    | with_reducible apply Ends.bind
    | with_reducible refine Keeps.ofSnd (by assumption) ?_
    | simp only [Keeps.record_iff]
    | split
    | with_reducible fail_if_success skip

theorem State.emitControl_keeps {s0 : State} {x1 : State} {x2} {x3} (h1 : Keeps s0 x1) :
    Keeps s0 (State.emitControl x1 x2 x3) := by
  unfold State.emitControl
  repeat' first
    | with_reducible assumption
    | with_reducible apply State.addObj_keeps
    | with_reducible apply State.send_keeps
    | with_reducible refine Keeps.ofSnd (by assumption) ?_
    | simp only [Keeps.record_iff]
    | with_reducible fail_if_success skip

theorem State.sendControl_keeps {s0 : State} {x1 : State} {x2} {x3} (h1 : Keeps s0 x1) :
    Keeps s0 (State.sendControl x1 x2 x3) := by
  unfold State.sendControl
  repeat' first
    | with_reducible assumption
    | with_reducible apply State.setSharelPort_keeps
    | with_reducible apply State.emitControl_keeps
    | with_reducible refine Keeps.ofSnd (by assumption) ?_
    | simp only [Keeps.record_iff]
    | split
    | with_reducible fail_if_success skip

theorem State.releaseControl_keeps {s0 : State} {x1 : State} {x2} (h1 : Keeps s0 x1) :
    Keeps s0 (State.releaseControl x1 x2) := by
  unfold State.releaseControl
  repeat' first
    | with_reducible assumption
    | with_reducible apply State.emitControl_keeps
    | with_reducible apply State.setSharelPort_keeps
    | with_reducible refine Keeps.ofSnd (by assumption) ?_
    | with_reducible apply Keeps.foldl
    | with_reducible apply Keeps.foldlFst
    | with_reducible apply Keeps.foldlSnd
    | intro _
    | simp only [Keeps.record_iff]
    | split
    | with_reducible fail_if_success skip

theorem State.updatePfc_keeps {s0 : State} {x1 : State} {x2} (h1 : Keeps s0 x1) :
    Keeps s0 (State.updatePfc x1 x2) := by
  unfold State.updatePfc
  repeat' first
    | with_reducible assumption
    | with_reducible apply State.addObj_keeps
    | with_reducible apply State.send_keeps
    | with_reducible apply State.setSharelPort_keeps
    | with_reducible refine Keeps.ofSnd (by assumption) ?_
    | with_reducible apply Keeps.foldl
    | with_reducible apply Keeps.foldlFst
    | with_reducible apply Keeps.foldlSnd
    | intro _
    | simp only [Keeps.record_iff]
    | split
    | with_reducible fail_if_success skip

theorem State.keepFrame_keeps {s0 : State} {x1 : State} {x2} {x3} (h1 : Keeps s0 x1) :
    Keeps s0 (State.keepFrame x1 x2 x3) := by
  unfold State.keepFrame
  repeat' first
    | with_reducible assumption
    | with_reducible apply State.setSharelPort_keeps
    | with_reducible refine Keeps.ofSnd (by assumption) ?_
    | simp only [Keeps.record_iff]
    | with_reducible fail_if_success skip

theorem State.holdFrame_keeps {s0 : State} {x1 : State} {x2} {x3} (h1 : Keeps s0 x1) :
    Keeps s0 (State.holdFrame x1 x2 x3) := by
  unfold State.holdFrame
  repeat' first
    | with_reducible assumption
    | with_reducible apply State.updatePfc_keeps
    | with_reducible apply State.keepFrame_keeps
    | with_reducible apply State.addObj_keeps
    | with_reducible refine Keeps.ofSnd (by assumption) ?_
    | simp only [Keeps.record_iff]
    | split
    | with_reducible fail_if_success skip

theorem State.arrive_keeps {s0 : State} {x1 : State} {x2} {x3} {x4} {x5 : State → Prod State Bool} (h1 : Keeps s0 x1) (f5 : ∀ a0, Keeps s0 a0 → Keeps s0 (x5 a0).1) :
    Keeps s0 (State.arrive x1 x2 x3 x4 x5) := by
  unfold State.arrive
  repeat' first
    | with_reducible assumption
    | with_reducible apply State.addObj_keeps
    | with_reducible apply State.holdFrame_keeps
    | with_reducible apply State.takeIn_keeps
    | with_reducible apply f5
    | with_reducible apply Ends.pure
    | with_reducible apply Ends.ite
    | with_reducible apply Ends.get_bind
    | with_reducible apply Ends.set_bind
    | with_reducible apply Ends.modify_bind
    | with_reducible apply Ends.set
    | with_reducible apply Ends.changed
    | with_reducible apply Ends.bind
    | with_reducible refine Ends.ofOk (by assumption) ?_
    | with_reducible refine Ends.ofError (by assumption) ?_
    | with_reducible refine Keeps.ofSnd (by assumption) ?_
    | with_reducible refine Keeps.ofFst (by assumption) ?_
    | simp only [Keeps.record_iff]
    | split
    | with_reducible fail_if_success skip

theorem State.servePort_keeps {s0 : State} {x1 : Sys2Proof.Received → State → Prod State Bool} {x2 : State} {x3} (f1 : ∀ a0 a1, Keeps s0 a1 → Keeps s0 (x1 a0 a1).1) (h2 : Keeps s0 x2) :
    Keeps s0 (State.servePort x1 x2 x3) := by
  unfold State.servePort
  repeat' first
    | with_reducible assumption
    | with_reducible apply State.releaseControl_keeps
    | with_reducible apply State.updatePfc_keeps
    | with_reducible apply State.keepFrame_keeps
    | with_reducible apply State.takeIn_keeps
    | with_reducible apply State.setSharelPort_keeps
    | with_reducible apply f1
    | with_reducible apply Ends.pure
    | with_reducible apply Ends.ite
    | with_reducible apply Ends.get_bind
    | with_reducible apply Ends.set_bind
    | with_reducible apply Ends.modify_bind
    | with_reducible apply Ends.set
    | with_reducible apply Ends.changed
    | with_reducible apply Ends.bind
    | with_reducible refine Ends.ofOk (by assumption) ?_
    | with_reducible refine Ends.ofError (by assumption) ?_
    | with_reducible refine Keeps.ofSnd (by assumption) ?_
    | with_reducible refine Keeps.ofFst (by assumption) ?_
    | with_reducible apply Keeps.foldl
    | with_reducible apply Keeps.foldlFst
    | with_reducible apply Keeps.foldlSnd
    | intro _
    | simp only [Keeps.record_iff]
    | split
    | with_reducible fail_if_success skip

theorem State.setRecv_keeps {s0 : State} {x1 : State} {x2} {x3} (h1 : Keeps s0 x1) :
    Keeps s0 (State.setRecv x1 x2 x3) := by
  unfold State.setRecv
  repeat' first
    | with_reducible assumption
    | with_reducible refine Keeps.ofSnd (by assumption) ?_
    | simp only [Keeps.record_iff]
    | with_reducible fail_if_success skip

theorem State.openRecv_keeps {s0 x1 : State} {x2} {x3} {t : State} {y0} (e : State.openRecv x1 x2 x3 = some (y0, t))
    (h1 : Keeps s0 x1) : Keeps s0 t := by
  unfold State.openRecv at e
  split at e
  · split at e
    · cases e; exact Keeps.record h1
    · cases e; exact h1
  · split at e
    · cases e; exact h1
    · cases e

theorem State.inOrder_keeps {s0 : State} {x1} {x2 : State → State × Taken} {x3 : State}
    (f2 : ∀ a0, Keeps s0 a0 → Keeps s0 (x2 a0).1) (h3 : Keeps s0 x3) : Keeps s0 (State.inOrder x1 x2 x3).1 := by
  have h := State.acked_keeps (x2 := x1.src) (x3 := x1.cls) (x4 := x1.ack) h3
  unfold State.inOrder
  dsimp only
  split
  · dsimp only
    split
    · exact h
    · exact State.sendNak_keeps h
  · rename_i r _ e
    have h := State.openRecv_keeps e h
    split
    · have h := f2 _ (State.setRecv_keeps (x2 := streamKey x1.src x1.cls) (x3 := r) h)
      split
      · exact h
      · exact State.sendNak_keeps (State.setRecv_keeps h)
      · exact State.setRecv_keeps h
    · split
      · dsimp only
        split
        · exact State.setRecv_keeps h
        · exact State.sendNak_keeps (State.setRecv_keeps h)
      · exact State.setRecv_keeps h

theorem State.inbound_keeps {s0 : State} {α : Type} {x2} {x3} {x4 : Req → Nat → M α} {x5 : α → State → State} {x6 : State}
    (f4 : ∀ a0 a1 u, Keeps s0 u → Ends s0 u (x4 a0 a1)) (f5 : ∀ a0 a1, Keeps s0 a1 → Keeps s0 (x5 a0 a1))
    (h6 : Keeps s0 x6) : Keeps s0 (State.inbound x2 x3 x4 x5 x6).1 := by
  unfold State.inbound
  repeat' first
    | with_reducible assumption
    | with_reducible apply f5
    | with_reducible refine Ends.ofOk (by assumption) (f4 _ _ _ ?_)
    | with_reducible refine Ends.ofError (by assumption) (f4 _ _ _ ?_)
    | with_reducible apply State.needTag_keeps
    | with_reducible apply State.requestRead_keeps
    | with_reducible refine Keeps.ofFst (by assumption) ?_
    | split

theorem State.writeAct_keeps {s0 : State} {x1} {x2 : State} (h2 : Keeps s0 x2) :
    Keeps s0 (State.writeAct x1 x2).1 := by
  unfold State.writeAct
  repeat' first
    | with_reducible assumption
    | with_reducible apply State.inOrder_keeps
    | with_reducible apply State.inbound_keeps
    | with_reducible apply writeMarked_keeps
    | with_reducible apply Ends.pure
    | with_reducible apply Ends.ite
    | with_reducible apply Ends.get_bind
    | with_reducible apply Ends.set_bind
    | with_reducible apply Ends.modify_bind
    | with_reducible apply Ends.set
    | with_reducible apply Ends.changed
    | with_reducible apply Ends.bind
    | with_reducible refine Ends.ofOk (by assumption) ?_
    | with_reducible refine Ends.ofError (by assumption) ?_
    | with_reducible refine Keeps.ofSnd (by assumption) ?_
    | intro _
    | simp only [Keeps.record_iff]
    | split
    | with_reducible fail_if_success skip

theorem State.replyFrames_keeps {s0 : State} {x1} {x2} {x3} {x4} {x5} {x6} {x7} {x8} {x9 : State} (h9 : Keeps s0 x9) :
    Keeps s0 (State.replyFrames x1 x2 x3 x4 x5 x6 x7 x8 x9) := by
  revert h9
  induction x5 generalizing x6 x7 x8 x9 with
  | zero =>
    intro h9
    unfold State.replyFrames
    repeat' first
      | with_reducible assumption
      | with_reducible apply State.queueFrame_keeps
      | with_reducible refine Keeps.ofSnd (by assumption) ?_
        | intro _
      | simp only [Keeps.record_iff]
      | split
      | with_reducible fail_if_success skip
  | succ _ ih =>
    intro h9
    unfold State.replyFrames
    repeat' first
      | with_reducible apply ih
      | with_reducible assumption
      | with_reducible apply State.queueFrame_keeps
      | with_reducible refine Keeps.ofSnd (by assumption) ?_
      | apply ih
      | intro _
      | simp only [Keeps.record_iff]
      | split
      | with_reducible fail_if_success skip

theorem State.readAct_keeps {s0 : State} {x1} {x2 : State} (h2 : Keeps s0 x2) :
    Keeps s0 (State.readAct x1 x2).1 := by
  unfold State.readAct
  repeat' first
    | with_reducible assumption
    | with_reducible apply State.inOrder_keeps
    | with_reducible apply State.inbound_keeps
    | with_reducible apply readMarked_keeps
    | with_reducible apply State.replyFrames_keeps
    | with_reducible apply Ends.pure
    | with_reducible apply Ends.ite
    | with_reducible apply Ends.get_bind
    | with_reducible apply Ends.set_bind
    | with_reducible apply Ends.modify_bind
    | with_reducible apply Ends.set
    | with_reducible apply Ends.changed
    | with_reducible apply Ends.bind
    | with_reducible refine Ends.ofOk (by assumption) ?_
    | with_reducible refine Ends.ofError (by assumption) ?_
    | with_reducible refine Keeps.ofSnd (by assumption) ?_
    | intro _
    | simp only [Keeps.record_iff]
    | split
    | with_reducible fail_if_success skip

theorem State.replyAct_keeps {s0 : State} {x1} {x2 : State} (h2 : Keeps s0 x2) :
    Keeps s0 (State.replyAct x1 x2).1 := by
  unfold State.replyAct
  repeat' first
    | with_reducible assumption
    | with_reducible apply State.inOrder_keeps
    | with_reducible apply State.failRead_keeps
    | with_reducible apply State.mboxResume_keeps
    | with_reducible apply Ends.pure
    | with_reducible apply Ends.ite
    | with_reducible apply Ends.get_bind
    | with_reducible apply Ends.set_bind
    | with_reducible apply Ends.modify_bind
    | with_reducible apply Ends.set
    | with_reducible apply Ends.changed
    | with_reducible apply Ends.bind
    | with_reducible refine Ends.ofOk (by assumption) ?_
    | with_reducible refine Ends.ofError (by assumption) ?_
    | with_reducible refine Keeps.ofSnd (by assumption) ?_
    | with_reducible refine Keeps.ofFst (by assumption) ?_
    | intro _
    | simp only [Keeps.record_iff]
    | split
    | with_reducible fail_if_success skip

theorem State.fenceAct_keeps {s0 : State} {x1} {x2 : State} (h2 : Keeps s0 x2) :
    Keeps s0 (State.fenceAct x1 x2).1 := by
  unfold State.fenceAct
  repeat' first
    | with_reducible assumption
    | with_reducible apply State.inOrder_keeps
    | with_reducible apply State.applySignal_keeps
    | with_reducible apply Ends.pure
    | with_reducible apply Ends.ite
    | with_reducible apply Ends.get_bind
    | with_reducible apply Ends.set_bind
    | with_reducible apply Ends.modify_bind
    | with_reducible apply Ends.set
    | with_reducible apply Ends.changed
    | with_reducible apply Ends.bind
    | with_reducible refine Ends.ofOk (by assumption) ?_
    | with_reducible refine Ends.ofError (by assumption) ?_
    | with_reducible refine Keeps.ofSnd (by assumption) ?_
    | with_reducible refine Keeps.ofFst (by assumption) ?_
    | intro _
    | simp only [Keeps.record_iff]
    | split
    | with_reducible fail_if_success skip

theorem State.ackAct_keeps {s0 : State} {x1} {x2 : State} (h2 : Keeps s0 x2) :
    Keeps s0 (State.ackAct x1 x2).1 := by
  unfold State.ackAct
  repeat' first
    | with_reducible assumption
    | with_reducible apply State.acked_keeps
    | with_reducible refine Keeps.ofSnd (by assumption) ?_
    | with_reducible refine Keeps.ofFst (by assumption) ?_
    | simp only [Keeps.record_iff]
    | with_reducible fail_if_success skip

theorem State.resend_keeps {s0 : State} {x1 : State} {x2} {x3} (h1 : Keeps s0 x1) :
    Keeps s0 (State.resend x1 x2 x3) := by
  unfold State.resend
  repeat' first
    | with_reducible assumption
    | with_reducible apply State.pump_keeps
    | with_reducible apply State.addObj_keeps
    | with_reducible apply State.setSendStream_keeps
    | with_reducible refine Keeps.ofSnd (by assumption) ?_
    | simp only [Keeps.record_iff]
    | split
    | with_reducible fail_if_success skip

theorem State.refused_keeps {s0 : State} {x1 : State} {x2} (h1 : Keeps s0 x1) :
    Keeps s0 (State.refused x1 x2) := by
  unfold State.refused
  repeat' first
    | with_reducible assumption
    | with_reducible apply State.setSendStream_keeps
    | with_reducible apply State.failRead_keeps
    | with_reducible apply State.failPayer_keeps
    | with_reducible apply State.addObj_keeps
    | with_reducible refine Keeps.ofSnd (by assumption) ?_
    | with_reducible refine Keeps.ofFst (by assumption) ?_
    | intro _
    | simp only [Keeps.record_iff]
    | split
    | with_reducible fail_if_success skip

theorem State.nakAct_keeps {s0 : State} {x1} {x2 : State} (h2 : Keeps s0 x2) :
    Keeps s0 (State.nakAct x1 x2).1 := by
  unfold State.nakAct
  repeat' first
    | with_reducible assumption
    | with_reducible apply State.failStream_keeps
    | with_reducible apply State.refused_keeps
    | with_reducible apply State.acked_keeps
    | with_reducible apply State.resend_keeps
    | with_reducible refine Keeps.ofSnd (by assumption) ?_
    | simp only [Keeps.record_iff]
    | split
    | with_reducible fail_if_success skip

theorem State.ackSend_keeps {s0 : State} {x1 : State} {x2} {x3} (h1 : Keeps s0 x1) :
    Keeps s0 (State.ackSend x1 x2 x3) := by
  unfold State.ackSend
  repeat' first
    | with_reducible assumption
    | with_reducible apply State.draw_keeps
    | with_reducible apply State.setRecv_keeps
    | with_reducible apply State.sendDirect_keeps
    | with_reducible refine Keeps.ofSnd (by assumption) ?_
    | with_reducible refine Keeps.ofFst (by assumption) ?_
    | intro _
    | simp only [Keeps.record_iff]
    | split
    | with_reducible fail_if_success skip

theorem State.idleClose_keeps {s0 : State} {x1 : State} {x2} {x3} (h1 : Keeps s0 x1) :
    Keeps s0 (State.idleClose x1 x2 x3) := by
  unfold State.idleClose
  repeat' first
    | with_reducible assumption
    | with_reducible apply State.closeSend_keeps
    | with_reducible refine Keeps.ofSnd (by assumption) ?_
    | with_reducible refine Keeps.ofFst (by assumption) ?_
    | intro _
    | simp only [Keeps.record_iff]
    | split
    | with_reducible fail_if_success skip

theorem State.fabricTimeout_keeps {s0 : State} {x1 : State} {x2} {x3} (h1 : Keeps s0 x1) :
    Keeps s0 (State.fabricTimeout x1 x2 x3) := by
  unfold State.fabricTimeout
  repeat' first
    | with_reducible assumption
    | with_reducible apply State.failStream_keeps
    | with_reducible refine Keeps.ofSnd (by assumption) ?_
    | with_reducible refine Keeps.ofFst (by assumption) ?_
    | intro _
    | simp only [Keeps.record_iff]
    | split
    | with_reducible fail_if_success skip

theorem State.floodLsa_keeps {s0 : State} {x1 : State} (h1 : Keeps s0 x1) :
    Keeps s0 (State.floodLsa x1) := by
  unfold State.floodLsa
  repeat' first
    | with_reducible assumption
    | with_reducible apply State.sendControl_keeps
    | with_reducible refine Keeps.ofSnd (by assumption) ?_
    | with_reducible apply Keeps.foldl
    | with_reducible apply Keeps.foldlFst
    | with_reducible apply Keeps.foldlSnd
    | intro _
    | simp only [Keeps.record_iff]
    | split
    | with_reducible fail_if_success skip

theorem State.noteAdj_keeps {s0 : State} {x1 : State} {x2 : State} {x3} (h1 : Keeps s0 x1) (h2 : Keeps s0 x2) :
    Keeps s0 (State.noteAdj x1 x2 x3) := by
  unfold State.noteAdj
  repeat' first
    | with_reducible assumption
    | with_reducible apply State.floodLsa_keeps
    | with_reducible apply State.raiseAs_keeps
    | with_reducible refine Keeps.ofSnd (by assumption) ?_
    | simp only [Keeps.record_iff]
    | split
    | with_reducible fail_if_success skip

theorem State.helloFrame_keeps {s0 : State} {x1 : State} {x2} {x3} (h1 : Keeps s0 x1) :
    Keeps s0 (State.helloFrame x1 x2 x3) := by
  unfold State.helloFrame
  repeat' first
    | with_reducible assumption
    | with_reducible apply State.setSharelPort_keeps
    | with_reducible apply State.addObj_keeps
    | with_reducible apply State.noteAll_keeps
    | with_reducible apply State.noteAdj_keeps
    | with_reducible refine Keeps.ofSnd (by assumption) ?_
    | with_reducible refine Keeps.ofFst (by assumption) ?_
    | intro _
    | simp only [Keeps.record_iff]
    | split
    | with_reducible fail_if_success skip

theorem State.helloSend_keeps {s0 : State} {x1 : State} (h1 : Keeps s0 x1) :
    Keeps s0 (State.helloSend x1) := by
  unfold State.helloSend
  repeat' first
    | with_reducible assumption
    | with_reducible apply State.sendControl_keeps
    | with_reducible refine Keeps.ofSnd (by assumption) ?_
    | with_reducible refine Keeps.ofFst (by assumption) ?_
    | with_reducible apply Keeps.foldl
    | with_reducible apply Keeps.foldlFst
    | with_reducible apply Keeps.foldlSnd
    | intro _
    | simp only [Keeps.record_iff]
    | split
    | with_reducible fail_if_success skip

theorem State.adjacencyTimeout_keeps {s0 : State} {x1 : State} {x2} {x3} (h1 : Keeps s0 x1) :
    Keeps s0 (State.adjacencyTimeout x1 x2 x3) := by
  unfold State.adjacencyTimeout
  repeat' first
    | with_reducible assumption
    | with_reducible apply State.setSharelPort_keeps
    | with_reducible apply State.noteAll_keeps
    | with_reducible apply State.noteAdj_keeps
    | with_reducible refine Keeps.ofSnd (by assumption) ?_
    | with_reducible refine Keeps.ofFst (by assumption) ?_
    | intro _
    | simp only [Keeps.record_iff]
    | split
    | with_reducible fail_if_success skip

theorem State.sharelFault_keeps {s0 : State} {x1 : State} {x2} (h1 : Keeps s0 x1) :
    Keeps s0 (State.sharelFault x1 x2) := by
  unfold State.sharelFault
  repeat' first
    | with_reducible assumption
    | with_reducible apply State.noteAll_keeps
    | with_reducible apply State.noteAdj_keeps
    | with_reducible apply State.setSharelPort_keeps
    | with_reducible refine Keeps.ofSnd (by assumption) ?_
    | simp only [Keeps.record_iff]
    | split
    | with_reducible fail_if_success skip

theorem State.floodClaim_keeps {s0 : State} {x1 : State} (h1 : Keeps s0 x1) :
    Keeps s0 (State.floodClaim x1) := by
  unfold State.floodClaim
  repeat' first
    | with_reducible assumption
    | with_reducible apply State.sendControl_keeps
    | with_reducible refine Keeps.ofSnd (by assumption) ?_
    | with_reducible apply Keeps.foldl
    | with_reducible apply Keeps.foldlFst
    | with_reducible apply Keeps.foldlSnd
    | intro _
    | simp only [Keeps.record_iff]
    | with_reducible fail_if_success skip

theorem State.claimFrom_keeps {s0 : State} {x1 : State} {x2} (h1 : Keeps s0 x1) :
    Keeps s0 (State.claimFrom x1 x2) := by
  unfold State.claimFrom
  repeat' first
    | with_reducible assumption
    | with_reducible apply State.floodClaim_keeps
    | with_reducible refine Keeps.ofSnd (by assumption) ?_
    | with_reducible refine Keeps.ofFst (by assumption) ?_
    | intro _
    | simp only [Keeps.record_iff]
    | split
    | with_reducible fail_if_success skip

theorem State.claimAddress_keeps {s0 : State} {x1 : State} (h1 : Keeps s0 x1) :
    Keeps s0 (State.claimAddress x1) := by
  unfold State.claimAddress
  repeat' first
    | with_reducible assumption
    | with_reducible apply State.claimFrom_keeps
    | with_reducible refine Keeps.ofSnd (by assumption) ?_
    | simp only [Keeps.record_iff]
    | split
    | with_reducible fail_if_success skip

theorem State.claimFrame_keeps {s0 : State} {x1 : State} {x2} {x3} {x4} (h1 : Keeps s0 x1) :
    Keeps s0 (State.claimFrame x1 x2 x3 x4) := by
  unfold State.claimFrame
  repeat' first
    | with_reducible assumption
    | with_reducible apply State.addObj_keeps
    | with_reducible apply State.floodClaim_keeps
    | with_reducible apply State.raiseAs_keeps
    | with_reducible apply State.noteAll_keeps
    | with_reducible apply State.floodLsa_keeps
    | with_reducible apply State.claimFrom_keeps
    | with_reducible refine Keeps.ofSnd (by assumption) ?_
    | with_reducible refine Keeps.ofFst (by assumption) ?_
    | intro _
    | simp only [Keeps.record_iff]
    | split
    | with_reducible fail_if_success skip

theorem State.addressHeld_keeps {s0 : State} {x1 : State} (h1 : Keeps s0 x1) :
    Keeps s0 (State.addressHeld x1) := by
  unfold State.addressHeld
  repeat' first
    | with_reducible assumption
    | with_reducible apply State.pumpAll_keeps
    | with_reducible apply State.noteAll_keeps
    | with_reducible refine Keeps.ofSnd (by assumption) ?_
    | simp only [Keeps.record_iff]
    | split
    | with_reducible fail_if_success skip

theorem State.sharelUp_keeps {s0 : State} {x1 : State} {x2} {x3} (h1 : Keeps s0 x1) :
    Keeps s0 (State.sharelUp x1 x2 x3) := by
  unfold State.sharelUp
  repeat' first
    | with_reducible assumption
    | with_reducible apply State.setSharelPort_keeps
    | with_reducible apply State.sendControl_keeps
    | with_reducible apply State.noteAll_keeps
    | with_reducible refine Keeps.ofSnd (by assumption) ?_
    | with_reducible refine Keeps.ofFst (by assumption) ?_
    | simp only [Keeps.record_iff]
    | split
    | with_reducible fail_if_success skip

theorem State.lsaFrame_keeps {s0 : State} {x1 : State} {x2} {x3} (h1 : Keeps s0 x1) :
    Keeps s0 (State.lsaFrame x1 x2 x3) := by
  unfold State.lsaFrame
  repeat' first
    | with_reducible assumption
    | with_reducible apply State.addObj_keeps
    | with_reducible apply State.countRaise_keeps
    | with_reducible apply State.sendControl_keeps
    | with_reducible refine Keeps.ofSnd (by assumption) ?_
    | with_reducible apply Keeps.foldl
    | with_reducible apply Keeps.foldlFst
    | with_reducible apply Keeps.foldlSnd
    | intro _
    | simp only [Keeps.record_iff]
    | split
    | with_reducible fail_if_success skip

theorem State.lsaRefresh_keeps {s0 : State} {x1 : State} (h1 : Keeps s0 x1) :
    Keeps s0 (State.lsaRefresh x1) := by
  unfold State.lsaRefresh
  repeat' first
    | with_reducible assumption
    | with_reducible apply State.floodLsa_keeps
    | with_reducible refine Keeps.ofSnd (by assumption) ?_
    | simp only [Keeps.record_iff]
    | with_reducible fail_if_success skip

theorem State.routeCompute_keeps {s0 : State} {x1 : State} (h1 : Keeps s0 x1) :
    Keeps s0 (State.routeCompute x1) := by
  unfold State.routeCompute
  repeat' first
    | with_reducible assumption
    | with_reducible apply State.pumpAll_keeps
    | with_reducible apply State.raiseAs_keeps
    | with_reducible refine Keeps.ofSnd (by assumption) ?_
    | with_reducible refine Keeps.ofFst (by assumption) ?_
    | with_reducible apply Keeps.foldl
    | with_reducible apply Keeps.foldlFst
    | with_reducible apply Keeps.foldlSnd
    | intro _
    | simp only [Keeps.record_iff]
    | split
    | with_reducible fail_if_success skip

theorem State.pfcFrame_keeps {s0 : State} {x1 : State} {x2} {x3} {x4} (h1 : Keeps s0 x1) :
    Keeps s0 (State.pfcFrame x1 x2 x3 x4) := by
  unfold State.pfcFrame
  repeat' first
    | with_reducible assumption
    | with_reducible apply State.setSharelPort_keeps
    | with_reducible apply State.pumpAll_keeps
    | with_reducible apply State.releaseControl_keeps
    | with_reducible refine Keeps.ofSnd (by assumption) ?_
    | simp only [Keeps.record_iff]
    | split
    | with_reducible fail_if_success skip

end Sys2Proof.Machine
end

