-- ==== Sys2Proof/Laws/KeepsRemote.lean ====
section
/-! SUPPORT. What the operations of Machine/Remote.lean keep. -/

set_option linter.all false

namespace Sys2Proof.Machine

theorem sendRemote_keeps {s0 : State} {x1} {x2} {x3} {x4} {x5 : State} (h5 : Keeps s0 x5) :
    Ends s0 x5 (sendRemote x1 x2 x3 x4) := by
  unfold sendRemote
  repeat' first
    | with_reducible assumption
    | with_reducible apply streamRow_keeps
    | with_reducible apply State.draw_keeps
    | with_reducible apply State.blockReplayed_keeps
    | with_reducible apply State.queueWrite_keeps
    | with_reducible apply failWith_keeps
    | with_reducible apply State.queueFrame_keeps
    | with_reducible apply Ends.pure
    | with_reducible apply Ends.ite
    | with_reducible apply Ends.get_bind
    | with_reducible apply Ends.set_bind
    | with_reducible apply Ends.modify_bind
    | with_reducible apply Ends.set
    | with_reducible apply Ends.changed
    | with_reducible apply Ends.bind
    | with_reducible refine Ends.ofOk (by assumption) ?_
    | with_reducible refine Ends.ofError (by assumption) ?_
    | with_reducible refine Keeps.ofSnd (by assumption) ?_
    | with_reducible refine Keeps.ofFst (by assumption) ?_
    | intro _
    | simp only [Keeps.record_iff]
    | split
    | (rename_i e; nomatch (e : none = some _))
    | (rename_i e; cases (e : some _ = some _))
    | (rename_i e; dsimp only at e)
    | (rename_i e; split at e)
    | with_reducible fail_if_success skip

theorem State.remoteWrite_keeps {s0 : State} {x1 : State} {x2} {x3} (h1 : Keeps s0 x1) :
    Keeps s0 (State.remoteWrite x1 x2 x3) := by
  unfold State.remoteWrite
  repeat' first
    | with_reducible assumption
    | with_reducible apply State.dispatch_keeps
    | with_reducible apply sendRemote_keeps
    | with_reducible apply State.modOp_keeps
    | with_reducible apply Ends.pure
    | with_reducible apply Ends.ite
    | with_reducible apply Ends.get_bind
    | with_reducible apply Ends.set_bind
    | with_reducible apply Ends.modify_bind
    | with_reducible apply Ends.set
    | with_reducible apply Ends.changed
    | with_reducible apply Ends.bind
    | with_reducible refine Ends.ofOk (by assumption) ?_
    | with_reducible refine Ends.ofError (by assumption) ?_
    | with_reducible refine Keeps.ofSnd (by assumption) ?_
    | with_reducible refine Keeps.ofFst (by assumption) ?_
    | intro _
    | simp only [Keeps.record_iff]
    | split
    | with_reducible fail_if_success skip

theorem sendGather_keeps {s0 : State} {x1} {x2} {x3 : State} (h3 : Keeps s0 x3) :
    Ends s0 x3 (sendGather x1 x2) := by
  unfold sendGather
  repeat' first
    | with_reducible assumption
    | with_reducible apply readNum_keeps
    | with_reducible apply readVA_keeps
    | with_reducible apply readMarked_keeps
    | with_reducible apply State.queueFrame_keeps
    | with_reducible apply failWith_keeps
    | with_reducible apply Ends.pure
    | with_reducible apply Ends.ite
    | with_reducible apply Ends.get_bind
    | with_reducible apply Ends.set_bind
    | with_reducible apply Ends.modify_bind
    | with_reducible apply Ends.set
    | with_reducible apply Ends.changed
    | with_reducible apply Ends.bind
    | with_reducible refine Ends.ofOk (by assumption) ?_
    | with_reducible refine Ends.ofError (by assumption) ?_
    | with_reducible refine Keeps.ofSnd (by assumption) ?_
    | with_reducible refine Keeps.ofFst (by assumption) ?_
    | with_reducible apply Keeps.foldl
    | with_reducible apply Keeps.foldlFst
    | with_reducible apply Keeps.foldlSnd
    | intro _
    | simp only [Keeps.record_iff]
    | split
    | (rename_i e; nomatch (e : none = some _))
    | (rename_i e; cases (e : some _ = some _))
    | (rename_i e; dsimp only at e)
    | (rename_i e; split at e)
    | with_reducible fail_if_success skip

theorem writeRemoteRows_keeps {s0 : State} {x1} {x2} {x3} {x4 : State} (h4 : Keeps s0 x4) :
    Ends s0 x4 (writeRemoteRows x1 x2 x3) := by
  revert h4
  induction x3 generalizing x4 with
  | nil =>
    intro h4
    unfold writeRemoteRows
    repeat' first
      | with_reducible assumption
      | with_reducible apply writeMarked_keeps
      | with_reducible apply Ends.pure
      | with_reducible apply Ends.ite
      | with_reducible apply Ends.get_bind
      | with_reducible apply Ends.set_bind
      | with_reducible apply Ends.modify_bind
      | with_reducible apply Ends.set
      | with_reducible apply Ends.changed
      | with_reducible apply Ends.bind
      | with_reducible refine Ends.ofOk (by assumption) ?_
      | with_reducible refine Ends.ofError (by assumption) ?_
      | with_reducible refine Keeps.ofSnd (by assumption) ?_
        | intro _
      | simp only [Keeps.record_iff]
      | (rename_i e; nomatch (e : none = some _))
      | (rename_i e; cases (e : some _ = some _))
      | (rename_i e; dsimp only at e)
      | (rename_i e; split at e)
      | with_reducible fail_if_success skip
  | cons _ _ ih =>
    intro h4
    unfold writeRemoteRows
    repeat' first
      | with_reducible apply ih
      | with_reducible assumption
      | with_reducible apply writeMarked_keeps
      | with_reducible apply Ends.pure
      | with_reducible apply Ends.ite
      | with_reducible apply Ends.get_bind
      | with_reducible apply Ends.set_bind
      | with_reducible apply Ends.modify_bind
      | with_reducible apply Ends.set
      | with_reducible apply Ends.changed
      | with_reducible apply Ends.bind
      | with_reducible refine Ends.ofOk (by assumption) ?_
      | with_reducible refine Ends.ofError (by assumption) ?_
      | with_reducible refine Keeps.ofSnd (by assumption) ?_
      | apply ih
      | intro _
      | simp only [Keeps.record_iff]
      | (rename_i e; nomatch (e : none = some _))
      | (rename_i e; cases (e : some _ = some _))
      | (rename_i e; dsimp only at e)
      | (rename_i e; split at e)
      | with_reducible fail_if_success skip

theorem landGather_keeps {s0 : State} {x1} {x2} {x3} {x4 : State} (h4 : Keeps s0 x4) :
    Ends s0 x4 (landGather x1 x2 x3) := by
  unfold landGather
  repeat' first
    | with_reducible assumption
    | with_reducible apply State.draw_keeps
    | with_reducible apply writeVA_keeps
    | with_reducible apply writeRemoteRows_keeps
    | with_reducible apply Ends.pure
    | with_reducible apply Ends.ite
    | with_reducible apply Ends.get_bind
    | with_reducible apply Ends.set_bind
    | with_reducible apply Ends.modify_bind
    | with_reducible apply Ends.set
    | with_reducible apply Ends.changed
    | with_reducible apply Ends.bind
    | with_reducible refine Ends.ofOk (by assumption) ?_
    | with_reducible refine Ends.ofError (by assumption) ?_
    | with_reducible refine Keeps.ofSnd (by assumption) ?_
    | with_reducible refine Keeps.ofFst (by assumption) ?_
    | intro _
    | simp only [Keeps.record_iff]
    | split
    | (rename_i e; nomatch (e : none = some _))
    | (rename_i e; cases (e : some _ = some _))
    | (rename_i e; dsimp only at e)
    | (rename_i e; split at e)
    | with_reducible fail_if_success skip

theorem State.finishRemote_keeps {s0 : State} {x1 : State} {x2} {x3} (h1 : Keeps s0 x1) :
    Keeps s0 (State.finishRemote x1 x2 x3) := by
  unfold State.finishRemote
  repeat' first
    | with_reducible assumption
    | with_reducible apply State.draw_keeps
    | with_reducible apply State.runM_keeps
    | with_reducible apply landGather_keeps
    | with_reducible apply State.blockReplayed_keeps
    | with_reducible apply State.modOp_keeps
    | with_reducible apply Ends.pure
    | with_reducible apply Ends.ite
    | with_reducible apply Ends.get_bind
    | with_reducible apply Ends.set_bind
    | with_reducible apply Ends.modify_bind
    | with_reducible apply Ends.set
    | with_reducible apply Ends.changed
    | with_reducible apply Ends.bind
    | with_reducible refine Ends.ofOk (by assumption) ?_
    | with_reducible refine Ends.ofError (by assumption) ?_
    | with_reducible refine Keeps.ofSnd (by assumption) ?_
    | with_reducible refine Keeps.ofFst (by assumption) ?_
    | with_reducible apply Keeps.foldl
    | with_reducible apply Keeps.foldlFst
    | with_reducible apply Keeps.foldlSnd
    | intro _
    | simp only [Keeps.record_iff]
    | split
    | with_reducible fail_if_success skip

theorem State.remoteGather_keeps {s0 : State} {x1 : State} {x2} {x3} (h1 : Keeps s0 x1) :
    Keeps s0 (State.remoteGather x1 x2 x3) := by
  unfold State.remoteGather
  repeat' first
    | with_reducible assumption
    | with_reducible apply State.finishRemote_keeps
    | with_reducible apply State.dispatch_keeps
    | with_reducible apply sendGather_keeps
    | with_reducible apply Ends.pure
    | with_reducible apply Ends.ite
    | with_reducible apply Ends.get_bind
    | with_reducible apply Ends.set_bind
    | with_reducible apply Ends.modify_bind
    | with_reducible apply Ends.set
    | with_reducible apply Ends.changed
    | with_reducible apply Ends.bind
    | with_reducible refine Ends.ofOk (by assumption) ?_
    | with_reducible refine Ends.ofError (by assumption) ?_
    | with_reducible refine Keeps.ofSnd (by assumption) ?_
    | with_reducible refine Keeps.ofFst (by assumption) ?_
    | simp only [Keeps.record_iff]
    | with_reducible fail_if_success skip

theorem State.gatherReplyAct_keeps {s0 : State} {x1} {x2 : State} (h2 : Keeps s0 x2) :
    Keeps s0 (State.gatherReplyAct x1 x2).1 := by
  unfold State.gatherReplyAct
  refine State.inOrder_keeps (fun t h => ?_) h2
  split
  · exact h
  · exact State.modOp_keeps h

theorem fetchInbound_keeps {s0 : State} {x1} {x2} {x3} {x4} {x5 : State} (h5 : Keeps s0 x5) :
    Ends s0 x5 (fetchInbound x1 x2 x3 x4) := by
  unfold fetchInbound
  repeat' first
    | with_reducible assumption
    | with_reducible apply attempt_keeps
    | with_reducible apply readRow_keeps
    | with_reducible apply State.countShard_keeps
    | with_reducible apply State.addObj_keeps
    | with_reducible apply State.countRaise_keeps
    | with_reducible apply Ends.pure
    | with_reducible apply Ends.ite
    | with_reducible apply Ends.get_bind
    | with_reducible apply Ends.set_bind
    | with_reducible apply Ends.modify_bind
    | with_reducible apply Ends.set
    | with_reducible apply Ends.changed
    | with_reducible apply Ends.bind
    | with_reducible apply Ends.tryCatch
    | with_reducible refine Ends.ofOk (by assumption) ?_
    | with_reducible refine Ends.ofError (by assumption) ?_
    | with_reducible refine Keeps.ofSnd (by assumption) ?_
    | with_reducible refine Keeps.ofFst (by assumption) ?_
    | intro _
    | simp only [Keeps.record_iff]
    | split
    | (rename_i e; nomatch (e : none = some _))
    | (rename_i e; cases (e : some _ = some _))
    | (rename_i e; dsimp only at e)
    | (rename_i e; split at e)
    | with_reducible fail_if_success skip

theorem fetchPlan_keeps {s0 : State} {x1} {x2} {x3} {x4} {x5} {x6} {x7 : State} (h7 : Keeps s0 x7) :
    Ends s0 x7 (fetchPlan x1 x2 x3 x4 x5 x6) := by
  revert h7
  induction x4 generalizing x5 x6 x7 with
  | nil =>
    intro h7
    unfold fetchPlan
    repeat' first
      | with_reducible assumption
      | with_reducible apply fetchInbound_keeps
      | with_reducible apply Ends.pure
      | with_reducible apply Ends.ite
      | with_reducible apply Ends.get_bind
      | with_reducible apply Ends.set_bind
      | with_reducible apply Ends.modify_bind
      | with_reducible apply Ends.set
      | with_reducible apply Ends.changed
      | with_reducible apply Ends.bind
      | with_reducible refine Ends.ofOk (by assumption) ?_
      | with_reducible refine Ends.ofError (by assumption) ?_
      | with_reducible refine Keeps.ofSnd (by assumption) ?_
      | with_reducible refine Keeps.ofFst (by assumption) ?_
        | intro _
      | simp only [Keeps.record_iff]
      | split
      | (rename_i e; nomatch (e : none = some _))
      | (rename_i e; cases (e : some _ = some _))
      | (rename_i e; dsimp only at e)
      | (rename_i e; split at e)
      | with_reducible fail_if_success skip
  | cons _ _ ih =>
    intro h7
    unfold fetchPlan
    repeat' first
      | with_reducible apply ih
      | with_reducible assumption
      | with_reducible apply fetchInbound_keeps
      | with_reducible apply Ends.pure
      | with_reducible apply Ends.ite
      | with_reducible apply Ends.get_bind
      | with_reducible apply Ends.set_bind
      | with_reducible apply Ends.modify_bind
      | with_reducible apply Ends.set
      | with_reducible apply Ends.changed
      | with_reducible apply Ends.bind
      | with_reducible refine Ends.ofOk (by assumption) ?_
      | with_reducible refine Ends.ofError (by assumption) ?_
      | with_reducible refine Keeps.ofSnd (by assumption) ?_
      | with_reducible refine Keeps.ofFst (by assumption) ?_
      | apply ih
      | intro _
      | simp only [Keeps.record_iff]
      | split
      | (rename_i e; nomatch (e : none = some _))
      | (rename_i e; cases (e : some _ = some _))
      | (rename_i e; dsimp only at e)
      | (rename_i e; split at e)
      | with_reducible fail_if_success skip

theorem inboundSlice_keeps {s0 : State} {x1} {x2} {x3} {x4} {x5} {x6 : State} (h6 : Keeps s0 x6) :
    Ends s0 x6 (inboundSlice x1 x2 x3 x4 x5) := by
  unfold inboundSlice
  repeat' first
    | with_reducible assumption
    | with_reducible apply State.addObj_keeps
    | with_reducible apply fetchPlan_keeps
    | with_reducible apply Ends.pure
    | with_reducible apply Ends.ite
    | with_reducible apply Ends.get_bind
    | with_reducible apply Ends.set_bind
    | with_reducible apply Ends.modify_bind
    | with_reducible apply Ends.set
    | with_reducible apply Ends.changed
    | with_reducible apply Ends.bind
    | with_reducible refine Ends.ofOk (by assumption) ?_
    | with_reducible refine Ends.ofError (by assumption) ?_
    | with_reducible refine Keeps.ofSnd (by assumption) ?_
    | with_reducible refine Keeps.ofFst (by assumption) ?_
    | intro _
    | simp only [Keeps.record_iff]
    | split
    | (rename_i e; nomatch (e : none = some _))
    | (rename_i e; cases (e : some _ = some _))
    | (rename_i e; dsimp only at e)
    | (rename_i e; split at e)
    | with_reducible fail_if_success skip

theorem inboundRuns_keeps {s0 : State} {x1} {x2} {x3} {x4} {x5} {x6} {x7 : State} (h7 : Keeps s0 x7) :
    Ends s0 x7 (inboundRuns x1 x2 x3 x4 x5 x6) := by
  unfold inboundRuns
  repeat' first
    | with_reducible assumption
    | with_reducible apply inboundSlice_keeps
    | with_reducible apply State.countRedo_keeps
    | with_reducible apply State.raise_keeps
    | with_reducible apply Ends.pure
    | with_reducible apply Ends.ite
    | with_reducible apply Ends.get_bind
    | with_reducible apply Ends.set_bind
    | with_reducible apply Ends.modify_bind
    | with_reducible apply Ends.set
    | with_reducible apply Ends.changed
    | with_reducible apply Ends.bind
    | with_reducible refine Ends.ofOk (by assumption) ?_
    | with_reducible refine Ends.ofError (by assumption) ?_
    | with_reducible refine Keeps.ofSnd (by assumption) ?_
    | with_reducible refine Keeps.ofFst (by assumption) ?_
    | intro _
    | simp only [Keeps.record_iff]
    | split
    | (rename_i e; nomatch (e : none = some _))
    | (rename_i e; cases (e : some _ = some _))
    | (rename_i e; dsimp only at e)
    | (rename_i e; split at e)
    | with_reducible fail_if_success skip

theorem inboundSlices_keeps {s0 : State} {x1} {x2} {x3} {x4} {x5} {x6} {x7 : State} (h7 : Keeps s0 x7) :
    Ends s0 x7 (inboundSlices x1 x2 x3 x4 x5 x6) := by
  revert h7
  induction x5 generalizing x6 x7 with
  | nil =>
    intro h7
    unfold inboundSlices
    repeat' first
      | with_reducible assumption
      | with_reducible apply inboundRuns_keeps
      | with_reducible apply Ends.pure
      | with_reducible apply Ends.ite
      | with_reducible apply Ends.get_bind
      | with_reducible apply Ends.set_bind
      | with_reducible apply Ends.modify_bind
      | with_reducible apply Ends.set
      | with_reducible apply Ends.changed
      | with_reducible apply Ends.bind
      | with_reducible refine Ends.ofOk (by assumption) ?_
      | with_reducible refine Ends.ofError (by assumption) ?_
      | with_reducible refine Keeps.ofSnd (by assumption) ?_
      | with_reducible refine Keeps.ofFst (by assumption) ?_
        | intro _
      | simp only [Keeps.record_iff]
      | (rename_i e; nomatch (e : none = some _))
      | (rename_i e; cases (e : some _ = some _))
      | (rename_i e; dsimp only at e)
      | (rename_i e; split at e)
      | with_reducible fail_if_success skip
  | cons _ _ ih =>
    intro h7
    unfold inboundSlices
    repeat' first
      | with_reducible apply ih
      | with_reducible assumption
      | with_reducible apply inboundRuns_keeps
      | with_reducible apply Ends.pure
      | with_reducible apply Ends.ite
      | with_reducible apply Ends.get_bind
      | with_reducible apply Ends.set_bind
      | with_reducible apply Ends.modify_bind
      | with_reducible apply Ends.set
      | with_reducible apply Ends.changed
      | with_reducible apply Ends.bind
      | with_reducible refine Ends.ofOk (by assumption) ?_
      | with_reducible refine Ends.ofError (by assumption) ?_
      | with_reducible refine Keeps.ofSnd (by assumption) ?_
      | with_reducible refine Keeps.ofFst (by assumption) ?_
      | apply ih
      | intro _
      | simp only [Keeps.record_iff]
      | (rename_i e; nomatch (e : none = some _))
      | (rename_i e; cases (e : some _ = some _))
      | (rename_i e; dsimp only at e)
      | (rename_i e; split at e)
      | with_reducible fail_if_success skip

theorem lookupFor_keeps {s0 : State} {x1} {x2} {x3} {x4} {x5 : State} (h5 : Keeps s0 x5) :
    Ends s0 x5 (lookupFor x1 x2 x3 x4) := by
  unfold lookupFor
  repeat' first
    | with_reducible assumption
    | with_reducible apply readVA_keeps
    | with_reducible apply readTcbs_keeps
    | with_reducible apply inboundSlices_keeps
    | with_reducible apply State.countRaise_keeps
    | with_reducible apply State.consumePoison_keeps
    | with_reducible apply Ends.pure
    | with_reducible apply Ends.throw
    | with_reducible apply Ends.ite
    | with_reducible apply Ends.map
    | with_reducible apply Ends.get_bind
    | with_reducible apply Ends.set_bind
    | with_reducible apply Ends.modify_bind
    | with_reducible apply Ends.set
    | with_reducible apply Ends.changed
    | with_reducible apply Ends.bind
    | with_reducible apply Ends.tryCatch
    | with_reducible refine Ends.ofOk (by assumption) ?_
    | with_reducible refine Ends.ofError (by assumption) ?_
    | with_reducible refine Keeps.ofSnd (by assumption) ?_
    | with_reducible refine Keeps.ofFst (by assumption) ?_
    | with_reducible apply Keeps.foldl
    | with_reducible apply Keeps.foldlFst
    | with_reducible apply Keeps.foldlSnd
    | intro _
    | simp only [Keeps.record_iff]
    | split
    | (rename_i e; nomatch (e : none = some _))
    | (rename_i e; cases (e : some _ = some _))
    | (rename_i e; dsimp only at e)
    | (rename_i e; split at e)
    | with_reducible fail_if_success skip

theorem State.replyGather_keeps {s0 : State} {x1 : State} {x2} {x3} {x4} {x5} (h1 : Keeps s0 x1) :
    Keeps s0 (State.replyGather x1 x2 x3 x4 x5) := by
  unfold State.replyGather
  repeat' first
    | with_reducible assumption
    | with_reducible apply State.queueFrame_keeps
    | with_reducible refine Keeps.ofSnd (by assumption) ?_
    | with_reducible refine Keeps.ofFst (by assumption) ?_
    | with_reducible apply Keeps.foldl
    | with_reducible apply Keeps.foldlFst
    | with_reducible apply Keeps.foldlSnd
    | intro _
    | simp only [Keeps.record_iff]
    | with_reducible fail_if_success skip

theorem State.serveGather_keeps {s0 : State} {x1} {x2} {x3 : State} (h3 : Keeps s0 x3) :
    Keeps s0 (State.serveGather x1 x2 x3).1 := by
  unfold State.serveGather
  refine State.inbound_keeps (fun _ _ _ h => lookupFor_keeps h) (fun o u h => ?_) h3
  split
  · exact State.replyGather_keeps h
  · exact State.replyGather_keeps h

theorem State.gatherAct_keeps {s0 : State} {x1} {x2 : State} (h2 : Keeps s0 x2) :
    Keeps s0 (State.gatherAct x1 x2).1 := by
  unfold State.gatherAct
  refine State.inOrder_keeps (fun t h => ?_) h2
  dsimp only
  repeat' first
    | with_reducible assumption
    | with_reducible apply State.replyGather_keeps
    | with_reducible apply State.serveGather_keeps
    | with_reducible refine Keeps.ofFst (by assumption) ?_
    | simp only [Keeps.record_iff]
    | split

theorem State.frameAct_keeps {s0 : State} {x1} {x2 : State} (h2 : Keeps s0 x2) :
    Keeps s0 (State.frameAct x1 x2).1 := by
  unfold State.frameAct
  repeat' first
    | with_reducible assumption
    | with_reducible apply State.writeAct_keeps
    | with_reducible apply State.readAct_keeps
    | with_reducible apply State.replyAct_keeps
    | with_reducible apply State.gatherAct_keeps
    | with_reducible apply State.gatherReplyAct_keeps
    | with_reducible apply State.fenceAct_keeps
    | with_reducible apply State.ackAct_keeps
    | with_reducible apply State.nakAct_keeps
    | with_reducible refine Keeps.ofSnd (by assumption) ?_
    | with_reducible refine Keeps.ofFst (by assumption) ?_
    | intro _
    | simp only [Keeps.record_iff]
    | split
    | with_reducible fail_if_success skip

theorem State.servePorts_keeps {s0 : State} {x1 : State} (h1 : Keeps s0 x1) : Keeps s0 (State.servePorts x1) := by
  unfold State.servePorts
  exact Keeps.foldl (fun _ _ h => State.servePort_keeps (fun _ _ h => State.frameAct_keeps h) h) h1

end Sys2Proof.Machine
end

