-- ==== Sys2Proof/Laws/KeepsCxl.lean ====
section
/-! SUPPORT. What the operations of Machine/Cxl.lean keep. -/

set_option linter.all false

namespace Sys2Proof.Machine

theorem State.loseFar_keeps {s0 : State} {x1 : State} {x2} (h1 : Keeps s0 x1) :
    Keeps s0 (State.loseFar x1 x2) := by
  unfold State.loseFar
  repeat' first
    | with_reducible assumption
    | with_reducible refine Keeps.ofSnd (by assumption) ?_
    | intro _
    | simp only [Keeps.record_iff]
    | with_reducible fail_if_success skip

theorem State.cxlFail_keeps {s0 : State} {x1 : State} {x2} (h1 : Keeps s0 x1) :
    Keeps s0 (State.cxlFail x1 x2) := by
  unfold State.cxlFail
  repeat' first
    | with_reducible assumption
    | with_reducible apply State.loseFar_keeps
    | with_reducible apply State.setCxlLink_keeps
    | with_reducible apply State.raiseAs_keeps
    | with_reducible apply State.noteAll_keeps
    | with_reducible refine Keeps.ofSnd (by assumption) ?_
    | with_reducible refine Keeps.ofFst (by assumption) ?_
    | simp only [Keeps.record_iff]
    | split
    | with_reducible fail_if_success skip

theorem State.cxlUp_keeps {s0 : State} {x1 : State} {x2} {x3} {x4} {x5} {x6} {x7} (h1 : Keeps s0 x1) :
    Keeps s0 (State.cxlUp x1 x2 x3 x4 x5 x6 x7) := by
  unfold State.cxlUp
  repeat' first
    | with_reducible assumption
    | with_reducible apply State.setCxlLink_keeps
    | with_reducible apply State.noteAll_keeps
    | with_reducible refine Keeps.ofSnd (by assumption) ?_
    | simp only [Keeps.record_iff]
    | split
    | with_reducible fail_if_success skip

theorem State.programExpanders_keeps {s0 : State} {x1 : State} (h1 : Keeps s0 x1) :
    Keeps s0 (State.programExpanders x1) := by
  unfold State.programExpanders
  repeat' first
    | with_reducible assumption
    | with_reducible apply State.send_keeps
    | with_reducible refine Keeps.ofSnd (by assumption) ?_
    | with_reducible apply Keeps.foldl
    | with_reducible apply Keeps.foldlFst
    | with_reducible apply Keeps.foldlSnd
    | intro _
    | simp only [Keeps.record_iff]
    | split
    | with_reducible fail_if_success skip

end Sys2Proof.Machine
end

