-- ==== Sys2Proof/Laws/KeepsFirmware.lean ====
section
/-! SUPPORT. What the operations of Machine/Firmware.lean keep. -/

set_option linter.all false

namespace Sys2Proof.Machine

theorem State.setResult_keeps {s0 : State} {x1 : State} {x2} (h1 : Keeps s0 x1) :
    Keeps s0 (State.setResult x1 x2) := by
  unfold State.setResult
  repeat' first
    | with_reducible assumption
    | with_reducible refine Keeps.ofSnd (by assumption) ?_
    | simp only [Keeps.record_iff]
    | with_reducible fail_if_success skip

theorem State.rejectImage_keeps {s0 : State} {x1 : State} {x2} (h1 : Keeps s0 x1) :
    Keeps s0 (State.rejectImage x1 x2) := by
  unfold State.rejectImage
  repeat' first
    | with_reducible assumption
    | with_reducible apply State.setResult_keeps
    | with_reducible apply State.raiseAs_keeps
    | with_reducible refine Keeps.ofSnd (by assumption) ?_
    | simp only [Keeps.record_iff]
    | with_reducible fail_if_success skip

theorem State.clearRecord_keeps {s0 : State} {x1 : State} (h1 : Keeps s0 x1) :
    Keeps s0 (State.clearRecord x1) := by
  unfold State.clearRecord
  repeat' first
    | with_reducible assumption
    | with_reducible refine Keeps.ofSnd (by assumption) ?_
    | simp only [Keeps.record_iff]
    | with_reducible fail_if_success skip

theorem State.clearSessions_keeps {s0 : State} {x1 : State} (h1 : Keeps s0 x1) :
    Keeps s0 (State.clearSessions x1) := by
  unfold State.clearSessions
  repeat' first
    | with_reducible assumption
    | with_reducible refine Keeps.ofSnd (by assumption) ?_
    | simp only [Keeps.record_iff]
    | with_reducible fail_if_success skip

theorem State.startImage_keeps {s0 : State} {x1 : State} {x2} (h1 : Keeps s0 x1) :
    Keeps s0 (State.startImage x1 x2) := by
  unfold State.startImage
  repeat' first
    | with_reducible assumption
    | with_reducible refine Keeps.ofSnd (by assumption) ?_
    | simp only [Keeps.record_iff]
    | with_reducible fail_if_success skip

theorem State.romStage_keeps {s0 : State} {x1 : State} (h1 : Keeps s0 x1) :
    Keeps s0 (State.romStage x1) := by
  unfold State.romStage
  repeat' first
    | with_reducible assumption
    | with_reducible refine Keeps.ofSnd (by assumption) ?_
    | intro _
    | simp only [Keeps.record_iff]
    | with_reducible fail_if_success skip

theorem State.reloadImage_keeps {s0 : State} {x1 : State} (h1 : Keeps s0 x1) :
    Keeps s0 (State.reloadImage x1) := by
  unfold State.reloadImage
  repeat' first
    | with_reducible assumption
    | with_reducible apply State.startImage_keeps
    | with_reducible apply State.romStage_keeps
    | with_reducible apply State.rejectImage_keeps
    | with_reducible refine Keeps.ofSnd (by assumption) ?_
    | intro _
    | simp only [Keeps.record_iff]
    | split
    | with_reducible fail_if_success skip

theorem State.fallback_keeps {s0 : State} {x1 : State} (h1 : Keeps s0 x1) :
    Keeps s0 (State.fallback x1) := by
  unfold State.fallback
  repeat' first
    | with_reducible assumption
    | with_reducible apply State.reloadImage_keeps
    | with_reducible apply State.rejectImage_keeps
    | with_reducible apply State.clearRecord_keeps
    | with_reducible apply State.startImage_keeps
    | with_reducible apply State.countRaise_keeps
    | with_reducible refine Keeps.ofSnd (by assumption) ?_
    | with_reducible refine Keeps.ofFst (by assumption) ?_
    | intro _
    | simp only [Keeps.record_iff]
    | split
    | with_reducible fail_if_success skip

theorem State.mgmtRestart_keeps {s0 : State} {x1 : State} (h1 : Keeps s0 x1) :
    Keeps s0 (State.mgmtRestart x1) := by
  unfold State.mgmtRestart
  repeat' first
    | with_reducible assumption
    | with_reducible apply State.sparingRestart_keeps
    | with_reducible apply State.countRaise_keeps
    | with_reducible apply State.startImage_keeps
    | with_reducible apply State.clearSessions_keeps
    | with_reducible apply State.reloadImage_keeps
    | with_reducible apply State.draw_keeps
    | with_reducible apply State.fallback_keeps
    | with_reducible refine Keeps.ofSnd (by assumption) ?_
    | with_reducible refine Keeps.ofFst (by assumption) ?_
    | intro _
    | simp only [Keeps.record_iff]
    | split
    | with_reducible fail_if_success skip

theorem State.romLoad_keeps {s0 : State} {x1 : State} {x2} (h1 : Keeps s0 x1) :
    Keeps s0 (State.romLoad x1 x2).2 := by
  unfold State.romLoad
  repeat' first
    | with_reducible assumption
    | with_reducible apply State.rejectImage_keeps
    | with_reducible apply State.startImage_keeps
    | with_reducible apply State.clearRecord_keeps
    | with_reducible refine Keeps.ofSnd (by assumption) ?_
    | with_reducible refine Keeps.ofFst (by assumption) ?_
    | simp only [Keeps.record_iff]
    | split
    | with_reducible fail_if_success skip

theorem State.stageImage_keeps {s0 : State} {x1 : State} {x2} (h1 : Keeps s0 x1) :
    Keeps s0 (State.stageImage x1 x2).2 := by
  unfold State.stageImage
  repeat' first
    | with_reducible assumption
    | with_reducible apply State.rejectImage_keeps
    | with_reducible refine Keeps.ofSnd (by assumption) ?_
    | simp only [Keeps.record_iff]
    | split
    | with_reducible fail_if_success skip

theorem State.beginStaging_keeps {s0 : State} {x1 : State} (h1 : Keeps s0 x1) :
    Keeps s0 (State.beginStaging x1) := by
  unfold State.beginStaging
  repeat' first
    | with_reducible assumption
    | with_reducible refine Keeps.ofSnd (by assumption) ?_
    | simp only [Keeps.record_iff]
    | split
    | with_reducible fail_if_success skip

theorem State.fwActivate_keeps {s0 : State} {x1 : State} {x2} (h1 : Keeps s0 x1) :
    Keeps s0 (State.fwActivate x1 x2).state := by
  unfold State.fwActivate
  repeat' first
    | with_reducible assumption
    | with_reducible apply State.setResult_keeps
    | with_reducible apply State.rejectImage_keeps
    | with_reducible refine Keeps.ofSnd (by assumption) ?_
    | simp only [Keeps.record_iff]
    | split
    | with_reducible fail_if_success skip

theorem State.handOver_keeps {s0 : State} {x1 : State} (h1 : Keeps s0 x1) :
    Keeps s0 (State.handOver x1) := by
  unfold State.handOver
  repeat' first
    | with_reducible assumption
    | with_reducible apply State.startImage_keeps
    | with_reducible refine Keeps.ofSnd (by assumption) ?_
    | with_reducible refine Keeps.ofFst (by assumption) ?_
    | intro _
    | simp only [Keeps.record_iff]
    | split
    | with_reducible fail_if_success skip

theorem State.reportAlive_keeps {s0 : State} {x1 : State} (h1 : Keeps s0 x1) :
    Keeps s0 (State.reportAlive x1) := by
  unfold State.reportAlive
  repeat' first
    | with_reducible assumption
    | with_reducible refine Keeps.ofSnd (by assumption) ?_
    | intro _
    | simp only [Keeps.record_iff]
    | split
    | with_reducible fail_if_success skip

theorem State.keyProvision_keeps {s0 : State} {x1 : State} {x2} (h1 : Keeps s0 x1) :
    Keeps s0 (State.keyProvision x1 x2).state := by
  unfold State.keyProvision
  dsimp only
  split
  · exact h1
  · split
    · exact h1
    · rename_i e
      refine Keeps.recordFuses h1 ⟨fun k v h => ?_, fun _ h => h, Nat.le_refl _, List.prefix_rfl⟩
      rw [AMap.get?_set_ne]
      · exact h
      · intro hk
        subst hk
        rw [h] at e
        exact e rfl

theorem mem_insertNat {n k : Nat} {l : List Nat} (h : k ∈ l) : k ∈ State.insertNat n l := by
  induction l with
  | nil => cases h
  | cons m ms ih =>
    unfold State.insertNat
    split
    · exact List.mem_cons_of_mem _ h
    · split
      · exact h
      · rcases List.mem_cons.1 h with h | h
        · exact h ▸ List.mem_cons_self
        · exact List.mem_cons_of_mem _ (ih h)

theorem State.keyRevoke_keeps {s0 : State} {x1 : State} {x2} (h1 : Keeps s0 x1) :
    Keeps s0 (State.keyRevoke x1 x2).state := by
  unfold State.keyRevoke
  dsimp only
  split
  · exact h1
  · exact Keeps.recordFuses h1 ⟨fun _ _ h => h, fun _ h => mem_insertNat h, Nat.le_refl _, List.prefix_rfl⟩

theorem State.rollbackRaise_keeps {s0 : State} {x1 : State} {x2} (h1 : Keeps s0 x1) :
    Keeps s0 (State.rollbackRaise x1 x2).state := by
  unfold State.rollbackRaise
  split
  · exact h1
  · exact Keeps.recordFuses h1 ⟨fun _ _ h => h, fun _ h => h, show x1.fuses.floor ≤ x2 by omega, List.prefix_rfl⟩

theorem State.ownerEnroll_keeps {s0 : State} {x1 : State} {x2} (h1 : Keeps s0 x1) :
    Keeps s0 (State.ownerEnroll x1 x2).state := by
  unfold State.ownerEnroll
  split
  · exact h1
  · exact Keeps.recordFuses h1 ⟨fun _ _ h => h, fun _ h => h, Nat.le_refl _, List.prefix_append _ _⟩

theorem State.attestNonce_keeps {s0 : State} {x1 : State} {x2} {x3} (h1 : Keeps s0 x1) :
    Keeps s0 (State.attestNonce x1 x2 x3).state := by
  unfold State.attestNonce
  repeat' first
    | with_reducible assumption
    | with_reducible refine Keeps.ofSnd (by assumption) ?_
    | with_reducible refine Keeps.ofFst (by assumption) ?_
    | intro _
    | simp only [Keeps.record_iff]
    | with_reducible fail_if_success skip

theorem State.attestSigned_keeps {s0 : State} {x1 : State} {x2} (h1 : Keeps s0 x1) :
    Keeps s0 (State.attestSigned x1 x2) := by
  unfold State.attestSigned
  repeat' first
    | with_reducible assumption
    | with_reducible refine Keeps.ofSnd (by assumption) ?_
    | with_reducible refine Keeps.ofFst (by assumption) ?_
    | intro _
    | simp only [Keeps.record_iff]
    | split
    | with_reducible fail_if_success skip

end Sys2Proof.Machine
end

