-- ==== Sys2Proof/Laws/KeepsBoard.lean ====
section
/-! SUPPORT. What the operations of Machine/Board.lean keep. -/

set_option linter.all false

namespace Sys2Proof.Machine

theorem State.deviceReset_keeps {s0 : State} {x1 : State} {x2} (h1 : Keeps s0 x1) : Keeps s0 (State.deviceReset x1 x2) := by
  unfold State.deviceReset
  refine Keeps.recordMem h1 fun h => ?_
  split
  · exact AMap.filter_canonical h
  · rfl

theorem State.bringUp_keeps {s0 : State} {x1 : State} (h1 : Keeps s0 x1) :
    Keeps s0 (State.bringUp x1) := by
  unfold State.bringUp
  repeat' first
    | with_reducible assumption
    | with_reducible apply State.setObj_keeps
    | with_reducible apply State.reloadImage_keeps
    | with_reducible refine Keeps.ofSnd (by assumption) ?_
    | with_reducible refine Keeps.ofFst (by assumption) ?_
    | with_reducible apply Keeps.foldl
    | with_reducible apply Keeps.foldlFst
    | with_reducible apply Keeps.foldlSnd
    | intro _
    | simp only [Keeps.record_iff]
    | split
    | with_reducible fail_if_success skip

theorem State.powerOn_keeps {s0 : State} {x1 : State} {x2} (h1 : Keeps s0 x1) :
    Keeps s0 (State.powerOn x1 x2) := by
  unfold State.powerOn
  repeat' first
    | with_reducible assumption
    | with_reducible apply State.deviceReset_keeps
    | with_reducible refine Keeps.ofSnd (by assumption) ?_
    | simp only [Keeps.record_iff]
    | with_reducible fail_if_success skip

theorem State.boardReset_keeps {s0 : State} {x1 : State} (h1 : Keeps s0 x1) :
    Keeps s0 (State.boardReset x1) := by
  unfold State.boardReset
  repeat' first
    | with_reducible assumption
    | with_reducible apply State.deviceReset_keeps
    | with_reducible refine Keeps.ofSnd (by assumption) ?_
    | simp only [Keeps.record_iff]
    | split
    | with_reducible fail_if_success skip

theorem State.stretchEnd_keeps {s0 : State} {x1 : State} (h1 : Keeps s0 x1) :
    Keeps s0 (State.stretchEnd x1) := by
  unfold State.stretchEnd
  repeat' first
    | with_reducible assumption
    | with_reducible apply State.bringUp_keeps
    | with_reducible refine Keeps.ofSnd (by assumption) ?_
    | simp only [Keeps.record_iff]
    | split
    | with_reducible fail_if_success skip

theorem State.resetRelease_keeps {s0 : State} {x1 : State} {x2} (h1 : Keeps s0 x1) :
    Keeps s0 (State.resetRelease x1 x2) := by
  unfold State.resetRelease
  repeat' first
    | with_reducible assumption
    | with_reducible apply State.setObj_keeps
    | with_reducible apply State.bringUp_keeps
    | with_reducible refine Keeps.ofSnd (by assumption) ?_
    | with_reducible refine Keeps.ofFst (by assumption) ?_
    | simp only [Keeps.record_iff]
    | split
    | with_reducible fail_if_success skip

theorem State.undervoltage_keeps {s0 : State} {x1 : State} (h1 : Keeps s0 x1) :
    Keeps s0 (State.undervoltage x1) := by
  unfold State.undervoltage
  repeat' first
    | with_reducible assumption
    | with_reducible apply State.deviceReset_keeps
    | with_reducible refine Keeps.ofSnd (by assumption) ?_
    | simp only [Keeps.record_iff]
    | split
    | with_reducible fail_if_success skip

theorem State.warmReset_keeps {s0 : State} {x1 : State} {x2} (h1 : Keeps s0 x1) :
    Keeps s0 (State.warmReset x1 x2).state := by
  unfold State.warmReset
  repeat' first
    | with_reducible assumption
    | with_reducible refine Keeps.ofSnd (by assumption) ?_
    | simp only [Keeps.record_iff]
    | with_reducible fail_if_success skip

theorem State.resetBegin_keeps {s0 : State} {x1 : State} (h1 : Keeps s0 x1) :
    Keeps s0 (State.resetBegin x1) := by
  unfold State.resetBegin
  repeat' first
    | with_reducible assumption
    | with_reducible apply State.raise_keeps
    | with_reducible apply State.bringUp_keeps
    | with_reducible apply State.deviceReset_keeps
    | with_reducible refine Keeps.ofSnd (by assumption) ?_
    | with_reducible refine Keeps.ofFst (by assumption) ?_
    | intro _
    | simp only [Keeps.record_iff]
    | split
    | with_reducible fail_if_success skip

theorem State.resetUnits_keeps {s0 : State} {x1 : State} {x2} (h1 : Keeps s0 x1) :
    Keeps s0 (State.resetUnits x1 x2) := by
  unfold State.resetUnits
  repeat' first
    | with_reducible assumption
    | with_reducible refine Keeps.ofSnd (by assumption) ?_
    | with_reducible refine Keeps.ofFst (by assumption) ?_
    | intro _
    | simp only [Keeps.record_iff]
    | split
    | with_reducible fail_if_success skip

theorem State.clusterReset_keeps {s0 : State} {x1 : State} {x2} (h1 : Keeps s0 x1) :
    Keeps s0 (State.clusterReset x1 x2).state := by
  unfold State.clusterReset
  repeat' first
    | with_reducible assumption
    | with_reducible apply State.returnSlices_keeps
    | with_reducible apply State.resetUnits_keeps
    | with_reducible apply State.killSlices_keeps
    | with_reducible apply State.zeroRange_keeps
    | with_reducible apply State.setCluster_keeps
    | with_reducible apply State.setObj_keeps
    | with_reducible refine Keeps.ofSnd (by assumption) ?_
    | with_reducible refine Keeps.ofFst (by assumption) ?_
    | intro _
    | simp only [Keeps.record_iff]
    | split
    | with_reducible fail_if_success skip

theorem State.clusterReady_keeps {s0 : State} {x1 : State} {x2} (h1 : Keeps s0 x1) :
    Keeps s0 (State.clusterReady x1 x2) := by
  unfold State.clusterReady
  repeat' first
    | with_reducible assumption
    | with_reducible apply State.zeroRange_keeps
    | with_reducible apply State.setCluster_keeps
    | with_reducible apply State.setReady_keeps
    | with_reducible refine Keeps.ofSnd (by assumption) ?_
    | simp only [Keeps.record_iff]
    | split
    | with_reducible fail_if_success skip

theorem State.mapSpare_keeps {s0 : State} {x1 : State} {x2} {x3} (h1 : Keeps s0 x1) :
    Keeps s0 (State.mapSpare x1 x2 x3) := by
  unfold State.mapSpare
  repeat' first
    | with_reducible assumption
    | with_reducible apply State.raise_keeps
    | with_reducible apply State.setObj_keeps
    | with_reducible apply State.setReady_keeps
    | with_reducible apply State.oweRecord_keeps
    | with_reducible apply State.clusterReady_keeps
    | with_reducible refine Keeps.ofSnd (by assumption) ?_
    | with_reducible refine Keeps.ofFst (by assumption) ?_
    | intro _
    | simp only [Keeps.record_iff]
    | split
    | with_reducible fail_if_success skip

theorem State.selfTested_keeps {s0 : State} {x1 : State} {x2} {x3} (h1 : Keeps s0 x1) :
    Keeps s0 (State.selfTested x1 x2 x3) := by
  unfold State.selfTested
  repeat' first
    | with_reducible assumption
    | with_reducible apply State.clusterReady_keeps
    | with_reducible apply State.triggerSparing_keeps
    | with_reducible apply State.setReady_keeps
    | with_reducible apply State.setCluster_keeps
    | with_reducible apply State.mapSpare_keeps
    | with_reducible refine Keeps.ofSnd (by assumption) ?_
    | with_reducible refine Keeps.ofFst (by assumption) ?_
    | intro _
    | simp only [Keeps.record_iff]
    | split
    | with_reducible fail_if_success skip

theorem State.unitTrained_keeps {s0 : State} {x1 : State} {x2} {x3} {x4} (h1 : Keeps s0 x1) :
    Keeps s0 (State.unitTrained x1 x2 x3 x4) := by
  unfold State.unitTrained
  repeat' first
    | with_reducible assumption
    | with_reducible apply State.withdrawChan_keeps
    | with_reducible apply State.withdrawGroup_keeps
    | with_reducible apply State.setObj_keeps
    | with_reducible refine Keeps.ofSnd (by assumption) ?_
    | simp only [Keeps.record_iff]
    | split
    | with_reducible fail_if_success skip

theorem State.memoryTrained_keeps {s0 : State} {x1 : State} {x2} {x3} (h1 : Keeps s0 x1) :
    Keeps s0 (State.memoryTrained x1 x2 x3) := by
  unfold State.memoryTrained
  repeat' first
    | with_reducible assumption
    | with_reducible apply State.unitTrained_keeps
    | with_reducible apply State.noteAll_keeps
    | with_reducible apply State.setReady_keeps
    | with_reducible refine Keeps.ofSnd (by assumption) ?_
    | with_reducible refine Keeps.ofFst (by assumption) ?_
    | with_reducible apply Keeps.foldl
    | with_reducible apply Keeps.foldlFst
    | with_reducible apply Keeps.foldlSnd
    | intro _
    | simp only [Keeps.record_iff]
    | split
    | with_reducible fail_if_success skip

theorem State.trip_keeps {s0 : State} {x1 : State} (h1 : Keeps s0 x1) :
    Keeps s0 (State.trip x1) := by
  unfold State.trip
  repeat' first
    | with_reducible assumption
    | with_reducible refine Keeps.ofSnd (by assumption) ?_
    | simp only [Keeps.record_iff]
    | split
    | with_reducible fail_if_success skip

theorem State.powerDown_keeps {s0 : State} {x1 : State} (h1 : Keeps s0 x1) :
    Keeps s0 (State.powerDown x1) := by
  unfold State.powerDown
  repeat' first
    | with_reducible assumption
    | with_reducible apply State.deviceReset_keeps
    | with_reducible refine Keeps.ofSnd (by assumption) ?_
    | simp only [Keeps.record_iff]
    | split
    | with_reducible fail_if_success skip

theorem State.routerAdvertisement_keeps {s0 : State} {x1 : State} {x2} {x3} (h1 : Keeps s0 x1) :
    Keeps s0 (State.routerAdvertisement x1 x2 x3) := by
  unfold State.routerAdvertisement
  repeat' first
    | with_reducible assumption
    | with_reducible refine Keeps.ofSnd (by assumption) ?_
    | simp only [Keeps.record_iff]
    | split
    | with_reducible fail_if_success skip

theorem State.mctpControl_keeps {s0 : State} {x1 : State} {x2} {x3} {x4} (h1 : Keeps s0 x1) :
    Keeps s0 (State.mctpControl x1 x2 x3 x4) := by
  unfold State.mctpControl
  repeat' first
    | with_reducible assumption
    | with_reducible apply State.send_keeps
    | with_reducible refine Keeps.ofSnd (by assumption) ?_
    | with_reducible refine Keeps.ofFst (by assumption) ?_
    | intro _
    | simp only [Keeps.record_iff]
    | split
    | with_reducible fail_if_success skip

end Sys2Proof.Machine
end

