-- ==== Sys2Proof/Laws/KeepsCommit.lean ====
section
/-! SUPPORT. What the operations of Machine/Commit.lean keep. -/

set_option linter.all false

namespace Sys2Proof.Machine

theorem State.setUpPart_keeps {s0 : State} {x1 : State} {x2} (h1 : Keeps s0 x1) :
    Keeps s0 (State.setUpPart x1 x2) := by
  unfold State.setUpPart
  repeat' first
    | with_reducible assumption
    | with_reducible apply State.setObj_keeps
    | with_reducible refine Keeps.ofSnd (by assumption) ?_
    | with_reducible refine Keeps.ofFst (by assumption) ?_
    | intro _
    | simp only [Keeps.record_iff]
    | with_reducible fail_if_success skip

theorem State.tearDownPart_keeps {s0 : State} {x1 : State} {x2} (h1 : Keeps s0 x1) :
    Keeps s0 (State.tearDownPart x1 x2) := by
  unfold State.tearDownPart
  repeat' first
    | with_reducible assumption
    | with_reducible apply State.beginTeardown_keeps
    | with_reducible apply State.setObj_keeps
    | with_reducible refine Keeps.ofSnd (by assumption) ?_
    | with_reducible refine Keeps.ofFst (by assumption) ?_
    | with_reducible apply Keeps.foldl
    | with_reducible apply Keeps.foldlFst
    | with_reducible apply Keeps.foldlSnd
    | intro _
    | simp only [Keeps.record_iff]
    | split
    | with_reducible fail_if_success skip

theorem State.changeCluster_keeps {s0 : State} {x1 : State} {x2 : State} {x3} {x4} (h1 : Keeps s0 x1) (h2 : Keeps s0 x2) :
    Keeps s0 (State.changeCluster x1 x2 x3 x4) := by
  unfold State.changeCluster
  repeat' first
    | with_reducible assumption
    | with_reducible apply State.beginMove_keeps
    | with_reducible apply State.adoptCluster_keeps
    | with_reducible refine Keeps.ofSnd (by assumption) ?_
    | intro _
    | simp only [Keeps.record_iff]
    | split
    | with_reducible fail_if_success skip

theorem State.changePin_keeps {s0 : State} {x1 : State} {x2 : State} {x3} (h1 : Keeps s0 x1) (h2 : Keeps s0 x2) :
    Keeps s0 (State.changePin x1 x2 x3) := by
  unfold State.changePin
  repeat' first
    | with_reducible assumption
    | with_reducible apply State.unpinRoot_keeps
    | with_reducible refine Keeps.ofSnd (by assumption) ?_
    | simp only [Keeps.record_iff]
    | split
    | with_reducible fail_if_success skip

theorem State.commitEffects_keeps {s0 : State} {x1 : State} {x2 : State} {x3} (h1 : Keeps s0 x1) (h2 : Keeps s0 x2) :
    Keeps s0 (State.commitEffects x1 x2 x3).1 := by
  unfold State.commitEffects
  repeat' first
    | with_reducible assumption
    | with_reducible apply State.tearDownPart_keeps
    | with_reducible apply State.setUpPart_keeps
    | with_reducible apply State.changeCluster_keeps
    | with_reducible apply State.bindPins_keeps
    | with_reducible apply State.changePin_keeps
    | with_reducible apply State.staleArbs_keeps
    | with_reducible apply State.programExpanders_keeps
    | with_reducible refine Keeps.ofSnd (by assumption) ?_
    | with_reducible refine Keeps.ofFst (by assumption) ?_
    | with_reducible apply Keeps.foldl
    | with_reducible apply Keeps.foldlFst
    | with_reducible apply Keeps.foldlSnd
    | intro _
    | simp only [Keeps.record_iff]
    | split
    | with_reducible fail_if_success skip

theorem State.putAll_keeps {s0 : State} {x1 : State} {x2} (h1 : Keeps s0 x1) :
    Keeps s0 (State.putAll x1 x2) := by
  unfold State.putAll
  repeat' first
    | with_reducible assumption
    | with_reducible apply State.setObj_keeps
    | with_reducible refine Keeps.ofSnd (by assumption) ?_
    | with_reducible apply Keeps.foldl
    | with_reducible apply Keeps.foldlFst
    | with_reducible apply Keeps.foldlSnd
    | intro _
    | simp only [Keeps.record_iff]
    | with_reducible fail_if_success skip

theorem State.commitSet_keeps {s0 : State} {x1 : State} {x2} {t : State} {y0} (e : State.commitSet x1 x2 = .ok (t, y0))
    (h1 : Keeps s0 x1) : Keeps s0 t := by
  unfold State.commitSet at e
  split at e
  · cases e
    exact h1
  · split at e
    · cases e
    · refine Keeps.ofFst (Except.ok.inj e) (State.commitEffects_keeps h1 (State.addObj_keeps (State.putAll_keeps h1)))

end Sys2Proof.Machine
end

