-- ==== Sys2Proof/Laws/KeepsSessions.lean ====
section
/-! SUPPORT. What the operations of Machine/Sessions.lean keep. -/

set_option linter.all false

namespace Sys2Proof.Machine

theorem State.dropBulks_keeps {s0 : State} {x1 : State} {x2} (h1 : Keeps s0 x1) :
    Keeps s0 (State.dropBulks x1 x2) := by
  unfold State.dropBulks
  repeat' first
    | with_reducible assumption
    | with_reducible refine Keeps.ofSnd (by assumption) ?_
    | intro _
    | simp only [Keeps.record_iff]
    | split
    | with_reducible fail_if_success skip

theorem State.endSession_keeps {s0 : State} {x1 : State} {x2} (h1 : Keeps s0 x1) :
    Keeps s0 (State.endSession x1 x2) := by
  unfold State.endSession
  repeat' first
    | with_reducible assumption
    | with_reducible apply State.dropBulks_keeps
    | with_reducible refine Keeps.ofSnd (by assumption) ?_
    | intro _
    | simp only [Keeps.record_iff]
    | with_reducible fail_if_success skip

theorem State.sessOpen_keeps {s0 : State} {x1 : State} {x2} {x3} (h1 : Keeps s0 x1) :
    Keeps s0 (State.sessOpen x1 x2 x3).state := by
  unfold State.sessOpen
  repeat' first
    | with_reducible assumption
    | with_reducible refine Keeps.ofSnd (by assumption) ?_
    | with_reducible refine Keeps.ofFst (by assumption) ?_
    | intro _
    | simp only [Keeps.record_iff]
    | split
    | with_reducible fail_if_success skip

theorem State.sessClose_keeps {s0 : State} {x1 : State} {x2} {x3} (h1 : Keeps s0 x1) :
    Keeps s0 (State.sessClose x1 x2 x3).state := by
  unfold State.sessClose
  repeat' first
    | with_reducible assumption
    | with_reducible apply State.endSession_keeps
    | with_reducible refine Keeps.ofSnd (by assumption) ?_
    | intro _
    | simp only [Keeps.record_iff]
    | split
    | with_reducible fail_if_success skip

theorem State.setSession_keeps {s0 : State} {x1 : State} {x2} (h1 : Keeps s0 x1) :
    Keeps s0 (State.setSession x1 x2) := by
  unfold State.setSession
  repeat' first
    | with_reducible assumption
    | with_reducible refine Keeps.ofSnd (by assumption) ?_
    | with_reducible refine Keeps.ofFst (by assumption) ?_
    | intro _
    | simp only [Keeps.record_iff]
    | split
    | with_reducible fail_if_success skip

theorem State.ownerGrant_keeps {s0 : State} {x1 : State} {x2} {x3} (h1 : Keeps s0 x1) :
    Keeps s0 (State.ownerGrant x1 x2 x3).state := by
  unfold State.ownerGrant
  repeat' first
    | with_reducible assumption
    | with_reducible apply State.setSession_keeps
    | with_reducible refine Keeps.ofSnd (by assumption) ?_
    | with_reducible refine Keeps.ofFst (by assumption) ?_
    | intro _
    | simp only [Keeps.record_iff]
    | split
    | with_reducible fail_if_success skip

theorem State.spendGrant_keeps {s0 : State} {x1 : State} {x2} (h1 : Keeps s0 x1) :
    Keeps s0 (State.spendGrant x1 x2) := by
  unfold State.spendGrant
  repeat' first
    | with_reducible assumption
    | with_reducible apply State.setSession_keeps
    | with_reducible refine Keeps.ofSnd (by assumption) ?_
    | with_reducible refine Keeps.ofFst (by assumption) ?_
    | intro _
    | simp only [Keeps.record_iff]
    | split
    | with_reducible fail_if_success skip

theorem State.opKeyWrite_keeps {s0 : State} {x1 : State} {x2} {x3} (h1 : Keeps s0 x1) :
    Keeps s0 (State.opKeyWrite x1 x2 x3).state := by
  unfold State.opKeyWrite
  repeat' first
    | with_reducible assumption
    | with_reducible refine Keeps.ofSnd (by assumption) ?_
    | simp only [Keeps.record_iff]
    | split
    | with_reducible fail_if_success skip

theorem State.fwStageWhole_keeps {s0 : State} {x1 : State} {x2} {x3} (h1 : Keeps s0 x1) :
    Keeps s0 (State.fwStageWhole x1 x2 x3).state := by
  unfold State.fwStageWhole
  repeat' first
    | with_reducible assumption
    | with_reducible apply State.romLoad_keeps
    | with_reducible apply State.stageImage_keeps
    | with_reducible apply State.beginStaging_keeps
    | with_reducible refine Keeps.ofSnd (by assumption) ?_
    | with_reducible refine Keeps.ofFst (by assumption) ?_
    | intro _
    | simp only [Keeps.record_iff]
    | split
    | with_reducible fail_if_success skip

theorem State.writeAction_keeps {s0 : State} {x1 : State} {x2} {x3} {x4} {x5} (h1 : Keeps s0 x1) :
    Keeps s0 (State.writeAction x1 x2 x3 x4 x5).state := by
  unfold State.writeAction
  repeat' first
    | with_reducible assumption
    | with_reducible apply State.warmReset_keeps
    | with_reducible apply State.clusterReset_keeps
    | with_reducible apply State.ctxCreate_keeps
    | with_reducible apply State.ctxTeardown_keeps
    | with_reducible apply State.faultResume_keeps
    | with_reducible apply State.spareRequest_keeps
    | with_reducible apply State.ctxAttach_keeps
    | with_reducible apply State.ctxOrphan_keeps
    | with_reducible apply State.keyProvision_keeps
    | with_reducible apply State.keyRevoke_keeps
    | with_reducible apply State.rollbackRaise_keeps
    | with_reducible apply State.sessOpen_keeps
    | with_reducible apply State.sessClose_keeps
    | with_reducible apply State.opKeyWrite_keeps
    | with_reducible apply State.ownerGrant_keeps
    | with_reducible apply State.ownerEnroll_keeps
    | with_reducible apply State.fwStageWhole_keeps
    | with_reducible apply State.fwActivate_keeps
    | with_reducible apply State.attestNonce_keeps
    | with_reducible apply State.injectPoison_keeps
    | with_reducible refine Keeps.ofSnd (by assumption) ?_
    | with_reducible refine Keeps.ofFst (by assumption) ?_
    | intro _
    | simp only [Keeps.record_iff]
    | split
    | with_reducible fail_if_success skip

theorem State.writeRw_keeps {s0 : State} {x1 : State} {x2} {x3} {x4} (h1 : Keeps s0 x1) :
    Keeps s0 (State.writeRw x1 x2 x3 x4).state := by
  unfold State.writeRw
  repeat' first
    | with_reducible assumption
    | with_reducible apply State.setObj_keeps
    | with_reducible apply State.ringDisabled_keeps
    | with_reducible apply State.postWaiting_keeps
    | with_reducible apply State.floodLsa_keeps
    | with_reducible refine Keeps.ofSnd (by assumption) ?_
    | with_reducible refine Keeps.ofFst (by assumption) ?_
    | intro _
    | simp only [Keeps.record_iff]
    | split
    | with_reducible fail_if_success skip

theorem State.setStage_keeps {s0 : State} {x1 : State} {x2} {x3} (h1 : Keeps s0 x1) :
    Keeps s0 (State.setStage x1 x2 x3) := by
  unfold State.setStage
  repeat' first
    | with_reducible assumption
    | with_reducible refine Keeps.ofSnd (by assumption) ?_
    | intro _
    | simp only [Keeps.record_iff]
    | split
    | with_reducible fail_if_success skip

theorem State.stageWrite_keeps {s0 : State} {x1 : State} {x2} {x3} {x4} {x5} (h1 : Keeps s0 x1) :
    Keeps s0 (State.stageWrite x1 x2 x3 x4 x5).state := by
  unfold State.stageWrite
  repeat' first
    | with_reducible assumption
    | with_reducible apply State.setStage_keeps
    | with_reducible refine Keeps.ofSnd (by assumption) ?_
    | simp only [Keeps.record_iff]
    | split
    | with_reducible fail_if_success skip

theorem State.performWrite_keeps {s0 : State} {x1 : State} {x2} {x3} {x4} {x5} (h1 : Keeps s0 x1) :
    Keeps s0 (State.performWrite x1 x2 x3 x4 x5).state := by
  unfold State.performWrite
  repeat' first
    | with_reducible assumption
    | with_reducible apply State.writeRw_keeps
    | with_reducible apply State.stageWrite_keeps
    | with_reducible apply State.writeAction_keeps
    | with_reducible apply State.spendGrant_keeps
    | with_reducible refine Keeps.ofSnd (by assumption) ?_
    | with_reducible refine Keeps.ofFst (by assumption) ?_
    | intro _
    | simp only [Keeps.record_iff]
    | split
    | with_reducible fail_if_success skip

end Sys2Proof.Machine
end

