-- ==== Sys2Proof/Laws/KeepsAmiso.lean ====
section
/-! SUPPORT. What the operations of Machine/Amiso.lean keep. -/

set_option linter.all false

namespace Sys2Proof.Machine

theorem State.readItem_keeps {s0 : State} {x1 : State} {x2} {x3} {x4} (h1 : Keeps s0 x1) :
    Keeps s0 (State.readItem x1 x2 x3 x4).2.2.2 := by
  unfold State.readItem
  repeat' first
    | with_reducible assumption
    | with_reducible apply State.readObj_keeps
    | with_reducible refine Keeps.ofSnd (by assumption) ?_
    | with_reducible refine Keeps.ofFst (by assumption) ?_
    | with_reducible apply Keeps.iteLast
    | with_reducible apply Keeps.iteSnd
    | with_reducible apply Keeps.iteFst
    | intro _
    | simp only [Keeps.record_iff]
    | split
    | with_reducible fail_if_success skip

theorem State.writeItem_keeps {s0 : State} {x1 : State} {x2} {x3} {x4} (h1 : Keeps s0 x1) :
    Keeps s0 (State.writeItem x1 x2 x3 x4).state := by
  unfold State.writeItem
  repeat' first
    | with_reducible assumption
    | with_reducible apply State.performWrite_keeps
    | with_reducible refine Keeps.ofSnd (by assumption) ?_
    | with_reducible refine Keeps.ofFst (by assumption) ?_
    | with_reducible apply Keeps.iteLast
    | with_reducible apply Keeps.iteSnd
    | with_reducible apply Keeps.iteFst
    | intro _
    | simp only [Keeps.record_iff]
    | split
    | with_reducible fail_if_success skip

theorem State.runReads_keeps {s0 : State} {x1 : State} {x2} {x3} {x4} (h1 : Keeps s0 x1) :
    Keeps s0 (State.runReads x1 x2 x3 x4).2 := by
  unfold State.runReads
  repeat' first
    | with_reducible assumption
    | with_reducible apply State.readItem_keeps
    | with_reducible refine Keeps.ofSnd (by assumption) ?_
    | with_reducible refine Keeps.ofFst (by assumption) ?_
    | with_reducible apply Keeps.foldl
    | with_reducible apply Keeps.foldlFst
    | with_reducible apply Keeps.foldlSnd
    | with_reducible apply Keeps.foldlMid
    | with_reducible apply Keeps.iteLast
    | with_reducible apply Keeps.iteSnd
    | with_reducible apply Keeps.iteFst
    | intro _
    | simp only [Keeps.record_iff]
    | split
    | with_reducible fail_if_success skip

theorem State.runWrites_keeps {s0 : State} {x1 : State} {x2} {x3} {x4} (h1 : Keeps s0 x1) :
    Keeps s0 (State.runWrites x1 x2 x3 x4).2.1 := by
  unfold State.runWrites
  repeat' first
    | with_reducible assumption
    | with_reducible apply State.writeItem_keeps
    | with_reducible refine Keeps.ofSnd (by assumption) ?_
    | with_reducible apply Keeps.foldl
    | with_reducible apply Keeps.foldlFst
    | with_reducible apply Keeps.foldlSnd
    | with_reducible apply Keeps.foldlMid
    | with_reducible apply Keeps.iteLast
    | with_reducible apply Keeps.iteSnd
    | with_reducible apply Keeps.iteFst
    | intro _
    | simp only [Keeps.record_iff]
    | with_reducible fail_if_success skip

theorem State.bulkPut_keeps {s0 : State} {x1 : State} {x2} {x3} {x4} (h1 : Keeps s0 x1) :
    Keeps s0 (State.bulkPut x1 x2 x3 x4).2.2 := by
  unfold State.bulkPut
  repeat' first
    | with_reducible assumption
    | with_reducible apply State.performWrite_keeps
    | with_reducible apply State.beginStaging_keeps
    | with_reducible refine Keeps.ofSnd (by assumption) ?_
    | with_reducible refine Keeps.ofFst (by assumption) ?_
    | with_reducible apply Keeps.iteLast
    | with_reducible apply Keeps.iteSnd
    | with_reducible apply Keeps.iteFst
    | intro _
    | simp only [Keeps.record_iff]
    | split
    | with_reducible fail_if_success skip

theorem State.bulkGet_keeps {s0 : State} {x1 : State} {x2} {x3} {x4} (h1 : Keeps s0 x1) :
    Keeps s0 (State.bulkGet x1 x2 x3 x4).2.2 := by
  unfold State.bulkGet
  repeat' first
    | with_reducible assumption
    | with_reducible apply State.readObj_keeps
    | with_reducible refine Keeps.ofSnd (by assumption) ?_
    | with_reducible refine Keeps.ofFst (by assumption) ?_
    | with_reducible apply Keeps.iteLast
    | with_reducible apply Keeps.iteSnd
    | with_reducible apply Keeps.iteFst
    | intro _
    | simp only [Keeps.record_iff]
    | split
    | with_reducible fail_if_success skip

theorem State.commitNow_keeps {s0 : State} {x1 : State} {x2} {x3} (h1 : Keeps s0 x1) :
    Keeps s0 (State.commitNow x1 x2 x3).2.2.1 := by
  unfold State.commitNow
  repeat' first
    | with_reducible assumption
    | with_reducible apply State.setStage_keeps
    | with_reducible refine State.commitSet_keeps (by assumption) ?_
    | with_reducible refine Keeps.ofSnd (by assumption) ?_
    | with_reducible refine Keeps.ofFst (by assumption) ?_
    | with_reducible apply Keeps.iteLast
    | with_reducible apply Keeps.iteSnd
    | with_reducible apply Keeps.iteFst
    | intro _
    | simp only [Keeps.record_iff]
    | split
    | with_reducible fail_if_success skip

theorem State.answer_keeps {s0 : State} {x1 : State} {x2} {x3} {x4} {x5} {x6} {x7} (h1 : Keeps s0 x1) :
    Keeps s0 (State.answer x1 x2 x3 x4 x5 x6 x7) := by
  unfold State.answer
  repeat' first
    | with_reducible assumption
    | with_reducible apply State.sendReply_keeps
    | with_reducible refine Keeps.ofSnd (by assumption) ?_
    | with_reducible apply Keeps.iteLast
    | with_reducible apply Keeps.iteSnd
    | with_reducible apply Keeps.iteFst
    | intro _
    | simp only [Keeps.record_iff]
    | split
    | with_reducible fail_if_success skip

theorem State.perform_keeps {s0 : State} {x1 : State} {x2} {x3} {x4} {x5} {x6} {x7} (h1 : Keeps s0 x1) :
    Keeps s0 (State.perform x1 x2 x3 x4 x5 x6 x7) := by
  unfold State.perform
  repeat' first
    | with_reducible assumption
    | with_reducible apply State.sendReply_keeps
    | with_reducible apply State.runReads_keeps
    | with_reducible apply State.runWrites_keeps
    | with_reducible apply State.answer_keeps
    | with_reducible apply State.commitNow_keeps
    | with_reducible apply State.bulkPut_keeps
    | with_reducible apply State.bulkGet_keeps
    | with_reducible refine Keeps.ofSnd (by assumption) ?_
    | with_reducible refine Keeps.ofFst (by assumption) ?_
    | with_reducible apply Keeps.iteLast
    | with_reducible apply Keeps.iteSnd
    | with_reducible apply Keeps.iteFst
    | intro _
    | simp only [Keeps.record_iff]
    | split
    | with_reducible fail_if_success skip

theorem State.serveMessage_keeps {s0 : State} {x1 : State} {x2} {x3} {x4} {x5} {x6} {x7} (h1 : Keeps s0 x1) :
    Keeps s0 (State.serveMessage x1 x2 x3 x4 x5 x6 x7) := by
  unfold State.serveMessage
  repeat' first
    | with_reducible assumption
    | with_reducible apply State.carryReply_keeps
    | with_reducible apply State.addObj_keeps
    | with_reducible apply State.setSession_keeps
    | with_reducible apply State.sendReply_keeps
    | with_reducible apply State.perform_keeps
    | with_reducible refine Keeps.ofSnd (by assumption) ?_
    | with_reducible refine Keeps.ofFst (by assumption) ?_
    | with_reducible apply Keeps.iteLast
    | with_reducible apply Keeps.iteSnd
    | with_reducible apply Keeps.iteFst
    | intro _
    | simp only [Keeps.record_iff]
    | split
    | with_reducible fail_if_success skip

theorem State.serveAction_keeps {s0 : State} {x1 : State} {x2} {x3} {x4} {x5} (h1 : Keeps s0 x1) :
    Keeps s0 (State.serveAction x1 x2 x3 x4 x5) := by
  unfold State.serveAction
  repeat' first
    | with_reducible assumption
    | with_reducible apply State.answer_keeps
    | with_reducible apply State.performWrite_keeps
    | with_reducible refine Keeps.ofSnd (by assumption) ?_
    | with_reducible refine Keeps.ofFst (by assumption) ?_
    | with_reducible apply Keeps.iteLast
    | with_reducible apply Keeps.iteSnd
    | with_reducible apply Keeps.iteFst
    | intro _
    | simp only [Keeps.record_iff]
    | split
    | with_reducible fail_if_success skip

theorem State.serveChallenge_keeps {s0 : State} {x1 : State} {x2} (h1 : Keeps s0 x1) :
    Keeps s0 (State.serveChallenge x1 x2) := by
  unfold State.serveChallenge
  repeat' first
    | with_reducible assumption
    | with_reducible apply State.readItem_keeps
    | with_reducible apply State.sendReply_keeps
    | with_reducible refine Keeps.ofSnd (by assumption) ?_
    | with_reducible refine Keeps.ofFst (by assumption) ?_
    | with_reducible apply Keeps.iteLast
    | with_reducible apply Keeps.iteSnd
    | with_reducible apply Keeps.iteFst
    | simp only [Keeps.record_iff]
    | split
    | with_reducible fail_if_success skip

theorem State.serve_keeps {s0 : State} {x1 : State} {x2} (h1 : Keeps s0 x1) :
    Keeps s0 (State.serve x1 x2) := by
  unfold State.serve
  repeat' first
    | with_reducible assumption
    | with_reducible apply State.carryReply_keeps
    | with_reducible apply State.serveMessage_keeps
    | with_reducible apply State.serveAction_keeps
    | with_reducible apply State.serveChallenge_keeps
    | with_reducible apply State.mgmtRestart_keeps
    | with_reducible refine Keeps.ofSnd (by assumption) ?_
    | with_reducible refine Keeps.ofFst (by assumption) ?_
    | with_reducible apply Keeps.iteLast
    | with_reducible apply Keeps.iteSnd
    | with_reducible apply Keeps.iteFst
    | intro _
    | simp only [Keeps.record_iff]
    | split
    | with_reducible fail_if_success skip

theorem State.request_keeps {s0 : State} {x1 : State} {x2} (h1 : Keeps s0 x1) :
    Keeps s0 (State.request x1 x2) := by
  unfold State.request
  repeat' first
    | with_reducible assumption
    | with_reducible apply State.noteAll_keeps
    | with_reducible apply State.serve_keeps
    | with_reducible refine Keeps.ofSnd (by assumption) ?_
    | with_reducible apply Keeps.iteLast
    | with_reducible apply Keeps.iteSnd
    | with_reducible apply Keeps.iteFst
    | intro _
    | simp only [Keeps.record_iff]
    | split
    | with_reducible fail_if_success skip

theorem State.pumpCommits_keeps {s0 : State} {x1 : State} {x2} (h1 : Keeps s0 x1) :
    Keeps s0 (State.pumpCommits x1 x2) := by
  revert h1
  induction x2 generalizing x1 with
  | zero =>
    intro h1
    unfold State.pumpCommits
    repeat' first
      | with_reducible assumption
      | with_reducible apply State.perform_keeps
      | with_reducible refine Keeps.ofSnd (by assumption) ?_
      | with_reducible refine Keeps.ofFst (by assumption) ?_
      | with_reducible apply Keeps.iteLast
      | with_reducible apply Keeps.iteSnd
      | with_reducible apply Keeps.iteFst
        | intro _
      | simp only [Keeps.record_iff]
      | split
      | with_reducible fail_if_success skip
  | succ _ ih =>
    intro h1
    unfold State.pumpCommits
    repeat' first
      | with_reducible apply ih
      | with_reducible assumption
      | with_reducible apply State.perform_keeps
      | with_reducible refine Keeps.ofSnd (by assumption) ?_
      | with_reducible refine Keeps.ofFst (by assumption) ?_
      | with_reducible apply Keeps.iteLast
      | with_reducible apply Keeps.iteSnd
      | with_reducible apply Keeps.iteFst
      | apply ih
      | intro _
      | simp only [Keeps.record_iff]
      | split
      | with_reducible fail_if_success skip

theorem State.winGo_keeps {s0 : State} {x1 : State} {x2} {x3} (h1 : Keeps s0 x1) :
    Keeps s0 (State.winGo x1 x2 x3) := by
  unfold State.winGo
  repeat' first
    | with_reducible assumption
    | with_reducible apply State.addObj_keeps
    | with_reducible apply State.request_keeps
    | with_reducible refine Keeps.ofSnd (by assumption) ?_
    | with_reducible apply Keeps.iteLast
    | with_reducible apply Keeps.iteSnd
    | with_reducible apply Keeps.iteFst
    | intro _
    | simp only [Keeps.record_iff]
    | split
    | with_reducible fail_if_success skip

theorem State.settleWindows_keeps {s0 : State} {x1 : State} (h1 : Keeps s0 x1) :
    Keeps s0 (State.settleWindows x1) := by
  unfold State.settleWindows
  repeat' first
    | with_reducible assumption
    | with_reducible refine Keeps.ofSnd (by assumption) ?_
    | with_reducible refine Keeps.ofFst (by assumption) ?_
    | with_reducible apply Keeps.iteLast
    | with_reducible apply Keeps.iteSnd
    | with_reducible apply Keeps.iteFst
    | intro _
    | simp only [Keeps.record_iff]
    | split
    | with_reducible fail_if_success skip

theorem State.imageAlive_keeps {s0 : State} {x1 : State} (h1 : Keeps s0 x1) :
    Keeps s0 (State.imageAlive x1) := by
  unfold State.imageAlive
  repeat' first
    | with_reducible assumption
    | with_reducible apply State.settleWindows_keeps
    | with_reducible apply State.reportAlive_keeps
    | with_reducible apply State.noteAll_keeps
    | with_reducible apply State.floodLsa_keeps
    | with_reducible apply State.claimAddress_keeps
    | with_reducible apply State.payRecords_keeps
    | with_reducible apply State.pumpCommits_keeps
    | with_reducible apply State.request_keeps
    | with_reducible refine Keeps.ofSnd (by assumption) ?_
    | with_reducible apply Keeps.foldl
    | with_reducible apply Keeps.foldlFst
    | with_reducible apply Keeps.foldlSnd
    | with_reducible apply Keeps.foldlMid
    | with_reducible apply Keeps.iteLast
    | with_reducible apply Keeps.iteSnd
    | with_reducible apply Keeps.iteFst
    | intro _
    | simp only [Keeps.record_iff]
    | split
    | with_reducible fail_if_success skip

end Sys2Proof.Machine
end

