-- ==== Sys2Proof/Laws/KeepsHostPorts.lean ====
section
/-! SUPPORT. What the operations of Machine/HostPorts.lean keep. -/

set_option linter.all false

namespace Sys2Proof.Machine

theorem State.resetFns_keeps {s0 : State} {x1 : State} {x2} (h1 : Keeps s0 x1) :
    Keeps s0 (State.resetFns x1 x2) := by
  unfold State.resetFns
  repeat' first
    | with_reducible assumption
    | with_reducible refine Keeps.ofSnd (by assumption) ?_
    | with_reducible apply Keeps.iteLast
    | with_reducible apply Keeps.iteSnd
    | with_reducible apply Keeps.iteFst
    | intro _
    | simp only [Keeps.record_iff]
    | with_reducible fail_if_success skip

theorem State.endCtxs_keeps {s0 : State} {x1 : State} {x2} {x3} (h1 : Keeps s0 x1) :
    Keeps s0 (State.endCtxs x1 x2 x3) := by
  unfold State.endCtxs
  repeat' first
    | with_reducible assumption
    | with_reducible apply State.orphan_keeps
    | with_reducible apply State.beginTeardown_keeps
    | with_reducible refine Keeps.ofSnd (by assumption) ?_
    | with_reducible apply Keeps.foldl
    | with_reducible apply Keeps.foldlFst
    | with_reducible apply Keeps.foldlSnd
    | with_reducible apply Keeps.foldlMid
    | with_reducible apply Keeps.iteLast
    | with_reducible apply Keeps.iteSnd
    | with_reducible apply Keeps.iteFst
    | intro _
    | simp only [Keeps.record_iff]
    | split
    | with_reducible fail_if_success skip

theorem State.countDown_keeps {s0 : State} {x1 : State} {x2} (h1 : Keeps s0 x1) :
    Keeps s0 (State.countDown x1 x2) := by
  unfold State.countDown
  repeat' first
    | with_reducible assumption
    | with_reducible apply State.addObj_keeps
    | with_reducible refine Keeps.ofSnd (by assumption) ?_
    | with_reducible apply Keeps.iteLast
    | with_reducible apply Keeps.iteSnd
    | with_reducible apply Keeps.iteFst
    | simp only [Keeps.record_iff]
    | split
    | with_reducible fail_if_success skip

theorem State.portReady_keeps {s0 : State} {x1 : State} {x2} {x3} {x4} {x5} (h1 : Keeps s0 x1) :
    Keeps s0 (State.portReady x1 x2 x3 x4 x5) := by
  unfold State.portReady
  repeat' first
    | with_reducible assumption
    | with_reducible apply State.setHostPort_keeps
    | with_reducible apply State.postWaiting_keeps
    | with_reducible apply State.setReady_keeps
    | with_reducible refine Keeps.ofSnd (by assumption) ?_
    | with_reducible refine Keeps.ofFst (by assumption) ?_
    | with_reducible apply Keeps.iteLast
    | with_reducible apply Keeps.iteSnd
    | with_reducible apply Keeps.iteFst
    | simp only [Keeps.record_iff]
    | split
    | with_reducible fail_if_success skip

theorem State.portReset_keeps {s0 : State} {x1 : State} {x2} {x3} (h1 : Keeps s0 x1) :
    Keeps s0 (State.portReset x1 x2 x3) := by
  unfold State.portReset
  repeat' first
    | with_reducible assumption
    | with_reducible apply State.countDown_keeps
    | with_reducible apply State.addObj_keeps
    | with_reducible apply State.setReady_keeps
    | with_reducible apply State.resetFns_keeps
    | with_reducible apply State.setHostPort_keeps
    | with_reducible apply State.endCtxs_keeps
    | with_reducible refine Keeps.ofSnd (by assumption) ?_
    | with_reducible refine Keeps.ofFst (by assumption) ?_
    | with_reducible apply Keeps.iteLast
    | with_reducible apply Keeps.iteSnd
    | with_reducible apply Keeps.iteFst
    | intro _
    | simp only [Keeps.record_iff]
    | split
    | with_reducible fail_if_success skip

theorem State.portLinkDown_keeps {s0 : State} {x1 : State} {x2} (h1 : Keeps s0 x1) :
    Keeps s0 (State.portLinkDown x1 x2) := by
  unfold State.portLinkDown
  repeat' first
    | with_reducible assumption
    | with_reducible apply State.countDown_keeps
    | with_reducible apply State.setReady_keeps
    | with_reducible apply State.setHostPort_keeps
    | with_reducible refine Keeps.ofSnd (by assumption) ?_
    | with_reducible apply Keeps.iteLast
    | with_reducible apply Keeps.iteSnd
    | with_reducible apply Keeps.iteFst
    | simp only [Keeps.record_iff]
    | split
    | with_reducible fail_if_success skip

theorem State.flrPf_keeps {s0 : State} {x1 : State} {x2} (h1 : Keeps s0 x1) :
    Keeps s0 (State.flrPf x1 x2) := by
  unfold State.flrPf
  repeat' first
    | with_reducible assumption
    | with_reducible apply State.addObj_keeps
    | with_reducible apply State.resetFns_keeps
    | with_reducible apply State.setHostPort_keeps
    | with_reducible apply State.endCtxs_keeps
    | with_reducible refine Keeps.ofSnd (by assumption) ?_
    | with_reducible refine Keeps.ofFst (by assumption) ?_
    | with_reducible apply Keeps.iteLast
    | with_reducible apply Keeps.iteSnd
    | with_reducible apply Keeps.iteFst
    | intro _
    | simp only [Keeps.record_iff]
    | split
    | with_reducible fail_if_success skip

theorem State.endVf_keeps {s0 : State} {x1 : State} {x2} (h1 : Keeps s0 x1) :
    Keeps s0 (State.endVf x1 x2) := by
  unfold State.endVf
  repeat' first
    | with_reducible assumption
    | with_reducible apply State.endCtxs_keeps
    | with_reducible refine Keeps.ofSnd (by assumption) ?_
    | with_reducible apply Keeps.iteLast
    | with_reducible apply Keeps.iteSnd
    | with_reducible apply Keeps.iteFst
    | intro _
    | simp only [Keeps.record_iff]
    | with_reducible fail_if_success skip

theorem State.setNumVFs_keeps {s0 : State} {x1 : State} {x2} {x3} (h1 : Keeps s0 x1) :
    Keeps s0 (State.setNumVFs x1 x2 x3) := by
  unfold State.setNumVFs
  repeat' first
    | with_reducible assumption
    | with_reducible apply State.setHostPort_keeps
    | with_reducible apply State.endVf_keeps
    | with_reducible refine Keeps.ofSnd (by assumption) ?_
    | with_reducible refine Keeps.ofFst (by assumption) ?_
    | with_reducible apply Keeps.foldl
    | with_reducible apply Keeps.foldlFst
    | with_reducible apply Keeps.foldlSnd
    | with_reducible apply Keeps.foldlMid
    | with_reducible apply Keeps.iteLast
    | with_reducible apply Keeps.iteSnd
    | with_reducible apply Keeps.iteFst
    | intro _
    | simp only [Keeps.record_iff]
    | split
    | with_reducible fail_if_success skip

theorem State.flrVf_keeps {s0 : State} {x1 : State} {x2} {x3} {x4} (h1 : Keeps s0 x1) :
    Keeps s0 (State.flrVf x1 x2 x3 x4) := by
  unfold State.flrVf
  repeat' first
    | with_reducible assumption
    | with_reducible apply State.setNumVFs_keeps
    | with_reducible apply State.endVf_keeps
    | with_reducible apply State.addObj_keeps
    | with_reducible refine Keeps.ofSnd (by assumption) ?_
    | with_reducible apply Keeps.iteLast
    | with_reducible apply Keeps.iteSnd
    | with_reducible apply Keeps.iteFst
    | simp only [Keeps.record_iff]
    | split
    | with_reducible fail_if_success skip

theorem State.flushMsix_keeps {s0 : State} {x1 : State} {x2} (h1 : Keeps s0 x1) :
    Keeps s0 (State.flushMsix x1 x2) := by
  unfold State.flushMsix
  repeat' first
    | with_reducible assumption
    | with_reducible apply State.setFn_keeps
    | with_reducible apply State.sendMsix_keeps
    | with_reducible refine Keeps.ofSnd (by assumption) ?_
    | with_reducible apply Keeps.foldl
    | with_reducible apply Keeps.foldlFst
    | with_reducible apply Keeps.foldlSnd
    | with_reducible apply Keeps.foldlMid
    | with_reducible apply Keeps.iteLast
    | with_reducible apply Keeps.iteSnd
    | with_reducible apply Keeps.iteFst
    | intro _
    | simp only [Keeps.record_iff]
    | split
    | with_reducible fail_if_success skip

theorem State.cfgWrite_keeps {s0 : State} {x1 : State} {x2} {x3} {x4} (h1 : Keeps s0 x1) :
    Keeps s0 (State.cfgWrite x1 x2 x3 x4) := by
  unfold State.cfgWrite
  repeat' first
    | with_reducible assumption
    | with_reducible apply State.setNumVFs_keeps
    | with_reducible apply State.setHostPort_keeps
    | with_reducible apply State.postWaiting_keeps
    | with_reducible apply State.setFn_keeps
    | with_reducible apply State.flushMsix_keeps
    | with_reducible refine Keeps.ofSnd (by assumption) ?_
    | with_reducible refine Keeps.ofFst (by assumption) ?_
    | with_reducible apply Keeps.iteLast
    | with_reducible apply Keeps.iteSnd
    | with_reducible apply Keeps.iteFst
    | intro _
    | simp only [Keeps.record_iff]
    | split
    | with_reducible fail_if_success skip

theorem State.busMasterOff_keeps {s0 : State} {x1 : State} {x2} {x3} (h1 : Keeps s0 x1) :
    Keeps s0 (State.busMasterOff x1 x2 x3) := by
  unfold State.busMasterOff
  repeat' first
    | with_reducible assumption
    | with_reducible apply State.setFn_keeps
    | with_reducible refine Keeps.ofSnd (by assumption) ?_
    | with_reducible apply Keeps.iteLast
    | with_reducible apply Keeps.iteSnd
    | with_reducible apply Keeps.iteFst
    | simp only [Keeps.record_iff]
    | split
    | with_reducible fail_if_success skip

theorem State.refuseBar2_keeps {s0 : State} {x1 : State} {x2} (h1 : Keeps s0 x1) :
    Keeps s0 (State.refuseBar2 x1 x2) := by
  unfold State.refuseBar2
  repeat' first
    | with_reducible assumption
    | with_reducible apply State.countRaise_keeps
    | with_reducible refine Keeps.ofSnd (by assumption) ?_
    | with_reducible apply Keeps.iteLast
    | with_reducible apply Keeps.iteSnd
    | with_reducible apply Keeps.iteFst
    | simp only [Keeps.record_iff]
    | with_reducible fail_if_success skip

theorem State.bar2Read_keeps {s0 : State} {x1 : State} {x2} {x3} {x4} (h1 : Keeps s0 x1) :
    Keeps s0 (State.bar2Read x1 x2 x3 x4) := by
  unfold State.bar2Read
  repeat' first
    | with_reducible assumption
    | with_reducible apply State.send_keeps
    | with_reducible apply State.refuseBar2_keeps
    | with_reducible apply State.holdHost_keeps
    | with_reducible apply State.readEffects_keeps
    | with_reducible refine Keeps.ofSnd (by assumption) ?_
    | with_reducible apply Keeps.iteLast
    | with_reducible apply Keeps.iteSnd
    | with_reducible apply Keeps.iteFst
    | simp only [Keeps.record_iff]
    | split
    | with_reducible fail_if_success skip

theorem State.bar2Write_keeps {s0 : State} {x1 : State} {x2} {x3} {x4} {x5} (h1 : Keeps s0 x1) :
    Keeps s0 (State.bar2Write x1 x2 x3 x4 x5) := by
  unfold State.bar2Write
  repeat' first
    | with_reducible assumption
    | with_reducible apply State.refuseBar2_keeps
    | with_reducible apply State.addObj_keeps
    | with_reducible apply State.holdHost_keeps
    | with_reducible apply State.makePoison_keeps
    | with_reducible apply State.writeCarried_keeps
    | with_reducible apply State.writeMirrored_keeps
    | with_reducible refine Keeps.ofSnd (by assumption) ?_
    | with_reducible apply Keeps.foldl
    | with_reducible apply Keeps.foldlFst
    | with_reducible apply Keeps.foldlSnd
    | with_reducible apply Keeps.foldlMid
    | with_reducible apply Keeps.iteLast
    | with_reducible apply Keeps.iteSnd
    | with_reducible apply Keeps.iteFst
    | intro _
    | simp only [Keeps.record_iff]
    | split
    | with_reducible fail_if_success skip

theorem State.pageWrite_keeps {s0 : State} {x1 : State} {x2} {x3} {x4} {x5} (h1 : Keeps s0 x1) :
    Keeps s0 (State.pageWrite x1 x2 x3 x4 x5) := by
  unfold State.pageWrite
  repeat' first
    | with_reducible assumption
    | with_reducible apply State.doorbell_keeps
    | with_reducible apply State.ringDoorbell_keeps
    | with_reducible apply State.advanceConsumed_keeps
    | with_reducible apply State.checkWake_keeps
    | with_reducible apply State.setCtx_keeps
    | with_reducible apply State.releaseHeld_keeps
    | with_reducible apply Ends.pure
    | with_reducible apply Ends.ite
    | with_reducible apply Ends.get_bind
    | with_reducible apply Ends.set_bind
    | with_reducible apply Ends.modify_bind
    | with_reducible apply Ends.set
    | with_reducible apply Ends.changed
    | with_reducible apply Ends.bind
    | with_reducible refine Ends.ofOk (by assumption) ?_
    | with_reducible refine Ends.ofError (by assumption) ?_
    | with_reducible refine Keeps.ofSnd (by assumption) ?_
    | with_reducible refine Keeps.ofFst (by assumption) ?_
    | with_reducible apply Keeps.iteLast
    | with_reducible apply Keeps.iteSnd
    | with_reducible apply Keeps.iteFst
    | intro _
    | simp only [Keeps.record_iff]
    | split
    | with_reducible fail_if_success skip

theorem State.mboxSlotWrite_keeps {s0 : State} {x1 : State} {x2} {x3} {x4} {x5} {x6} (h1 : Keeps s0 x1) :
    Keeps s0 (State.mboxSlotWrite x1 x2 x3 x4 x5 x6) := by
  unfold State.mboxSlotWrite
  repeat' first
    | with_reducible assumption
    | with_reducible apply State.mboxGo_keeps
    | with_reducible apply State.mboxReply_keeps
    | with_reducible apply State.mboxMemory_keeps
    | with_reducible apply State.mboxSignal_keeps
    | with_reducible apply State.mboxFence_keeps
    | with_reducible apply State.mboxQueue_keeps
    | with_reducible apply State.addObj_keeps
    | with_reducible apply State.setMboxSlot_keeps
    | with_reducible apply Ends.pure
    | with_reducible apply Ends.ite
    | with_reducible apply Ends.get_bind
    | with_reducible apply Ends.set_bind
    | with_reducible apply Ends.modify_bind
    | with_reducible apply Ends.set
    | with_reducible apply Ends.changed
    | with_reducible apply Ends.bind
    | with_reducible refine Ends.ofOk (by assumption) ?_
    | with_reducible refine Ends.ofError (by assumption) ?_
    | with_reducible refine Keeps.ofSnd (by assumption) ?_
    | with_reducible refine Keeps.ofFst (by assumption) ?_
    | with_reducible apply Keeps.iteLast
    | with_reducible apply Keeps.iteSnd
    | with_reducible apply Keeps.iteFst
    | intro _
    | simp only [Keeps.record_iff]
    | split
    | with_reducible fail_if_success skip

theorem State.bar0Write_keeps {s0 : State} {x1 : State} {x2} {x3} {x4} {x5} (h1 : Keeps s0 x1) :
    Keeps s0 (State.bar0Write x1 x2 x3 x4 x5) := by
  unfold State.bar0Write
  repeat' first
    | with_reducible assumption
    | with_reducible apply State.mboxSlotWrite_keeps
    | with_reducible apply State.pageWrite_keeps
    | with_reducible apply State.winGo_keeps
    | with_reducible refine Keeps.ofSnd (by assumption) ?_
    | with_reducible refine Keeps.ofFst (by assumption) ?_
    | with_reducible apply Keeps.iteLast
    | with_reducible apply Keeps.iteSnd
    | with_reducible apply Keeps.iteFst
    | simp only [Keeps.record_iff]
    | split
    | with_reducible fail_if_success skip

theorem State.completionTimeout_keeps {s0 : State} {x1 : State} {x2} {x3} (h1 : Keeps s0 x1) :
    Keeps s0 (State.completionTimeout x1 x2 x3) := by
  unfold State.completionTimeout
  repeat' first
    | with_reducible assumption
    | with_reducible apply State.addObj_keeps
    | with_reducible apply State.blockFails_keeps
    | with_reducible apply State.beginStream_keeps
    | with_reducible refine Keeps.ofSnd (by assumption) ?_
    | with_reducible refine Keeps.ofFst (by assumption) ?_
    | with_reducible apply Keeps.iteLast
    | with_reducible apply Keeps.iteSnd
    | with_reducible apply Keeps.iteFst
    | intro _
    | simp only [Keeps.record_iff]
    | split
    | with_reducible fail_if_success skip

end Sys2Proof.Machine
end

