-- ==== Sys2Proof/Laws/KeepsKeccak.lean ====
section
/-! SUPPORT. What the operations of Machine/Keccak.lean keep. -/

set_option linter.all false

namespace Sys2Proof.Machine


end Sys2Proof.Machine
end

