-- ==== Sys2Proof/Laws/KeepsRows.lean ====
section
/-! SUPPORT. What the operations of Machine/Rows.lean keep. -/

set_option linter.all false

namespace Sys2Proof.Machine


end Sys2Proof.Machine
end

