-- ==== Sys2Proof/Laws/KeepsSigmoid.lean ====
section
/-! SUPPORT. What the operations of Machine/Sigmoid.lean keep. -/

set_option linter.all false

namespace Sys2Proof.Machine


end Sys2Proof.Machine
end

