-- ==== Sys2Proof/Laws/Requests.lean ====
section
/-! SUPPORT. What attention changes, and what a permitted write of one object comes to. -/

namespace Sys2Proof.Machine

/-! ### Attention touches objects, the event log and the draws -/

theorem noted_refl (s : State) : Noted s s := rfl

theorem noted_trans {s t u : State} (h : Noted s t) (k : Noted t u) : Noted s u := by
  unfold Noted at h k ⊢
  rw [k, h]

theorem pending_of_noted {s t : State} (h : Noted s t) : t.pending = s.pending := by rw [h]

theorem out_of_noted {s t : State} (h : Noted s t) : t.out = s.out := by rw [h]

theorem mem_of_noted {s t : State} (h : Noted s t) : t.mem = s.mem := by rw [h]

theorem poison_of_noted {s t : State} (h : Noted s t) : t.poison = s.poison := by rw [h]

theorem far_of_noted {s t : State} (h : Noted s t) : t.far = s.far := by rw [h]

theorem farPoison_of_noted {s t : State} (h : Noted s t) : t.farPoison = s.farPoison := by rw [h]

theorem ctxs_of_noted {s t : State} (h : Noted s t) : t.ctxs = s.ctxs := by rw [h]

theorem fences_of_noted {s t : State} (h : Noted s t) : t.fences = s.fences := by rw [h]

theorem splits_of_noted {s t : State} (h : Noted s t) : t.splits = s.splits := by rw [h]

theorem fencePoison_of_noted {s t : State} (h : Noted s t) : t.fencePoison = s.fencePoison := by rw [h]

theorem graphs_of_noted {s t : State} (h : Noted s t) : t.graphs = s.graphs := by rw [h]

theorem trans_of_noted {s t : State} (h : Noted s t) : t.trans = s.trans := by rw [h]

theorem clusters_of_noted {s t : State} (h : Noted s t) : t.clusters = s.clusters := by rw [h]

theorem cores_of_noted {s t : State} (h : Noted s t) : t.cores = s.cores := by rw [h]

theorem engines_of_noted {s t : State} (h : Noted s t) : t.engines = s.engines := by rw [h]

theorem lanes_of_noted {s t : State} (h : Noted s t) : t.lanes = s.lanes := by rw [h]

theorem arbs_of_noted {s t : State} (h : Noted s t) : t.arbs = s.arbs := by rw [h]

theorem mbox_of_noted {s t : State} (h : Noted s t) : t.mbox = s.mbox := by rw [h]

theorem amiso_of_noted {s t : State} (h : Noted s t) : t.amiso = s.amiso := by rw [h]

theorem wins_of_noted {s t : State} (h : Noted s t) : t.wins = s.wins := by rw [h]

theorem fns_of_noted {s t : State} (h : Noted s t) : t.fns = s.fns := by rw [h]

theorem hostPorts_of_noted {s t : State} (h : Noted s t) : t.hostPorts = s.hostPorts := by rw [h]

theorem fabric_of_noted {s t : State} (h : Noted s t) : t.fabric = s.fabric := by rw [h]

theorem path_of_noted {s t : State} (h : Noted s t) : t.path = s.path := by rw [h]

theorem cxl_of_noted {s t : State} (h : Noted s t) : t.cxl = s.cxl := by rw [h]

theorem weevils_of_noted {s t : State} (h : Noted s t) : t.weevils = s.weevils := by rw [h]

theorem tiers_of_noted {s t : State} (h : Noted s t) : t.tiers = s.tiers := by rw [h]

theorem sparing_of_noted {s t : State} (h : Noted s t) : t.sparing = s.sparing := by rw [h]

theorem fw_of_noted {s t : State} (h : Noted s t) : t.fw = s.fw := by rw [h]

theorem fuses_of_noted {s t : State} (h : Noted s t) : t.fuses = s.fuses := by rw [h]

theorem board_of_noted {s t : State} (h : Noted s t) : t.board = s.board := by rw [h]

theorem power_of_noted {s t : State} (h : Noted s t) : t.power = s.power := by rw [h]

theorem noted_setObj {s t : State} {i j v : Nat} (h : Noted s t) : Noted s (t.setObj i j v) := noted_trans h rfl

theorem noted_addObj {s t : State} {i j v : Nat} (h : Noted s t) : Noted s (t.addObj i j v) := noted_trans h rfl

theorem noted_attn {s t : State} {a : Attn} (h : Noted s t) : Noted s { t with attn := a } := noted_trans h rfl

theorem noted_draw {s t : State} (h : Noted s t) : Noted s t.draw.2 := noted_trans h rfl

theorem noted_foldl {α : Type} {s t : State} {f : State → α → State} {l : List α} (hf : ∀ u x, Noted s u → Noted s (f u x))
    (h : Noted s t) : Noted s (l.foldl f t) := by
  induction l generalizing t with
  | nil => exact h
  | cons x l ih => exact ih (hf t x h)

namespace State

theorem loseEvent_noted {s t : State} {e : Event} (h : Noted s t) : Noted s (t.loseEvent e) := by
  unfold loseEvent
  refine noted_foldl (fun u x hu => ?_) h
  split
  · exact noted_addObj hu
  · exact hu

theorem raise_noted {s t : State} {a b c d e f : Nat} (h : Noted s t) : Noted s (t.raise a b c d e f) := by
  unfold raise
  dsimp only
  split
  · exact noted_attn (loseEvent_noted (noted_attn (noted_draw h)))
  · exact noted_attn (noted_attn (noted_draw h))

theorem raiseAs_noted {s t : State} {a b c d e f v : Nat} (h : Noted s t) : Noted s (t.raiseAs a b c d e f v) :=
  raise_noted (noted_setObj h)

theorem countRaise_noted {s t : State} {a b c d e f : Nat} (h : Noted s t) : Noted s (t.countRaise a b c d e f) :=
  raise_noted (noted_addObj h)

theorem setReady_noted {s t : State} {i j v : Nat} (h : Noted s t) : Noted s (t.setReady i j v) := by
  unfold setReady
  split
  · exact h
  · split
    · exact raise_noted (noted_setObj h)
    · split
      · exact raise_noted (noted_setObj h)
      · exact noted_setObj h

theorem noteReady_noted {s t old : State} {i j : Nat} (h : Noted s t) : Noted s (noteReady old t i j) := by
  unfold noteReady
  dsimp only
  split
  · exact h
  · split
    · exact raiseAs_noted h
    · split
      · exact raiseAs_noted h
      · exact h

/-- The attention of readiness changes touches nothing but objects, the event log and the draws. -/
theorem noteAll_noted {s t old : State} (h : Noted s t) : Noted s (noteAll old t) := by
  unfold noteAll
  exact noted_foldl (fun _ _ hu => noteReady_noted hu) h

/-! ### A write of one object -/

/-- A write that passes is one of an object the dictionary has. -/
theorem checkWrite_find {s : State} {r : Requester} {i j ty : Nat} {v : List (BitVec 8)} {w : Bool} {d : ObjDef}
    (h : s.checkWrite r i j ty v w = .ok d) (h0 : s.fw.stage ≠ 0) : Catalog.find i j = some d := by
  unfold checkWrite at h
  have hp : s.present i j = Catalog.find i j := by simp [present, h0]
  rw [hp] at h
  cases hf : Catalog.find i j with
  | none => rw [hf] at h; cases h
  | some e =>
    rw [hf] at h
    dsimp only at h
    revert h
    repeat' first
      | split
      | exact fun h => congrArg some (Except.ok.inj h)
      | exact fun h => absurd h (by simp)

/-- A permitted write of one object is performed and answered. -/
theorem request_action {s : State} {r : Requester} {index sub : Nat} {v : List (BitVec 8)} (h : Permitted s r index sub v) :
    ∃ d, Catalog.find index sub = some d ∧
      s.request (.action r index sub v) = noteAll s
        (let a := s.performWrite r d sub v
         let t := a.state.answer r none [] (itemReply index sub (objType index sub) a.status a.value) a.waits false
         if t.board.restartDue then ({ t with board := { t.board with restartDue := false } }).mgmtRestart else t) := by
  obtain ⟨h1, h2, h3, h4⟩ := h
  obtain ⟨d, hd⟩ : ∃ d, s.checkWrite r index sub (objType index sub) v true = .ok d := by
    revert h4
    cases s.checkWrite r index sub (objType index sub) v true with
    | ok d => exact fun _ => ⟨d, rfl⟩
    | error e => exact fun h => nomatch h
  simp only [State.mgmtUp, Bool.and_eq_true, decide_eq_true_eq] at h1
  refine ⟨d, checkWrite_find hd (by omega), ?_⟩
  have hs : ¬(r.session ≠ 0 ∧ (s.sessionOf r).isNone = true) := by
    rintro ⟨a, b⟩
    rcases h3 with h3 | h3
    · exact a h3
    · cases hx : s.sessionOf r <;> simp [hx] at b h3
  unfold request
  have h0 : s.fw.stage ≠ 0 := by omega
  simp only [h1.1.1, Bool.not_true, Bool.false_eq_true, ↓reduceIte, h0, h1.2]
  unfold serve serveAction
  simp only [hs, ↓reduceIte]
  rw [show ((Catalog.find index sub).map (·.ty)).getD 0 = objType index sub from rfl, hd]

end State

end Sys2Proof.Machine
end

