-- ==== Sys2Proof/Laws/Tidy.lean ====
section
/-! SUPPORT. What one tidy-core instruction does: where the word at the program counter is the instruction's own and its body
answers, the core's registers are the body's, and nothing else of the state changes but what the body's accesses did. -/

namespace Sys2Proof.Machine

/-- The word at the program counter is listed, the instruction is legal and its body answers. -/
theorem State.tidy_passed {s u : State} {x : At} {w : Nat} {t : Task} {legal writes : Bool} {body : Core → M Core} {c : Core}
    (hr : Runs s x w t) (hw : Tidy.listed w = true) (hl : legal = true)
    (hb : (body (past (s.core x.core))).run s = .ok c u) :
    s.tidy x w legal writes body = passed u x t (carried u x.core c) := by
  obtain ⟨ht, hc, hi⟩ := hr
  have hb' : body (past (s.core x.core)) s = .ok c u := hb
  unfold State.tidy
  simp only [show ({ s.core x.core with pc := ((s.core x.core).pc + 1) % 16384, done := 0 } : Core) = past (s.core x.core) from rfl]
  rw [ht]
  simp only [hc, hi, hw, hl, Bool.not_true, Bool.false_eq_true, if_false, ne_eq, not_true_eq_false]
  simp only [State.runM, EStateM.run, bind, EStateM.bind, hb', get, getThe, MonadStateOf.get, EStateM.get, set,
    MonadStateOf.set, EStateM.set, State.settle, passed, carried]

/-- An instruction whose body neither reads nor changes the state. -/
theorem State.tidy_pure {s : State} {x : At} {w : Nat} {t : Task} {legal writes : Bool} {body : Core → M Core} {g : Core → Core}
    (hr : Runs s x w t) (hw : Tidy.listed w = true) (hl : legal = true)
    (hb : ∀ c, body c = pure (g c)) :
    s.tidy x w legal writes body = passed s x t (carried s x.core (g (past (s.core x.core)))) :=
  State.tidy_passed hr hw hl (by rw [hb]; rfl)

/-- A core keeps what `carried` sets where a change leaves its task, outstanding ports and data memory alone, and no access is
left over. -/
theorem carried_self {s : State} {n : Nat} {c : Core} (ht : c.task = (s.core n).task)
    (ho : c.outstanding = (s.core n).outstanding) (hd : c.dmem = (s.core n).dmem)
    (hz : c.done = 0) : carried s n c = c := by
  cases c; subst ht; subst ho; subst hd; subst hz; rfl

end Sys2Proof.Machine
end

