-- ==== Sys2Proof/Tests/Slice0.lean ====
section
/-! SUPPORT. Tests: what the commands do on small states, ill-formed commands that are refused, and for every statement with
hypotheses a state and operands that meet them. -/

namespace Sys2Proof.Tests

set_option Elab.async false

open Sys2Proof.Machine

/-- A device out of reset, with both host ports up and an image that has reported alive. -/
def live : State :=
  { State.reset with
    board := { resetN := true }
    fw := { stage := 1, alive := true }
    hostPorts := [(0, { link := 2, numVFs := 7 }), (1, { link := 2, numVFs := 7 })] }

/-- The requester of session 1. -/
def boss : Requester := ⟨.mgmt, 0, 1⟩

/-- The live device with an operator's session. -/
def staff : State :=
  { live with amiso := { sessions := [{ n := 1, path := .mgmt, ident := 0, role := 2, version := 4, key := [], challenge := [] }] } }

/-- The live device with a session that holds an owner's grant, an owner bank, and a running image of version number 9. -/
def owned : State :=
  { live with
    amiso := { sessions := [{ n := 1, path := .mgmt, ident := 0, role := 2, version := 4, key := [], challenge := [],
                              grant := some ⟨[(0, 65535)], none⟩ }] }
    fuses := { owners := [List.replicate 32 1] }
    fw := { stage := 1, alive := true, regions := [(0, List.replicate 6 0 ++ [9])] } }


/-- The first op of a quire of context 0. -/
def workOp : OpRef := ⟨0, 0, 0⟩

/-- A task that core 255 runs for it. -/
def workTask : Task := { o := workOp, k := 0, index := 0, checked := false, restartable := false }

/-- Context 0 with one quire in progress, whose only op has the record `w` and one slice. -/
def working (w : Nat) (y : Slice) : Ctx :=
  { phase := .opened, cls := 1, verQuire := 3, verCpl := 3, verMbox := 2, produced := 1, consumed := 1
    entries := [{ n := 0, kind := 1, seq := 1,
                  quire := some { src := .mem 0, fenceBase := 0, hdr := 0x51 + 2 ^ 50, nextRec := 2,
                                  ops := [{ word := w, phase := .dispatched, slices := [y] }] } }] }

/-- The record of a VECTOR_RUN: one task on up to two clusters, one block of code from address 0, a cycle limit. -/
def vecWord : Nat := 2 + 2 ^ 128 + 2 * 2 ^ 144 + 2 ^ 184 + 5 * 2 ^ 168

/-- The live device with a context resident on cluster 63, whose core 255 runs a task with the word `w` at its last instruction. -/
def running (w : Nat) : State :=
  let c : Core := { imem := if w = 0 then [] else [(16383, w)], pc := 16383, task := some workTask
                    s := [(1, BitVec.ofNat 64 (2 ^ 63 + (0x10000 - 1032))), (2, BitVec.ofNat 64 (2 ^ 63 + 0x700000 - 8))] }
  let d : Core := { image := some ⟨workOp, 0, 1, false⟩ }
  let y : Slice := { unit := 1, place := some 63, lo := 0, hi := 2, phase := .running, work := .tc 1 0 none }
  { live with
    ctxs := [(0, working vecWord y)]
    clusters := [(63, { resident := some 0, queue := [⟨workOp, 0⟩] })]
    cores := [(252, d), (255, c)] }

/-- The same device with context 0 in a space whose first GiB has one leaf. -/
def spaced (leaf : Nat) : State :=
  let tag : Tag := { root := some 0x10000 }
  let page : TEnt := { tag := 0, page := 0, pages := 2 ^ 18, leaf := leaf, pinned := false }
  { running 0 with
    objs := [(objKey 0x2003 0, 2), (objKey 0x2004 0, 2), (objKey 0x4012 0, 0), (objKey 0x4062 0, 0)]
    trans := { tags := tag :: List.replicate 31 {}, centralBuf := [page] }
    ctxs := (running 0).ctxs.map fun p => (p.1, { p.2 with readback := true, root := 0x10000 }) }

/-- The live device with an op that waits in context 0, whose space is bound to tag 0, and two clusters in its partition. -/
def waiting (w : Nat) (ext : List Nat) : State :=
  let c := working w { unit := 1 }
  let e : Entry := { n := 0, kind := 1, seq := 1
                     quire := some { src := .mem 0, fenceBase := 0, hdr := 0x51 + 2 ^ 50, nextRec := 2, ops := [{ word := w, ext := ext }] } }
  let tag : Tag := { root := some 0 }
  { live with
    objs := [(objKey 0x2002 4, 2), (objKey 0x2002 5, 2), (objKey 0x3000 0, 2 ^ 63), (objKey 0x3001 4, 0), (objKey 0x3001 5, 0)]
    trans := { tags := tag :: List.replicate 31 {} }
    ctxs := [(0, { c with entries := [e] })] }

/-- The live device with context 0 of class 1 in a space whose first GiB maps bulk memory. -/
def mapped (c : Ctx) : State :=
  let tag : Tag := { root := some 0x10000 }
  let page : TEnt := { tag := 0, page := 0, pages := 2 ^ 18, leaf := 15 + bulkBase, pinned := false }
  { live with
    objs := [(objKey 0x2003 0, 2), (objKey 0x2004 0, 2), (objKey 0x3000 0, 2 ^ 63), (objKey 0x3040 0, 2 ^ 63 + 2 ^ 19 + 1),
             (objKey 0x4012 0, 0), (objKey 0x4062 0, 0)]
    trans := { tags := tag :: List.replicate 31 {}, centralBuf := [page] }
    ctxs := [(0, { c with phase := .opened, verQuire := 3, verCpl := 3, root := 0x10000, cls := 1 })] }

/-- The same device with a queue, a stored graph in cover memory, and the listed bytes of bulk memory. -/
def rings (cells : List Host.Cell) : State :=
  let q : QDesc := { sqLog2 := 4, cqLog2 := 6, sqBase := 0, cqBase := 4096 }
  let g : Graph := { ctx := 0, part := 0, current := 1, gens := [{ num := 1, len := 2, base := 0, units := 1 }] }
  { mapped { q := q, produced := 1 } with
    graphs := [(7, g)]
    mem := [(65536, 0x51), (65537, 3), (65542, 4)] ++ cells }

/-- Op `o` has the opcode `code` and may be dispatched (`MayDispatch`). -/
def dispatches (s : State) (o : OpRef) (code : Nat) : Bool :=
  let u := s.numberReady
  s.running && ((s.op? o).map (·.word) == (u.op? o).map (·.word)) && (u.op? o).any (fun x => OpHdr.opcode x.word == code) &&
    u.ready o && u.firstInLine o && (u.headerFail o).isNone && (u.acquireTag o.ctx).2

/-- What `dispatches` says of a state. -/
theorem mayDispatch_of_dispatches {s : State} {o : OpRef} {code : Nat} (h : dispatches s o code = true) :
    ∃ t x, MayDispatch s t o x code := by
  unfold dispatches at h
  simp only [Bool.and_eq_true, beq_iff_eq, Option.isNone_iff_eq_none] at h
  obtain ⟨⟨⟨⟨⟨⟨h1, h2⟩, h3⟩, h4⟩, h5⟩, h6⟩, h7⟩ := h
  cases hu : s.numberReady.op? o with
  | none => simp [hu] at h3
  | some x =>
    simp only [hu, Option.any_some, beq_iff_eq, Option.map_some] at h2 h3
    cases hs : s.op? o with
    | none => simp [hs] at h2
    | some y =>
      rw [hs] at h2
      exact ⟨(s.numberReady.acquireTag o.ctx).1, x, h1, ⟨y, hs, by simpa using h2⟩, h3, hu, h4, h5, h6, Prod.ext rfl h7⟩

theorem witness_StepIdlesOnEmptyQueue :
    State.reset.pending = [] ∧ State.reset.running = false ∧ Tests.live.pending = [] ∧ Tests.live.running = true ∧
      Tests.live.path = [] ∧ Tests.live.trans.hostHeld = [] ∧ (∀ x ∈ Tests.live.mbox, x.2.waiting = none) ∧
      ∀ p, (Tests.live.sharelPort p).ingress = [] ∧ (Tests.live.sharelPort p).waiting = [] :=
  ⟨rfl, rfl, rfl, rfl, rfl, rfl, by decide, fun _ => ⟨rfl, rfl⟩⟩

theorem witness_StepTakesOneCommand : ∃ t, step { State.reset with pending := [.boardReset] } = .next t := ⟨_, rfl⟩

theorem witness_MemoryStaysCanonical :
    Memory.wf State.reset.mem = true ∧ ∃ t, step { State.reset with pending := [.powerOn 3] } = .next t :=
  ⟨by decide, _, rfl⟩

theorem witness_FusesOnlyGain : ∃ t, step { State.reset with pending := [.powerDown] } = .next t := ⟨_, rfl⟩

theorem witness_SentStaysSent : ∃ t, step { State.reset with pending := [.thermTrip] } = .next t := ⟨_, rfl⟩

theorem witness_OnlyTheBoardActsOnAStoppedDevice :
    State.reset.running = false ∧ BoardEvent (.submit 3) = false := by decide

theorem witness_SupplyEventsResetTheDevice :
    (live.board.powered = true ∧ live.board.resetN = true ∧ live.board.clocksStopped = false ∧ live.board.thermTrip = false) ∧
    (let s : State := { State.reset with board := { stretching := true } }
     s.board.stretching = true ∧ s.board.resetN = false ∧ s.board.powered = true ∧ s.board.clocksStopped = false) ∧
    State.reset.board.resetN = false ∧
    (let s : State := { State.reset with fuses := { badClusters := [3], maps := [(objKey 0x5002 3, 64)] } }
     AMap.getD s.fuses.maps (objKey 0x5002 3) 3 = 64 ∧ s.fuses.badClusters.contains (AMap.getD s.fuses.maps (objKey 0x5002 4) 4) = false ∧
       AMap.getD ([] : AMap Nat) (objKey 0x5002 3) 3 = 3) := by decide

theorem witness_BringUpEvents :
    ({ live with board := { live.board with warm := some 2 } }).running = true ∧
    (live.logicalOf 65 = none ∧ live.sparing.badClusters.contains 65 = false) ∧
    (let s := (live.setObj 0x2002 5 1).setObj 0x2003 1 1
     s.running = true ∧ s.logicalOf 5 = some 5 ∧ s.obj 0x2002 5 = 1 ∧ s.obj 0x2003 1 = 1) ∧
    (live.setObj 0x2004 0 1).obj 0x2004 (2 - 2) = 1 ∧ live.mgmtUp = true ∧ State.mctpCarrier .hostB = some 2 := by
  decide +kernel

theorem witness_ResetRequests :
    (staff.mgmtUp = true ∧ staff.board.restartDue = false ∧ (staff.sessionOf boss).isSome = true ∧
      (staff.checkWrite boss 0x2010 1 (objType 0x2010 1) [0] true).isOk = true ∧
      (staff.checkWrite boss 0x2010 1 (objType 0x2010 1) [1] true).isOk = true ∧
      (staff.checkWrite boss 0x2010 2 (objType 0x2010 2) (leBytes 1 63) true).isOk = true ∧
      (staff.checkWrite boss 0x2010 3 (objType 0x2010 3) [1] true).isOk = true) ∧
    ((staff.cluster 63).moving = false ∧ (staff.cluster 63).mode ≠ .handover ∧
      (staff.sparing.active.any fun a => a.1 == 63) = false) ∧ staff.running = true ∧ 1 ≤ staff.fw.stage := by
  decide +kernel

theorem witness_FirmwareRequests :
    ((staff.sessionOf boss).isSome = true ∧ staff.mgmtUp = true ∧ staff.board.restartDue = false ∧
      (staff.checkWrite boss 0xC020 1 (objType 0xC020 1) [0] true).isOk = true ∧ staff.fw.stage ≠ 4 ∧
      (staff.amiso.bulks.any fun b => b.index == 0xC020) = false ∧
      (staff.checkWrite boss 0xC020 2 (objType 0xC020 2) (leBytes 4 0) true).isOk = true ∧
      (staff.checkWrite boss 0xC050 3 (objType 0xC050 3) (List.replicate 32 7) true).isOk = true) ∧
    (let s : State := { staff with fw := { staff.fw with staged := true } }
     s.fw.staged = true ∧ (0 : Nat) = Image.version s.stagedHead ∧ s.mgmtUp = true ∧
       s.acceptCode (s.regionImage (1 - s.fw.region)) ≠ 0) ∧
    (let s : State := { live with fw := { stage := 4, alive := true } }
     s.mgmtUp = true ∧ s.fw.stage = 4 ∧ s.quiescent = true) ∧
    (let s : State := { live with fw := { stage := 4, handover := true } }
     s.running = true ∧ s.fw.handover = true ∧ s.fw.alive = false ∧ s.fw.stage ≠ 0 ∧ s.amiso.held = [] ∧ s.amiso.commits = []) ∧
    (let s : State := { live with fw := {} }
     s.running = true ∧ s.fw.stage = 0) ∧
    (let s : State := { live with amiso := { reports := [(.plain .mgmt 0, [], none)] } }
     s.mgmtUp = true ∧ (State.partyOf ⟨.mgmt, 0, 0⟩, [], none) ∈ s.amiso.reports) := by
  decide +kernel

theorem witness_FuseRequests :
    (owned.mgmtUp = true ∧ owned.board.restartDue = false ∧ (owned.sessionOf boss).isSome = true ∧
      (owned.checkWrite boss 0xC002 3 (objType 0xC002 3) (2 :: List.replicate 32 1) true).isOk = true ∧
      AMap.get? owned.fuses.keySlots (leNat ((2 :: List.replicate 32 1 : List (BitVec 8)).take 1)) = none) ∧
    ((owned.checkWrite boss 0xC002 4 (objType 0xC002 4) (leBytes 1 3) true).isOk = true ∧
      3 ≠ bits owned.runningHead 47 40 ∧ (AMap.get? owned.fuses.keySlots 0).isSome = true ∧
      owned.fuses.revoked.contains 0 = false) ∧
    ((owned.checkWrite boss 0xC002 5 (objType 0xC002 5) (leBytes 1 9) true).isOk = true ∧ owned.fuses.floor < 9 ∧
      9 ≤ Image.svn owned.runningHead) ∧
    ((owned.checkWrite boss 0xC012 3 (objType 0xC012 3) (List.replicate 32 5) true).isOk = true ∧
      owned.fuses.owners.length < 4) ∧
    (owned.checkWrite boss 0xC011 7 (objType 0xC011 7) (2 :: List.replicate 39 0) true).isOk = true := by
  decide +kernel

theorem witness_ScalarArithmetic :
    Runs (running (Tidy.word 0x01 0x12 ⟨31, 31, 31, 0, 0, 3⟩)) ⟨255, false⟩ (Tidy.word 0x01 0x12 ⟨31, 31, 31, 0, 0, 3⟩) workTask ∧
    Runs (running (Tidy.word 0x02 0x00 ⟨0, 0, 31, 7, 1, 0⟩)) ⟨255, false⟩ (Tidy.word 0x02 0x00 ⟨0, 0, 31, 7, 1, 0⟩) workTask := by
  unfold Runs; decide +kernel

theorem witness_ScalarControl :
    (Runs (running (Tidy.wordK 0x03 31 (2 ^ 22 - 1))) ⟨255, true⟩ (Tidy.wordK 0x03 31 (2 ^ 22 - 1)) workTask ∧
      Runs (running (Tidy.wordK 0x04 1 1)) ⟨255, false⟩ (Tidy.wordK 0x04 1 1) workTask ∧
      Runs (running (Tidy.wordK 0x06 31 (2 ^ 21))) ⟨255, false⟩ (Tidy.wordK 0x06 31 (2 ^ 21)) workTask ∧
      Runs (running (Tidy.wordBr 5 31 31 2048)) ⟨255, false⟩ (Tidy.wordBr 5 31 31 2048) workTask) ∧
    (∀ op ∈ [0, 1, 2, 3, 4, 5, 8, 9, 0xA, 0xB], Tidy.sysOk ⟨31, 1, 3, 0, 0, 0⟩ = true ∧
      Runs (running (Tidy.word 0 op ⟨31, 1, 3, 0, 0, 0⟩)) ⟨255, false⟩ (Tidy.word 0 op ⟨31, 1, 3, 0, 0, 0⟩) workTask ∧
      (running (Tidy.word 0 op ⟨31, 1, 3, 0, 0, 0⟩)).peersDone 255 = true ∧
      (running (Tidy.word 0 op ⟨31, 1, 3, 0, 0, 0⟩)).hostDone 255 = true) ∧
    ((running 0).core 255).sreg 1 = 2 ^ 63 + (0x10000 - 1032) ∧
    (∃ y, (running 0).slice? workTask.o workTask.k = some y ∧ y.work = .tc 1 0 none) := by
  refine ⟨?_, ?_, ?_, ?_⟩
  · unfold Runs; decide +kernel
  · unfold Runs; decide +kernel
  · decide +kernel
  · exact ⟨_, rfl, rfl⟩

theorem witness_ScalarMemory_readback :
    let s := spaced (15 + 16)
    (s.core 255).task = some workTask ∧ s.peersDone 255 = true ∧ (s.ctx workTask.o.ctx).readback = true ∧
      (match (translate (s.coreReq 255 workTask) 4096 .write).run (s.closePath 255) with
        | .ok (.host 0 4096) _ => true
        | _ => false) = true := by
  decide +kernel

theorem witness_ScalarMemory :
    (∀ op ∈ [0, 1, 2, 3, 4], Runs (running (Tidy.word 8 op ⟨31, 2, 0, 0, 0, 3⟩)) ⟨255, false⟩ (Tidy.word 8 op ⟨31, 2, 0, 0, 0, 3⟩) workTask ∧
      memAddr ((running 0).core 255) ⟨31, 2, 0, 0, 0, 3⟩ % 8 = 0 ∧
      Runs (running (Tidy.word 8 op ⟨31, 1, 0, 0, 1, 1⟩)) ⟨255, false⟩ (Tidy.word 8 op ⟨31, 1, 0, 0, 1, 1⟩) workTask) ∧
    (running 0).peersDone 255 = true ∧ ((running 0).ctx workTask.o.ctx).readback = false ∧
    (releaseStep 255 (2 ^ 63)).run (running 0) = .ok () ((running 0).closePath 255) ∧
    ((running 0).core 255).done = 0 ∧ Memory.wf (running 0).mem = true ∧
    (localOk (running 0) 255 (memAddr ((running 0).core 255) ⟨31, 2, 0, 0, 0, 3⟩) 8 ∧ localOk (running 0) 255 (2 ^ 63 + 0xFFFF) 1) ∧
    memAddr ((running 0).core 255) ⟨31, 2, 0, 0, 1, 1⟩ % 2 = 0 ∧
    memAddr ((running 0).core 255) ⟨31, 2, 0, 0, 1, 3⟩ % 8 = 0 ∧
    memAddr { (running 0).core 255 with s := [(1, 3)] } ⟨31, 1, 0, 0, 0, 1⟩ % 2 ≠ 0 ∧
    (∃ y, (running 0).slice? workTask.o workTask.k = some y ∧ y.work = .tc 1 0 none) := by
  refine ⟨?_, by decide +kernel, by decide +kernel, by rfl, by decide +kernel, by decide +kernel, ⟨.inr ⟨0x300000 - 8, by decide +kernel, by decide +kernel⟩, .inl ⟨0xFFFF, by decide +kernel⟩⟩,
    by decide +kernel, by decide +kernel, by decide +kernel, ⟨_, rfl, rfl⟩⟩
  unfold Runs; decide +kernel

theorem witness_ScalarAtomics : ∀ op ∈ List.range 13, ∀ f ∈ [(⟨31, 2, 1, 0, 0, 2⟩ : Fields), ⟨0, 2, 1, 0, 0, 3⟩],
    Tidy.plain f = true ∧ 2 ≤ f.ew % 4 ∧ Runs (running (Tidy.word 9 op f)) ⟨255, false⟩ (Tidy.word 9 op f) workTask ∧
    coreAddr (((running (Tidy.word 9 op f)).core 255).sreg f.a) (2 ^ (f.ew % 4)) = .store (0x300000 - 8) ∧
    ((running (Tidy.word 9 op f)).core 255).sreg f.a % 2 ^ (f.ew % 4) = 0 ∧
    (running (Tidy.word 9 op f)).anyPoison (storeAddr 63 (0x300000 - 8)) (2 ^ (f.ew % 4)) = false := by
  unfold Runs; decide +kernel

theorem witness_VectorInteger : ∀ sc : Bool, ∀ p ∈ [(0x10, 0x11), (0x11, 0x05)],
    Runs (running (Tidy.word p.1 (p.2 + b2n sc * 32) ⟨31, 31, 31, 7, 1, 3⟩)) ⟨255, false⟩ (Tidy.word p.1 (p.2 + b2n sc * 32) ⟨31, 31, 31, 7, 1, 3⟩) workTask := by
  unfold Runs; decide +kernel

theorem witness_VectorFloat : ∀ ew ∈ [1, 2], Tidy.floatEw ⟨31, 31, 31, 7, 1, ew⟩ = true ∧ (∀ sc : Bool,
      Runs (running (Tidy.word 0x13 (8 + b2n sc * 32) ⟨31, 31, 31, 7, 1, ew⟩)) ⟨255, false⟩ (Tidy.word 0x13 (8 + b2n sc * 32) ⟨31, 31, 31, 7, 1, ew⟩) workTask) ∧
    (∀ op ∈ [0, 1, 2, 3, 4, 5, 8, 9, 0xA, 0xB],
      Runs (running (Tidy.word 0x12 op ⟨7, 31, 31, 7, 1, ew⟩)) ⟨255, false⟩ (Tidy.word 0x12 op ⟨7, 31, 31, 7, 1, ew⟩) workTask) := by
  unfold Runs; decide +kernel

theorem witness_VectorConversions : ∀ p ∈ [(0, 2), (1, 1), (2, 1), (3, 2), (4, 2), (5, 0), (6, 2), (7, 1), (8, 0), (9, 1), (0xA, 3), (0xB, 2)],
    Runs (running (Tidy.word 0x14 p.1 ⟨31, 31, 31, 7, 1, p.2⟩)) ⟨255, false⟩ (Tidy.word 0x14 p.1 ⟨31, 31, 31, 7, 1, p.2⟩) workTask := by
  unfold Runs; decide +kernel

theorem witness_VectorMovesAndMasks :
    (∀ op ∈ [0, 1, 2, 3, 4, 5, 6, 7], Runs (running (Tidy.word 0x15 op ⟨31, 31, 31, 7, 1, 0⟩)) ⟨255, false⟩ (Tidy.word 0x15 op ⟨31, 31, 31, 7, 1, 0⟩) workTask ∧
      ((running (Tidy.word 0x15 op ⟨31, 31, 31, 7, 1, 0⟩)).core 255).sreg 31 < 2048 / 8) ∧
    (∀ op ∈ [0, 1, 2, 3, 4, 5, 6, 7], Tidy.plain ⟨7, 0, 1, 0, 0, 0⟩ = true ∧ (7 : Nat) % 8 ≠ 0 ∧
      Runs (running (Tidy.word 0x1A op ⟨7, 0, 1, 0, 0, 0⟩)) ⟨255, false⟩ (Tidy.word 0x1A op ⟨7, 0, 1, 0, 0, 0⟩) workTask) := by
  unfold Runs; decide +kernel

theorem witness_VectorReductionsAndLookups :
    (∀ op ∈ [0x10, 0x11, 0x12, 0x13, 0x14, 0x18, 0x19, 0x1A],
      Runs (running (Tidy.word 0x15 op ⟨31, 31, 31, 7, 1, 2⟩)) ⟨255, false⟩ (Tidy.word 0x15 op ⟨31, 31, 31, 7, 1, 2⟩) workTask) ∧
    (∀ p ∈ [(0x16, 0), (0x16, 1), (0x17, 0), (0x17, 1)], Tidy.floatEw ⟨31, 31, 3, 0, 0, 2⟩ = true ∧
      Runs (running (Tidy.word p.1 p.2 ⟨31, 31, 3, 0, 0, 2⟩)) ⟨255, false⟩ (Tidy.word p.1 p.2 ⟨31, 31, 3, 0, 0, 2⟩) workTask) ∧
    ((((running 0).core 255).mreg 0).getLsbD 63 = true ∧ isNan fp32 0x7FC00000 = true ∧ isNan fp32 0x437F0000 = false) := by
  unfold Runs; decide +kernel

theorem witness_VectorMemory :
    (∀ op ∈ [0, 1, 2, 3, 4, 5], Runs (running (Tidy.word 0x18 op ⟨31, 2, 0, 0, 0, 3⟩)) ⟨255, false⟩ (Tidy.word 0x18 op ⟨31, 2, 0, 0, 0, 3⟩) workTask) ∧
    ((running 0).core 255).done = 0 ∧ Memory.wf (running 0).mem = true ∧
    (∀ op ∈ [2, 3, 4, 5], ∀ e, e < 256 / 8 → elemAddr ((running 0).core 255) ⟨31, 2, 0, 0, 0, 3⟩ op e % 8 = 0 ∧
      coreAddr (elemAddr ((running 0).core 255) ⟨31, 2, 0, 0, 0, 3⟩ op e) 8 = .store (0x300000 - 8)) ∧
    (running 0).anyPoison (storeAddr 63 (0x300000 - 8)) 8 = false ∧
    (∀ op ∈ [0, 1], ∀ e, e < 256 / 8 → elemAddr ((running 0).core 255) ⟨31, 1, 0, 0, 0, 3⟩ op e % 8 = 0 ∧
      coreAddr (elemAddr ((running 0).core 255) ⟨31, 1, 0, 0, 0, 3⟩ op e) 8 = .data (0x10000 - 1032 + 8 * e)) := by
  unfold Runs; decide +kernel

theorem witness_TasksAndCanaries :
    VecOp.ok vecWord = true ∧ dispatches (waiting vecWord []) workOp 0x02 = true ∧
    ((waiting vecWord []).numberReady.acquireTag 0).1.eligibles 0 1 ≠ [] := by decide +kernel
/-- The task of core 255 in the forms that are moved and restarted. -/
theorem witness_TasksAndCanaries_cores :
    ((running 0).running = true ∧ (running 0).atHead 63 1 = some ⟨workOp, 0⟩ ∧ ((running 0).op? workOp).isSome = true ∧
      (running 0).freeCore 63 = some 0 ∧ (running 0).opStopped workOp = false ∧
      ((running 0).slice? workOp 0).map (·.work) = some (.tc 1 0 none) ∧ ((running 0).slice? workOp 0).map (·.hi) = some 2) ∧
    (let s := running 0
     let x : Op := { word := vecWord }
     let t : Task := { o := workOp, k := 0, index := 1, checked := false, restartable := false }
     let u : Task := { t with checked := true, restartable := true }
     State.runsChecked x = false ∧ VecOp.cycleLimit vecWord ≠ 0 ∧ s.coreRuns 255 = true ∧ s.coreBusy 255 = 0 ∧
      (match (State.fetchImage ((spaced (15 + bulkBase)).coreReq 255 t) vecWord).run (spaced (15 + bulkBase)) with | .ok _ _ => true | _ => false) = true ∧
      (match (State.loadTask 252 x t).run (s.startSlice workOp 0) with | .ok _ v => (v.slice? workOp 0).map (·.work) == some (.tc 1 0 none) | _ => false) = true ∧
      (match (State.loadTask 252 x { u with restarted := true }).run ((s.undoLog 255 u).setCore 255 { mustPass := true }) with
        | .ok _ _ => true | _ => false) = true) ∧
    (let s : State := { running 0 with clusters := [(63, { canaryDue := [0, 1, 2] })] }
     s.running = true ∧ ∀ k ∈ (s.cluster 63).canaryDue, k < 4 ∧ (s.core (4 * 63 + k)).task = none) := by
  decide +kernel

/-- The device of `running` with a MATMUL slice at the head of its class, whose engine 1 holds one tile of it. -/
def tiled : State :=
  let y : Slice := { unit := 0, place := some 63, lo := 0, hi := 1, phase := .running, work := .me [3] 0 true }
  let b : TileBuf := { o := workOp, k := 0, tile := 1 }
  { running 0 with
    ctxs := [(0, working 1 y)]
    objs := [(objKey 0x5060 1, 3)]
    engines := [(126, { foreign := [b], recordDue := true, ramp := .hold }), (127, { bufs := [b], ramp := .on })] }
theorem witness_MatrixEngines :
    (tiled.running = true ∧ tiled.atHead 63 0 = some ⟨workOp, 0⟩ ∧ (tiled.op? workOp).isSome = true ∧
      (tiled.slice? workOp 0).map (·.work) = some (.me [3] 0 true) ∧ tiled.nextTile 63 1 [3] = some 3 ∧
      (tiled.engine 63 1).out = false ∧ (tiled.engine 63 1).bufs.length < 2 ∧ (tiled.engine 63 1).foreign = [] ∧
      (tiled.engine 63 1).ramp = .on ∧ (tiled.cluster 63).mode = .serving ∧ (tiled.cluster 63).resident = some 0 ∧
      MatOp.mode 1 ≠ 2 ∧ (tiled.engine 63 0).bufs = [] ∧ (tiled.engine 63 0).ramp ≠ .dark ∧ (tiled.engine 63 0).ramp ≠ .waitUp ∧ (tiled.engine 63 0).recordDue = true ∧ tiled.mgmtUp = true ∧
      tiled.obj 0x5060 1 ≠ 0) ∧
    (let s : State := { tiled with engines := [(127, { ramp := .hold })], power := { waiting := [127] } }
     (s.engine 63 1).ramp = .hold ∧ s.power.waiting.head? = some (2 * 63 + 1) ∧ ∀ m ∈ s.power.waiting, s.engineClass m ≠ 0) ∧
    (let s : State := waiting (1 + 2 ^ 387) []
     MatOp.ok (1 + 2 ^ 387) = true ∧ dispatches s workOp 0x01 = true) := by
  decide +kernel

/-- The live device with an open context 5 of function 9. -/
def owner : State :=
  let q : QDesc := { sqLog2 := 4, cqLog2 := 6, vector := 3, msixEn := true }
  { live with
    ctxs := [(5, { phase := .opened, port := 1, fn := 1, q := q, produced := 2 ^ 32 - 1, consumed := 2 ^ 32 - 1, mode := .held })]
    fns := [(9, { bme := true, msixEn := true, unmasked := [3] })] }
theorem witness_Doorbells :
    (owner.portsUp = true ∧ owner.behind 1 = false ∧ owner.ownsPage 9 5 = true ∧ owner.ownsPage 8 5 = false ∧ (owner.ctx 5).orphaned = false ∧
      (owner.ctx 5).mode = .held ∧ (owner.ctx 5).entries = []) ∧
    (∀ v ∈ [0, 15, 16], let a := (BitVec.ofNat 32 v - BitVec.ofNat 32 (owner.ctx 5).produced).toNat
      0 < a ∧ a < 2 ^ 31 ∧ (decide (a ≤ 2 ^ 4) = decide (v ≤ 15))) ∧
    ((BitVec.ofNat 32 (2 ^ 31 - 1) - BitVec.ofNat 32 (owner.ctx 5).produced).toNat = 2 ^ 31) ∧
    (let f := owner.fn 9
     f.msixEn = true ∧ f.fnMask = false ∧ f.unmasked.contains (owner.ctx 5).q.vector = true ∧
       owner.hostUp 1 1 = true ∧ (owner.ctx 5).cqPosted = 0) ∧
    ({ owner with trans := { owner.trans with hostHeld := [(1, .bar2Write 9 0 [] false)] } }).behind 1 = true := by
  decide +kernel

/-- The next entry of a ring can be taken and read as `w`, and `p` holds of the state after it is read. -/
def canTake (s : State) (w kind : Nat) (p : State → Bool) : Bool :=
  let t := (s.acquireTag 0).1
  s.mayTake 0 kind && (s.acquireTag 0).2 && SubEntry.kind w == kind && kind != 0 && decide ((s.ctx 0).verQuire ≠ 2) &&
    match (readNum (t.spineReq 0 (.spine 0)) (State.entryPlace (t.ctx 0) (t.ctx 0).consumed) 64).run t with
    | .ok v u => v == w && p u
    | _ => false

theorem witness_SubmissionEntries :
    let h := 0x51 + 3 * 2 ^ 8 + 2 ^ 50
    let head := fun (w h : Nat) (u : State) => match (readNum (u.spineReq 0 (.spine 0)) (SubEntry.addr w) 64).run u with
      | .ok x v => x == h && (v.headerStatus 0 x == none) && (match (State.readRecords (u.spineReq 0 (.spine 0)) (.mem (SubEntry.addr w)) 2 0).run v with
        | .ok ws v' => (State.opPlaces false 1 ws 1 0 1).isSome && (v'.allocUnits 0 1).isSome && v'.freeHandle.isSome && decide (v'.graphsOf 0 < 64)
        | _ => false)
      | _ => false
    let own := fun (w : Nat) (u : State) => (u.ownGraph 0 w).isSome
    let pinned := fun (w : Nat) (u : State) => own w u && match (State.readRecord (u.spineReq 0 (.spine 0)) (.graph 7 1) 0).run u with
      | .ok x v => v.headerStatus 0 x == none
      | _ => false
    let patches := fun (w : Nat) (u : State) => own w u && match (readVA (u.spineReq 0 (.spine 0)) (SubEntry.addr w) 16).run u with
      | .ok bs v => match (State.readRecords (u.spineReq 0 (.spine 0)) (.graph 7 1) 2 0).run v with
        | .ok ws v' => (State.applyPatches [(1, 1)] (State.words16 1 bs) ws).isSome && (v'.allocUnits 0 1).isSome
        | _ => false
      | _ => false
    canTake (rings [(0x1000000000, 1), (0x1000000032, 64), (0x1000000400, 81), (0x1000000401, 3), (0x1000000406, 4)]) (1 + 1024 * 2 ^ 396) 1 (head (1 + 1024 * 2 ^ 396) h) = true ∧
    canTake (rings [(0x1000000000, 1), (0x1000000001, 1), (0x1000000400, 81), (0x1000000401, 3), (0x1000000406, 4)]) (1 + 2 ^ 8) 1 (fun _ => !SubEntry.ok (1 + 2 ^ 8)) = true ∧
    canTake (rings [(0x1000000000, 2), (0x1000000032, 64), (0x1000000400, 81), (0x1000000401, 3), (0x1000000406, 4)]) (2 + 1024 * 2 ^ 396) 2 (head (2 + 1024 * 2 ^ 396) h) = true ∧
    canTake (rings [(0x1000000000, 3), (0x100000002E, 7), (0x100000002F, 16), (0x1000000032, 64), (0x1000000405, 16), (0x1000000408, 16)]) (3 + 7 * 2 ^ 368 + 2 ^ 380 + 1024 * 2 ^ 396) 3 (patches (3 + 7 * 2 ^ 368 + 2 ^ 380 + 1024 * 2 ^ 396)) = true ∧
    canTake (rings [(0x1000000000, 4), (0x100000002E, 7), (0x1000000400, 81), (0x1000000401, 3), (0x1000000406, 4)]) (4 + 7 * 2 ^ 368) 4 (pinned (4 + 7 * 2 ^ 368)) = true ∧
    canTake (rings [(0x1000000000, 5), (0x100000002E, 7), (0x1000000400, 81), (0x1000000401, 3), (0x1000000406, 4)]) (5 + 7 * 2 ^ 368) 5 (own (5 + 7 * 2 ^ 368)) = true ∧
    (let s := waiting 0 []
     s.running = true ∧ (s.ctx 0).phase = .opened ∧ s.chunkRoom 0 = true ∧
       (let q : Quire := { src := .mem 0, fenceBase := 0, hdr := 0x51 + 2 ^ 50 }
        State.allRead q = false ∧ s.chunkTurn 0 0 q = true) ∧
       (s.quire? workOp).isSome = true ∧ (s.op? workOp).any (fun x => !x.over && x.phase == .waiting) = true) := by
  decide +kernel

theorem witness_SpineOps :
    (∀ p ∈ [(0x00, []), (0x11 + 2 ^ 128, []), (0x09, []), (0x0A, []), (0x0B + 1024 * 2 ^ 396, []), (0x10 + 2 ^ 10 + 2 ^ 180, [7])],
      let s := waiting p.1 p.2
      dispatches s workOp (p.1 % 256) = true ∧ ((s.numberReady.acquireTag 0).1.op? workOp).isSome = true ∧ (s.quire? workOp).isSome = true) ∧
    (opFields 0 = 0 ∧ BarrierOp.ok (0x11 + 2 ^ 128) = true ∧ FenceWaitOp.ok 0x09 = true ∧ FenceSignalOp.ok 0x0A = true ∧
      HostFlagOp.ok (0x0B + 1024 * 2 ^ 396) = true ∧ InlineOp.ok (0x10 + 2 ^ 10 + 2 ^ 180) [7] = true) := by
  decide +kernel

theorem witness_OpsAndSlicesEnd :
    (let y : Slice := { unit := 1, place := some 4 }
     let z : Slice := { unit := 1 }
     let s : State := { waiting 2 [] with ctxs := [(0, working 2 y)] }
     let t : State := { waiting 2 [] with ctxs := [(0, working 2 z)] }
     s.running = true ∧ (s.op? workOp).map (·.phase) = some .dispatched ∧ s.slice? workOp 0 = some y ∧ s.eligible 0 1 4 = true ∧
       (s.cluster 4).queue.length < 16 ∧ (s.cluster 4).mode ≠ .handover ∧ s.outranked workOp 0 4 none = false ∧
       t.slice? workOp 0 = some z ∧ (t.eligibles 0 1).find? (fun d => t.freeFor 1 d && !t.outranked workOp 0 d (some 1)) = some 4) ∧
    (let y : Slice := { unit := 1, place := some 63, lo := 0, hi := 1, phase := .running, work := .tc 1 0 none }
     let s : State := { running 0 with ctxs := [(0, working vecWord y)], cores := [] }
     s.slice? workOp 0 = some y ∧ s.heads workOp 0 63 = true ∧ s.tasksOver workOp 0 y = true ∧ (s.timeoutOf 9).isSome = true) ∧
    (let s : State := waiting (0x09 + 2 ^ 51 + 2 ^ 64) []
     s.conditionsHold workOp = true ∧ s.waitMet workOp = false ∧ (s.timeoutOf (0x09 + 2 ^ 51 + 2 ^ 64)).isSome = true) ∧
    (let c := working 0x09 { unit := 0 }
     let s : State := { mapped {} with ctxs := [(0, { c with echoUs := 100, root := 0x10000, q := { cqBase := 4096 } })] }
     (match s.tryRecord 0 { seq := 0, status := 0 } true with | .written _ => true | _ => false) = true) := by
  decide +kernel

/-- The value of a sess_open: challenge, slot 0, role 1, a version, a nonce of zeros, a response. -/
def openBytes (ver : BitVec 8) (resp : List (BitVec 8)) : List (BitVec 8) :=
  List.replicate 32 7 ++ [0, 1, ver, 0, 0, 0, 0, 0] ++ List.replicate 16 0 ++ resp

/-- The live device with a challenge issued to the management network, a key in slot 0 and a session. -/
def challenged : State :=
  { staff with amiso := { staff.amiso with challenges := [(.mgmt, 0, List.replicate 32 7)], opKeys := [(0, (2, List.replicate 32 9))] } }

theorem witness_Sessions_open :
    let r : Requester := ⟨.mgmt, 0, 0⟩
    let key := AMap.getD challenged.amiso.opKeys 0 (0, [])
    let wanted := kmac256 key.2 (List.replicate 32 7 ++ List.replicate 16 0 ++ leBytes 1 (State.pathNum r.path) ++ leBytes 1 1) 256 "AMISO SESSION"
    let v := openBytes 4 wanted
    (challenged.mgmtUp = true ∧ challenged.board.restartDue = false ∧ ((challenged.present 0xC010 1).any fun d => challenged.mayRead r d 1) = true) ∧
    (challenged.checkWrite r 0xC010 2 (objType 0xC010 2) v true).isOk = true ∧
    leNat ((v.drop 35).take 5) = 0 ∧ leNat ((v.drop 33).take 1) = 1 ∧ leNat ((v.drop 34).take 1) = 4 ∧
    (challenged.amiso.challenges.any fun x => x == (r.path, r.ident, v.take 32)) = true ∧ 1 ≤ key.1 ∧ (v.drop 56).take 32 = wanted ∧
    challenged.amiso.sessions.length < 32 ∧ (v.drop 40).take 16 = List.replicate 16 0 ∧ v.take 32 = List.replicate 32 7 ∧
    List.replicate 32 0 ≠ wanted := by
  decide +kernel

theorem witness_Sessions_close :
    (let w := openBytes 5 []
     leNat ((w.drop 34).take 1) = 5 ∧
     (challenged.checkWrite ⟨.mgmt, 0, 0⟩ 0xC010 2 (objType 0xC010 2) (openBytes 5 (List.replicate 32 0)) true).isOk = true) ∧
    (challenged.checkWrite boss 0xC010 3 (objType 0xC010 3) (leBytes 4 1) true).isOk = true ∧ (challenged.sessionOf boss).isSome = true ∧
    (challenged.amiso.sessions.any fun x => x.n == 1 && x.path == boss.path && x.ident == boss.ident) = true := by
  decide +kernel

/-- The first 200 bytes of a grant of index 0 to the session whose challenge is empty, by an owner key of zeros. -/
def grantHead : List (BitVec 8) :=
  [1, 0, 1, 0] ++ identityHash ++ List.replicate 32 7 ++ [0, 0, 0, 0] ++ List.replicate 64 0 ++ List.replicate 64 0

theorem witness_Sessions_grant :
    let s : State := { staff with
      fuses := { owners := [shake256 (List.replicate 64 0) 32] }
      amiso := { sessions := [{ n := 1, path := .mgmt, ident := 0, role := 2, version := 4, key := [], challenge := List.replicate 32 7 }] } }
    let g := grantHead ++ List.replicate 29792 0
    (s.sessionOf boss).isSome = true ∧ (s.present 0xC012 1).any (fun d => s.mayWrite boss d 1 && d.acc == .wo && d.ty == 8 && d.size == 29992) = true ∧
    g.length = 29992 ∧ leNat (grantHead.take 2) = 1 ∧ leNat ((grantHead.drop 2).take 2) = 1 ∧
    (grantHead.drop 4).take 32 = identityHash ∧ (grantHead.drop 36).take 32 = List.replicate 32 7 ∧ leNat ((grantHead.drop 68).take 4) = 0 ∧
    leNat ((grantHead.drop 76).take 60) = 0 ∧ shake256 ((grantHead.drop 136).take 64) 32 = s.ownerHash ∧ s.fuses.owners ≠ [] := by
  have h := identityHash_length
  refine ⟨by decide +kernel, by decide +kernel, ?_⟩
  have l : grantHead.length = 200 := by
    simp only [grantHead, List.length_append, List.length_replicate, h, List.length_cons, List.length_nil]
  have e : ∀ n, 32 ≤ n → identityHash.drop n = [] := fun n k => List.drop_eq_nil_of_le (h ▸ k)
  refine ⟨by rw [List.length_append, l, List.length_replicate], ?_⟩
  simp [grantHead, h, List.take_append, List.drop_append, leNat, State.ownerHash, e]

/-- The live device whose management network reader has a stage set, a transfer and a session of version 4. -/
def staging : State :=
  { staff with
    amiso := { staff.amiso with
      stages := [(.session 1, [(objKey 0xA020 0, 5)])]
      bulks := [{ party := .session 1, index := 0xC012, sub := 3, total := 32, got := [1] }]
      snapshots := [{ party := .session 1, index := 0x1020, sub := 1, bytes := [1, 2] }] }
    wins := [(15, { req := leBytes 1 4 ++ leBytes 1 1 ++ leBytes 2 0 ++ leBytes 4 7 ++ leBytes 2 0 ++ leBytes 2 8 ++ leBytes 4 0 ++ itemBytes 0x2008 1 1 0 [] })] }

/-- What `Admitted` asks of a message of the session without a key. -/
def admits (s : State) (ver : Nat) (pl : List (BitVec 8)) : Bool :=
  s.mgmtUp && !s.board.restartDue && (s.keptReply (State.partyOf boss) 9).isNone && !s.stillServed boss 9 &&
    decide (pl.length ≤ if ver = 3 then 1024 else 1472) && (s.sessionOf boss).any fun x => x.version == ver && x.key.isEmpty

theorem witness_Messages_items :
    (∀ pl ∈ [itemBytes 0x2008 1 1 0 [], itemBytes 0xA020 0 3 0 (leBytes 4 5), leBytes 4 0, leBytes 4 1], admits staging 4 pl = true) ∧
    ((parseItems false 64 (itemBytes 0x2008 1 1 0 [])).any fun l => l.length == 1) = true ∧
    ((staging.present 0x2008 1).any fun d => d.ty == 1 && d.acc != .wo && staging.mayRead boss d 1) = true ∧
    ((staging.present 0x3000 7).any fun d => d.acc == .rwc && d.wr != 4) = true ∧
    (staging.checkWrite boss 0x3000 7 (objType 0x3000 7) (leBytes 8 0) false).isOk = true ∧ (staging.stageSet (State.partyOf boss)).length < 256 ∧
    ((parseItems true 64 (itemBytes 0x3000 7 (objType 0x3000 7) 0 (leBytes 8 0))).any fun l => (staging.runWrites boss 4 l).2.2.isEmpty) = true ∧
    staging.committing = false := by
  decide +kernel

theorem witness_Messages_commit :
    let with' := fun v => let a : Amiso := { staging.amiso with stages := [(.session 1, [(objKey 0x7100 0, v)])] }; ({ staging with amiso := a } : State)
    let after := fun v => (with' v).setStage (.session 1) []
    let st := fun v => (with' v).stageSet (.session 1)
    admits (with' 0) 4 (leBytes 4 0) = true ∧ (with' 0).committing = false ∧ st 0 ≠ [] ∧ (after 0).refusing (st 0) = some (objKey 0x7100 0) ∧
    (after 64).refusing (st 64) = none ∧ staff.stageSet (.session 1) = [] ∧ admits staff 4 (leBytes 4 0) = true ∧
    (match (after 64).commitSet (st 64) with
      | .ok (_, w) => w.isEmpty
      | .error _ => false) = true := by
  decide +kernel

theorem witness_Messages_bulk :
    let b : Bulk := { party := .session 1, index := 0xC002, sub := 3, total := 33, got := [2] }
    let s : State := { owned with amiso := { owned.amiso with bulks := [b] } }
    let put := fun n off => State.bulkHead 0xC002 3 false n off 33 ++ List.replicate n 1
    admits owned 4 (put 1 0) = true ∧ admits s 4 (put 31 1) = true ∧
    ((s.present 0xC002 3).any fun d => s.mayWrite boss d 3 && d.acc == .wo && d.ty == 8 && decide (33 ≤ d.size) && decide (d.size < 2 ^ 32)) = true ∧
    (s.amiso.bulks.any fun b => b.index == 0xC002 && b.sub == 3 && b.party != State.partyOf boss) = false ∧
    (s.amiso.bulks.find? fun b => b.index == 0xC002 && b.sub == 3 && b.party == State.partyOf boss) = some b ∧
    admits staging 4 (State.bulkHead 0xC012 2 false 31 0 0) = true ∧
    ((staging.present 0xC012 2).any fun d => staging.mayRead boss d 2 && d.acc != .wo && d.ty == 8 &&
      (staging.readObj boss d 2).1 == some (List.replicate 32 0)) = true := by
  decide +kernel

theorem witness_Messages_window :
    let w := AMap.getD staging.wins 15 {}
    let body := itemBytes 0x2008 1 1 0 []
    staging.fnUp 15 = true ∧ staging.behind 1 = false ∧ ({ staging with trans := { staging.trans with hostHeld := [(1, .bar2Write 8 0 [] false)] } } : State).behind 1 = true ∧
    State.hostPortOf boss = none ∧ w.phase ≠ 1 ∧ 24 ≤ w.req.length ∧ body.length = 24 - 16 ∧
    w.req.take 24 = leBytes 1 4 ++ leBytes 1 1 ++ leBytes 2 0 ++ leBytes 4 7 ++ leBytes 2 0 ++ leBytes 2 body.length ++ leBytes 4 0 ++ body ∧
    (let s : State := { staging with wins := [(15, { phase := 1 })] }
     s.fnUp 15 = true ∧ (AMap.getD s.wins 15 {}).phase = 1 ∧ s.running = true) := by
  decide +kernel

/-- The live device with a session that holds the owner's grant, a waiting event, and a posted swarm of port 1 with one stalled access. -/
def noticed : State :=
  let e : Event := ⟨1025, 8, 0, 0xFF, 0x2008, 1, 2, 0, 0⟩
  let q : Req := { who := .spine 0, ctx := 0, cls := 1, part := 0, root := 0, kind := 0, id := 0, cluster := none, targets := 0, mayStall := true, fabric := false }
  { owned with
    attn := { last := 1025, waiting := [e] }
    objs := [(objKey 0x4200 1, 2 ^ 64 + 1)]
    trans := { owned.trans with
      ports := [(1, { posted := [⟨2 ^ 32 - 1, 0, []⟩] })]
      stalls := [{ req := q, va := 4096, access := .read, status := 5, port := 1, seq := some (2 ^ 32 - 1) }] } }

theorem witness_DictionaryActions :
    (State.hostPortOf boss = none ∧ noticed.mgmtUp = true ∧ noticed.board.restartDue = false ∧ (noticed.sessionOf boss).isSome = true) ∧
    (∀ x ∈ [(0xA020, 16, leBytes 4 (2 ^ 32 - 1)), (0x5005, 63, leBytes 1 1), (0xD010, 1, leBytes 8 (coverTop - 64)),
            (0xD010, 1, leBytes 8 bulkBase), (0x4201, 1, leBytes 8 (2 ^ 32 - 1)), (0x4201, 1, leBytes 8 (2 ^ 33 - 1)), (0x4201, 1, leBytes 8 0),
            (0x4200, 1, leBytes 16 (setBits (noticed.obj 0x4200 1) 0 0 0)), (0xC010, 4, leBytes 2 60)],
      (noticed.checkWrite boss x.1 x.2.1 (objType x.1 x.2.1) x.2.2 true).isOk = true) ∧
    noticed.attn.waiting ≠ [] ∧ noticed.obj 0x5003 63 ≠ 3 ∧ ((noticed.swarmPort 1).posted.any fun w => w.seq == 2 ^ 32 - 1) = true ∧
    flag (noticed.obj 0x4200 1) 0 = true ∧ noticed.obj 0x4200 1 < 2 ^ 128 ∧ noticed.withdrawn (coverTop - 64) = false ∧ noticed.withdrawn bulkBase = false ∧
    ((Catalog.find 0xC010 4).any fun d => d.acc == .rw && d.wr != 4) = true := by
  decide +kernel

theorem witness_DictionaryActions_bar0 :
    (owner.fnUp 9 = true ∧ owner.behind 1 = false ∧ owner.portsUp = true ∧ owner.ownsPage 9 5 = true) ∧
    (let s : State := { owner with wins := [(9, { req := List.replicate 2048 0 })] }
     s.fnUp 9 = true ∧ s.behind 1 = false ∧ (AMap.getD s.wins 9 {}).phase ≠ 1 ∧ (AMap.getD s.wins 9 {}).req.length = 2048) := by
  decide +kernel

/-- A creation request for partition 0 and class 1, versions 3, 3 and 2, from function 0. -/
def createWord : Nat := 4 * 2 ^ 224 + 6 * 2 ^ 229 + 2 ^ 376 + 3 * 2 ^ 384 + 3 * 2 ^ 388 + 2 * 2 ^ 392

/-- The live device that accepts contexts, with partition 0 of function 0 and a shared open context of function 8. -/
def hosting : State :=
  { staff with
    objs := [(objKey 0x2001 0, 2), (objKey 0x2002 4, 2), (objKey 0x2004 0, 2), (objKey 0x3000 0, 2 ^ 63), (objKey 0x9062 2, 1)]
    ctxs := [(1023, { phase := .opened, shared := true, orphaned := true }), (5, { phase := .opened, shared := true, port := 1 }), (6, { phase := .tearing })] }

theorem witness_Contexts :
    let r : Requester := ⟨.hostA, 0, 0⟩
    let attach := 4 * 2 ^ 224 + 6 * 2 ^ 229 + 1023 * 2 ^ 256
    (hosting.mgmtUp = true ∧ hosting.board.restartDue = false ∧ (hosting.sessionOf boss).isSome = true ∧ hosting.accepting = true) ∧
    ((hosting.checkWrite r 0x3020 1 (objType 0x3020 1) (leBytes 64 createWord) true).isOk = true ∧ createWord < 2 ^ 512 ∧
      hosting.createStatus r createWord = 0 ∧ hosting.freeCtx = some 0 ∧ hosting.createStatus r 0 ≠ 0 ∧
      (hosting.checkWrite r 0x3020 1 (objType 0x3020 1) (leBytes 64 0) true).isOk = true) ∧
    ((hosting.checkWrite boss 0x3020 2 (objType 0x3020 2) (leBytes 2 1023) true).isOk = true ∧ (hosting.ctx 1023).phase = .opened ∧
      hosting.operatorOf boss 0x3020 = true) ∧
    ((hosting.ctx 6).phase = .tearing ∧ hosting.ctxUnacked 6 = false ∧ (hosting.ctx 6).tearing = [] ∧ hosting.amiso.commits = []) ∧
    ((hosting.checkWrite boss 0x9063 1 (objType 0x9063 1) (leBytes 2 5) true).isOk = true ∧ (hosting.ctx 5).phase = .opened ∧
      (hosting.ctx 5).shared = true ∧ (hosting.ctx 5).orphaned = false) ∧
    ((hosting.checkWrite r 0x9060 1 (objType 0x9060 1) (leBytes 64 attach) true).isOk = true ∧ attach < 2 ^ 512 ∧ hostFnOf r = some 0 ∧
      hosting.attachStatus 0 attach = 0 ∧ State.attachCtx attach = 1023 ∧ (hosting.ctx 1023).entries = []) ∧
    (let s : State := { hosting with hostPorts := [(0, { link := 2 })] }
     s.running = true ∧ (s.hostPort 1).link ≠ 2 ∧ (s.ctx 5).port = 1 ∧ (s.ctx 5).fn < 8) ∧
    ((hosting.ctx 1023).orphaned = true ∧ hosting.obj 0x9062 2 ≠ 0) := by
  decide +kernel

/-- The request of a tidy core of context 0 in the space of `mapped`. -/
def coreReq : Req :=
  { who := .core 0, ctx := 0, cls := 1, part := 0, root := 0x10000, kind := 0, id := 0, cluster := none, targets := 31, mayStall := true, fabric := false }

/-- The device of `mapped` with a walk queued, and a swarm that waits on port 0 behind an open one. -/
def faulting (va : Nat) : State :=
  let s := mapped {}
  let e : SwarmEntry := { cls := 0, level := 0, access := .read, cause := 0, reqKind := 0, reqId := 0, ctx := 0, tag := 0, va := 0 }
  { s with
    objs := [(objKey 0x2003 0, 2), (objKey 0x2004 0, 2), (objKey 0x3000 0, 2 ^ 63), (objKey 0x3040 0, 2 ^ 63 + 2 ^ 19 + 1), (objKey 0x4012 0, 0),
             (objKey 0x4062 0, 0), (objKey 0x4200 0, 1)]
    fns := [(0, { bme := true })]
    trans := { s.trans with
      walks := [⟨coreReq, va, .read⟩]
      tags := { root := some 0x10000 } :: List.replicate 30 {} ++ [{ evicting := true, nextRoot := 0x20000 }]
      ports := [(0, { closed := [⟨7, 0, [e]⟩] }), (1, { opened := [e] })] } }

theorem witness_WalksAndInvalidations :
    (let s := faulting 4096
     let t := faulting 0x7000000000
     let u : State := { s with trans := { s.trans with walks := [] } }
     let v : State := { t with trans := { t.trans with walks := [] } }
     s.running = true ∧ s.trans.walks = [⟨coreReq, 4096, .read⟩] ∧ coreReq.cls ≠ 0 ∧
     (match (translate coreReq 4096 .read).run u with | .ok _ _ => true | _ => false) = true ∧
     (match (translate coreReq 0x7000000000 .read).run v with | .error (.stall ..) _ => true | _ => false) = true ∧
     (match (translate { coreReq with mayStall := false } 0x7000000000 .read).run v with | .error (.fail ..) _ => true | _ => false) = true ∧
     (s.tag 31).evicting = true ∧ 31 < s.trans.tags.length ∧ (∀ nn, nn < 8 → flag (s.obj 0x3104 nn) 0 = false) ∧
     s.canPost 0 = true ∧ (s.swarmPort 0).closed = [⟨7, 0, (s.swarmPort 1).opened⟩] ∧ (s.tagOf coreReq.root).isSome = true ∧ (∀ w ∈ s.trans.walks, (s.tag 31).root ≠ some w.req.root) ∧ (s.swarmPort 0).opened.length ≠ 32) ∧
    (let s : State := { faulting 0 with objs := [(objKey 0x4200 1, 1)] }
     s.ringEnabled 1 = true ∧ (s.swarmPort 1).opened ≠ [] ∧ (s.swarmPort 1).closed = [] ∧ s.canPost 1 = false ∧
     (let t : State := { s with fns := [(8, { bme := true })] }
      t.canPost 1 = true)) ∧
    (∀ sc ∈ [0, 1, 2], let w := 0x0D + 2 ^ 352 + sc * 2 ^ 384
     let s : State := { waiting w [] with ctxs := (waiting w []).ctxs.map fun e => (e.1, { e.2 with placeRight := true }) }
     dispatches s workOp 0x0D = true ∧ InvOp.ok w = true ∧ InvOp.scope w = sc ∧ ((s.numberReady.acquireTag 0).1.ctx 0).placeRight = true ∧
     ((s.numberReady.acquireTag 0).1.op? workOp).isSome = true) ∧
    (let c := working 0x0D { unit := 0 }
     let s : State := { live with ctxs := [(0, c)] }
     s.running = true ∧ (s.op? workOp).map (·.phase) = some .dispatched ∧ s.drainPending [0] 0 1 true = false) := by
  decide +kernel

/-- The live device with slot 63 of function 8, context 5 of it in a space whose first GiB maps bulk memory. -/
def posting (c : Ctx) : State :=
  let s := mapped {}
  { s with
    objs := [(objKey 0x2003 0, 2), (objKey 0x2004 0, 2), (objKey 0x3000 0, 2 ^ 63 + 2 ^ 62), (objKey 0x3070 0, 4096 * 4096 - 4096 + 0),
             (objKey 0x4012 0, 0), (objKey 0x4062 0, 0), (objKey 0x9050 63, 1)]
    ctxs := [(5, { c with phase := .opened, verQuire := 3, verCpl := 3, verMbox := 2, root := 0x10000, cls := 1 })]
    fns := [(8, { bme := true })] }

theorem witness_Mailboxes :
    let s := posting {}
    let g : GoWord := { tag := 1, context := 5, reserved := 0, len := 240 }
    let pl := leBytes 8 4096 ++ [1, 0, 1] ++ List.replicate 229 0
    let bad := leBytes 8 0x7000000000 ++ [1, 0] ++ List.replicate 230 0
    let y : State := s.setMboxSlot 63 { waiting := some { ctx := 5, kind := 1, tag := 1, payload := pl } }
    let z := (y.acquireTag 5).1
    (s.portsUp = true ∧ s.behind 1 = false ∧ flag (s.obj 0x9050 63) 0 = true ∧ s.mboxFn 63 = 8 ∧ (s.mboxSlot 63).waiting = none ∧ s.hostUp 1 0 = true ∧ s.mboxV1 5 = false) ∧
    (∀ k ∈ [0, 1, 2, 3, 4, 5], s.mboxStatus 63 k g = none) ∧ (y.acquireTag 5).2 = true ∧
    (({ y with trans := { tags := List.replicate 32 { root := some 1, evicting := true } } } : State).acquireTag 5).2 = false ∧
    (match (readVA (z.mboxReq 63 5) (leNat (pl.take 8)) 1).run ({ z with objs := [] } : State) with | .error .hold _ => true | _ => false) = true ∧
    ({ s with trans := { s.trans with hostHeld := [(1, .bar2Write 8 0 [] false)] } } : State).behind 1 = true ∧
    (match (readVA (z.mboxReq 63 5) (leNat (pl.take 8)) 1).run z with | .ok _ _ => true | _ => false) = true ∧
    (match (readVA (z.mboxReq 63 5) (leNat (bad.take 8)) 1).run z with | .error (.fail ..) _ => true | _ => false) = true ∧
    (match (writeVA (z.mboxReq 63 5) (leNat (pl.take 8)) (pl.drop 8)).run z with
      | .ok _ u => !u.unackedOf (State.mboxOwner 63 5)
      | _ => false) = true ∧
    s.fenceInRange 0 (leNat ((pl.drop 8).take 2)) = true ∧ s.mboxStatus 63 0 { g with reserved := 1 } = some Status.descriptorInvalid ∧
    flag (s.obj 0x9050 62) 0 = false ∧ (let c : Ctx := { (s.ctx 5) with verMbox := 1 }
      (s.setCtx 5 c).mboxV1 5 = true) ∧
    (let w : MboxWait := { ctx := 5, kind := 1, tag := 0, payload := [] }
     ((s.setMboxSlot 63 { waiting := some w }).mboxSlot 63).waiting ≠ none) := by
  decide +kernel

/-- The live device with contexts of both ports, and BAR2 of function 8 on bulk memory. -/
def ported : State :=
  { live with
    objs := [(objKey 0x2004 0, 2), (objKey 0x2004 5, 2), (objKey 0x4062 0, 0), (objKey 0x4062 23, 0),
             (objKey 0x9010 8, 3 + bulkBase / 65536 * 2 ^ 28 + 16 * 2 ^ 64)]
    ctxs := [(0, { phase := .opened }), (1, { phase := .opened, port := 1 }), (2, { phase := .opened, port := 1, shared := true }),
             (3, { phase := .opened, port := 1, fn := 7 })] }

theorem witness_HostPorts :
    (ported.running = true ∧ ported.ctxs.sorted = true ∧ (ported.hostPort 1).link = 2 ∧ 7 ≤ (ported.hostPort 1).numVFs) ∧
    ((ported.ctx 1).phase = .opened ∧ (ported.ctx 1).port = 1 ∧ (ported.ctx 1).shared = false ∧ (ported.ctx 2).shared = true ∧
      (ported.ctx 3).fn = 7 ∧ (ported.ctx 0).port ≠ 1 ∧ (ported.ctx 4).phase ≠ .opened) ∧
    (ported.fnUp 15 = true ∧ ported.fnUp 8 = true ∧ (ported.hostPort 1).numVFs ≤ 7) ∧
    (let n := 16 * 65536
     n ≤ ported.bar2Size 8 ∧ ported.bar2Addr 8 (n - 1) = bulkBase + n - 1 ∧ ported.bar2Refused 8 (n - 1) 1 true = false ∧
     ported.bar2Refused 8 (n - 1) 1 false = false ∧ ported.bar2Refused 8 n 1 true = true ∧ ported.bar2Refused 8 n 1 false = true ∧ n + 1 ≤ ported.bar2Size 8 ∧
     ported.behind 1 = false ∧ ({ ported with trans := { ported.trans with hostHeld := [(1, .bar2Write 8 0 [] false)] } } : State).behind 1 = true ∧
     (let s : State := { ported with objs := ported.objs.filter fun e => e.1 != objKey 0x2004 0 }
      s.bar2Refused 8 0 1 true = false ∧ s.bar2Refused 8 0 1 false = false ∧ s.redirOf bulkBase = none ∧ s.tierStarting bulkBase = true) ∧
     ported.redirOf (bulkBase + n - 1) = none ∧ ported.tierStarting (bulkBase + n - 1) = false ∧ ported.withdrawn (bulkBase + n - 1) = false) ∧
    live.nextBlock workOp = none := by
  decide +kernel

/-- The record of a MIGRATE of one folio. -/
def migrateWord (kind : Nat) : Nat := 0x0C + kind * 2 ^ 299 + 2 ^ 302 + 1024 * 2 ^ 358

/-- The device of `waiting` with the placement right and a space whose first GiB maps bulk memory. -/
def placing (kind : Nat) : State :=
  let s := waiting (migrateWord kind) []
  let page : TEnt := { tag := 0, page := 0, pages := 2 ^ 18, leaf := 15 + bulkBase, pinned := false }
  { s with
    objs := s.objs ++ [(objKey 0x4012 0, 0), (objKey 0x4062 0, 0)]
    trans := { s.trans with centralBuf := [page] }
    ctxs := s.ctxs.map fun e => (e.1, { e.2 with placeRight := true }) }

/-- The same device with the op dispatched and one of its folios in a phase. -/
def placed (kind : Nat) (w : MigrateWork) (fs : List Folio) : State :=
  let s := mapped {}
  let c := working (migrateWord kind) { unit := 0 }
  let q : Quire := { src := .mem 0, fenceBase := 0, hdr := 0x51 + 2 ^ 50, nextRec := 2,
                     ops := [{ word := migrateWord kind, phase := .dispatched, body := .migrate w }] }
  { s with
    objs := [(objKey 0x2003 0, 2), (objKey 0x2004 0, 2), (objKey 0x3000 0, 2 ^ 63), (objKey 0x4012 0, 0), (objKey 0x4062 0, 0), (objKey 0x4130 7, 4)]
    tiers := { s.tiers with redirs := fs.map fun f => ⟨workOp, f⟩ }
    ctxs := [(0, { c with root := 0x10000, placeRight := true, entries := [{ n := 0, kind := 1, seq := 1, quire := some q }] })] }

/-- A folio of `placed`. -/
def someFolio (ph : FolioPhase) (tries : Nat) : Folio :=
  { i := 0, va := 0, level := 0, pteAddr := 0x20000, pte := 1, src := bulkBase, dst := bulkBase + 65536, size := 65536, phase := ph, tries := tries }

theorem witness_Migrations_dispatch :
    ∀ k ∈ [0, 1, 2, 3], let s := placing k
      let t := (s.numberReady.acquireTag 0).1
      dispatches s workOp 0x0C = true ∧ ((t.op? workOp).map (·.word)) = some (migrateWord k) ∧ MigrateOp.ok (migrateWord k) = true ∧ (t.ctx 0).placeRight = true ∧
      MigrateOp.kind (migrateWord k) = k ∧ MigrateOp.va (migrateWord k) + MigrateOp.folios (migrateWord k) * 65536 ≤ 2 ^ 52 := by
  decide +kernel

theorem witness_Migrations_folios :
    (let s := placed 0 {} []
     (s.migrate? workOp).isSome = true ∧ State.nextFolio (migrateWord 0) {} = some (0, 0) ∧
     (match s.planFolio (s.ctx 0).root (migrateWord 0) {} 0 0 with | .skip 2 1 => true | _ => false) = true ∧
     (match (writeOutcome (s.spineReq 0 (.op workOp 1000)) (migrateWord 0) 0 1 2).run s with | .ok _ _ => true | _ => false) = true) ∧
    (∀ ph ∈ [FolioPhase.copying, .filling], let s := placed 0 { next := 1 } [someFolio ph 0]
     (s.migrate? workOp).isSome = true ∧ ((s.redirsOf workOp).find? State.held) = some (someFolio ph 0) ∧ s.changeHeld (someFolio ph 0) = false) ∧
    (let s := placed 0 { next := 1 } [someFolio .copying 2]
     (match (writeOutcome (s.spineReq 0 (.op workOp 1000)) (migrateWord 0) 0 1 6).run s with | .ok _ _ => true | _ => false) = true) ∧
    (∀ k ∈ [0, 3], let s := placed k { next := 1 } [someFolio .forwarding 0]
     s.drainDue workOp (migrateWord k) { next := 1 } = true ∧ (s.noteDrain workOp).drainTurn workOp = true ∧
     (match (writeOutcomes (s.spineReq 0 (.op workOp 1000)) (migrateWord k) [someFolio .forwarding 0]).run s with | .ok _ _ => true | _ => false) = true) := by
  decide +kernel

/-- The bytes of a level-3 to level-1 path at 0x10000 and of sixteen leaves of `pte` at 0x40000 that map the bulk frame of `placed`. -/
def leafCells (pte : Nat) : List Host.Cell :=
  let word := fun (a v : Nat) => (leBytes 8 v).mapIdx fun i b => (a + i, b)
  ((word 0x10000 0x20001) ++ (word 0x20000 0x30001) ++ (word 0x30000 0x40001) ++
    (List.range 16).flatMap fun k => word (0x40000 + 8 * k) (pte + 4096 * k)).filter fun c => c.2 != 0

theorem witness_Migrations_start :
    (∀ k ∈ [0, 1], let s := { placed k { frames := [bulkBase * (1 - k) + 0x100000] } [] with mem := leafCells (bulkBase + 13) }
     (match s.planFolio 0x10000 (migrateWord k) { frames := [bulkBase * (1 - k) + 0x100000] } 0 0 with
       | .start f => !s.changeHeld f && State.held f
       | _ => false) = true ∧ s.tiers.redirs.length < 256 ∧ ((s.redirsOf workOp).filter State.held).length < s.obj 0x4130 7) ∧
    (∀ k ∈ [2, 3], let s := placed k {} []
     let u : State := { s with mem := leafCells (0x100000 + 128 + 9), tiers := { s.tiers with homes := [(16, bulkBase / 65536)] } }
     (match u.planFolio 0x10000 (migrateWord k) {} 0 0 with
       | .start f => !u.changeHeld f && !State.held f
       | _ => false) = true) := by
  decide +kernel

theorem witness_EpochsAndScrub :
    let s : State := { live with
      objs := [(objKey 0xB040 63, 95)]
      tiers := { remaps := [(319, [⟨5, true⟩])] } }
    s.running = true ∧ (∀ nn, nn < 64 → State.grantMode (s.obj 0x4100 nn) ≠ 2) ∧ s.channelOut 319 = false ∧ s.channelOut 127 = false ∧
    AMap.getD s.tiers.remaps 319 [] ≠ [] ∧ s.obj 0x4054 1 ≤ 3 ∧ 2 < s.obj 0x4054 1 ∧ State.channelOf (coverTop - 1) = some 127 ∧
    State.channelOf (0x5800000000 - 1) = some 319 ∧ 127 ∉ s.tiers.capped ∧ 95 ≤ toSigned 32 (s.obj 0xB040 (127 % 64)) ∧ 5 ∉ s.tiers.stackCapped := by
  decide +kernel

/-- The live device with a sparing under way for cluster 63. -/
def sparingAt (step : Nat) (last : Bool) : State :=
  { live with
    sparing := { triggers := [7], active := if step = 0 then none else some (63, 65, step), chanTriggers := [(127, none), (5, some 66)]
                 badClusters := if last then [64, 65] else [] }
    tiers := { chanSparing := [(126, (67, false))] } }

theorem witness_Sparing :
    ((sparingAt 0 false).mgmtUp = true ∧ (sparingAt 0 false).sparing.active = none ∧ (sparingAt 0 false).sparing.triggers.contains 7 = true ∧
      (sparingAt 0 false).sparePhys.head? = some 64 ∧ (sparingAt 0 true).sparePhys = []) ∧
    ((sparingAt 1 false).mgmtUp = true ∧ (sparingAt 1 false).sparing.active = some (63, 65, 1) ∧ ((sparingAt 1 false).cluster 63).mode = .serving ∧ (sparingAt 1 false).replaying 63 = false ∧
      (sparingAt 3 false).running = true ∧ (sparingAt 3 false).sparing.active = some (63, 65, 3)) ∧
    ((sparingAt 0 false).sparing.chanTriggers.find? (fun x => x.1 == 127) = some (127, none) ∧ (sparingAt 0 false).pickChan 1 = some 66 ∧
      (sparingAt 0 false).sparing.chanTriggers.find? (fun x => x.1 == 5) = some (5, some 66) ∧ ((sparingAt 0 false).freeChans 0).contains 66 = true ∧
      AMap.get? (sparingAt 0 false).tiers.chanSparing 126 = some (67, false) ∧ (sparingAt 0 false).obj 0x4062 23 = 0) ∧
    (let x := sparingAt 0 false
     let s : State := { x with sparing := { x.sparing with badChannels := [132, 133, 134, 135], badClusters := [64, 65] } }
     s.pickChan 1 = none) := by
  decide +kernel

theorem witness_PowerAndHeat :
    let s : State := { live with
      objs := [(objKey 0x3000 0, 2 ^ 63), (objKey 0x3001 0, 0)]
      power := { live.power with mv := 700 } }
    s.running = true ∧ s.mgmtUp = true ∧ s.power.asked ≠ s.power.mv ∧ s.obj 0xB000 1 < 2000 ∧
      s.obj 0xB000 3 < s.obj 0xB000 1 ∧ [1, 2, 3, 4, 5].find? s.hasRoom = some 1 := by
  decide +kernel

theorem witness_CxlLinks :
    let s : State := { live with cxl := [(0, { state := 1 }), (3, { state := 2, width := 16, speed := 5, capacity := 64, decoders := 4 })] }
    s.running = true ∧ s.mgmtUp = true ∧ (s.cxlLink 0).state = 1 ∧ (s.cxlLink 3).state = 2 := by
  decide +kernel

/-- A frame of a type and a sequence from device 9 to device 8, in class 1. -/
def wire (type seq : Nat) (pl : List (BitVec 8)) : Frame :=
  { blankFrame type with cls := 1, dst := 8, src := 9, dstCheck := leNat (identityHash.take 2), seq := seq, payload := pl, hops := 1 }

/-- The device of `mapped` as device 8, whose first sub-window lets peers into the space of context 0, with a stream from device 9. -/
def linked : State :=
  let s := mapped {}
  let read : RemoteRead := { tag := 0, who := .spine 0, peer := 9, cls := 1, va := 0, len := 8 }
  let g : InGather := { peer := 9, cls := 1, tag := 1, word := 0 }
  { s with
    objs := [(objKey 0x2003 0, 2), (objKey 0x2004 0, 2), (objKey 0x3000 0, 2 ^ 63), (objKey 0x3070 0, 4096 * 4096),
             (objKey 0x4012 0, 0), (objKey 0x4062 0, 0), (objKey 0x8040 0, 1 + 2 ^ 46)]
    fabric := { addr := 8, held := true, ports := [(5, { up := true, speed := 1 })]
                recv := [(streamKey 9 1, { expect := 2 ^ 32 - 1, opened := 0 })], reads := [read], serving := [g] } }

theorem witness_FabricFrames_order :
    ∀ type ∈ [0, 1, 2, 3, 4, 5, 6, 7], ∀ pl : List (BitVec 8), pl.length ≤ 4096 →
      Arrives linked 5 (wire type (2 ^ 32 - 1) pl) type ∧
      ((linked.addObj 0x8052 5 1).acked 9 1 0).recvStream? (streamKey 9 1) = some { expect := 2 ^ 32 - 1, opened := 0 } := by
  intro type h pl hp
  refine ⟨⟨by decide +kernel, by decide +kernel, ?_, rfl, rfl, rfl⟩, by decide +kernel⟩
  simp [State.frameOk, wire, blankFrame, hp]

theorem witness_FabricFrames_final :
    let f : Frame := { wire 2 (2 ^ 32 - 1) [] with status := 0x10 }
    Arrives linked 5 f 2 ∧ f.last = true ∧ f.status ≠ 0 :=
  ⟨⟨by decide +kernel, by decide +kernel, by decide +kernel, rfl, rfl, rfl⟩, rfl, by decide⟩

theorem witness_FabricFrames_effects :
    let t := linked
    let v := 1 + 2 ^ 46
    let q : Req := State.inboundReq v (blankFrame 0)
    t.subWindow 0 = some v ∧ t.subWindow (2 ^ 29) = none ∧ State.crossesPage 4095 1 = false ∧ (t.needTag (bits v 81 46 * 65536) false).2 = true ∧
    (match (writeMarked q (State.windowVA v 4095) [7] [false] true).run (t.needTag 0x10000 false).1 with | .ok _ _ => true | _ => false) = true ∧
    (match (readMarked q (State.windowVA v 0) 4096).run (t.needTag 0x10000 false).1 with | .ok _ _ => true | _ => false) = true ∧
    (t.fabric.reads.find? fun x => x.peer == 9 && x.tag == 0 && !x.finished).isSome = true ∧
    (t.fabric.reads.find? fun x => x.peer == 9 && x.tag == 1 && !x.finished) = none ∧
    t.fenceInRange 0 4095 = true ∧ t.fenceInRange 0 4096 = false ∧
    ((t.fabric.serving.find? fun g => g.peer == 9 && g.cls == 1 && g.tag == 0) = none) ∧
    ((t.fabric.serving.find? fun g => g.peer == 9 && g.cls == 1 && g.tag == 1).any fun g => !g.refused) = true ∧
    (let w := leNat (leBytes 48 (2 ^ 221 + 16 * 2 ^ 312)) * 2 ^ 128
     RemoteGatherOp.ok w = true ∧ (t.subWindow (RemoteGatherOp.tablesOff w)).isSome = true) ∧
    (let c := working 0x0E { unit := 0 }
     let q : Quire := { src := .mem 0, fenceBase := 0, hdr := 0x51 + 2 ^ 50, nextRec := 2
                        ops := [{ word := 0x0E, phase := .dispatched, body := .remote { peer := 9, tag := 3 } }] }
     let u : State := { t with ctxs := [(0, { c with entries := [{ n := 0, kind := 1, seq := 1, quire := some q }] })] }
     u.gatherOf 9 3 = some workOp ∧ (u.op? workOp).isSome = true) := by
  decide +kernel

/-- Device 8 with a frame held at port 5. -/
def holding : State := linked.setSharelPort 5 { linked.sharelPort 5 with ingress := [{ f := wire 0 (2 ^ 32 - 1) [1] }] }

theorem witness_IngressBuffer :
    holding.running = true ∧ (holding.sharelPort 5).up = true ∧ State.frameOk (wire 0 (2 ^ 32 - 1) [1]) 0 = true ∧
      holding.standsBehind 5 (wire 0 (2 ^ 32 - 1) [1]) = true ∧ (holding.addObj 0x8052 5 1).ingressRoom 5 (wire 0 (2 ^ 32 - 1) [1]) = true ∧
      flag (holding.obj 0x8011 2) 5 = true := by
  decide +kernel

theorem witness_IngressBuffer_full :
    let full : State := linked.setSharelPort 5 { linked.sharelPort 5 with ingress := List.replicate 512 { f := wire 0 0 (List.replicate 4096 0) } }
    full.standsBehind 5 (wire 0 (2 ^ 32 - 1) [1]) = true ∧ (full.addObj 0x8052 5 1).ingressRoom 5 (wire 0 (2 ^ 32 - 1) [1]) = false := by
  decide +kernel

theorem witness_IngressBuffer_step :
    holding.pending = [] ∧ holding.path = [] ∧ holding.trans.hostHeld = [] ∧ (∀ x ∈ holding.mbox, x.2.waiting = none) ∧
      holding.fabric.send = [] ∧ (∀ p, p < 5 → (holding.sharelPort p).ingress = []) := by
  decide +kernel

theorem witness_IngressBuffer_port :
    (holding.sharelPort 5).ingress = [{ f := wire 0 (2 ^ 32 - 1) [1] }] ∧ ∀ p, (holding.sharelPort p).waiting = [] := by
  refine ⟨rfl, fun p => ?_⟩
  by_cases h : p = 5
  · subst h; rfl
  · show ((linked.setSharelPort 5 _).sharelPort p).waiting = []
    rw [State.sharelPort_setSharelPort_ne _ h]
    simp only [State.sharelPort, linked, AMap.getD, AMap.get?, if_neg h, Option.getD_none]

theorem witness_IngressBuffer_tag :
    let s : State := { linked with trans := { linked.trans with tags := List.replicate 32 { root := some 0, evicting := true, nextRoot := 0x10000 } } }
    Arrives s 5 (wire 0 (2 ^ 32 - 1) [1]) 0 ∧ s.standsBehind 5 (wire 0 (2 ^ 32 - 1) [1]) = false ∧
      ((s.addObj 0x8052 5 1).acked 9 1 0).recvStream? (streamKey 9 1) = some { expect := 2 ^ 32 - 1, opened := 0 } ∧
      s.subWindow 0 = some (1 + 2 ^ 46) ∧ (s.needTag 0x10000 false).2 = false ∧ s.ingressRoom 5 (wire 0 (2 ^ 32 - 1) [1]) = true := by
  refine ⟨⟨by decide +kernel, by decide +kernel, by decide +kernel, rfl, rfl, rfl⟩, ?_⟩
  decide +kernel

/-- The device of `linked` with a neighbour on port 5, a route to it, and a stream each way. -/
def peered : State :=
  let f := wire 0 0 []
  { linked with
    objs := [(objKey 0x8011 1, 0), (objKey 0x8011 2, 1)]
    fabric := { linked.fabric with
      ports := [(5, { up := true, speed := 1, adjs := [⟨9, 2, 0, []⟩], heard := [9] })]
      lsas := [(9, { addr := 9, hash := [], versions := 6, seq := 2 ^ 32 - 1, adj := [(8, 20, 2)] })]
      routes := [(9, [(5, 9)])]
      recv := [(streamKey 9 1, { expect := 3, opened := 0, sinceAck := 2 }), (streamKey 9 2, { expect := 3, opened := 0 })]
      send := [(streamKey 9 1, { unacked := [(f, none)], sent := 1, high := 1 }), (streamKey 9 3, {})] } }

theorem leNat_lt (b : List (BitVec 8)) : leNat b < 256 ^ b.length := by
  induction b with
  | nil => decide
  | cons x l ih =>
    have := x.isLt
    simp only [leNat, List.length_cons, Nat.pow_succ]
    omega

theorem witness_FabricControl :
    (peered.running = true ∧ peered.mgmtUp = true ∧ (peered.sharelPort 5).up = true ∧ peered.fabric.addr ≠ 0 ∧ peered.claimsOver = false ∧
      peered.fabric.claims + 1 < 255) ∧
    (let s : State := { peered with fabric := { peered.fabric with held := false } }
     s.mgmtUp = true ∧ s.fabric.held = false ∧ s.fabric.addr ≠ 0 ∧ s.claimsOver = false) ∧
    (seqAfter 0 (2 ^ 32 - 1) = true ∧ AMap.get? peered.fabric.lsas 10 = none) ∧
    ((peered.sendStream (streamKey 9 1)).sent ≠ 0 ∧ AMap.get? peered.fabric.send (streamKey 9 3) = some {} ∧
      AMap.get? peered.fabric.send (streamKey 9 2) = none ∧ (peered.recvStream? (streamKey 9 2)).any (·.sinceAck == 0) = true) ∧
    flag (peered.obj 0x8011 2) 0 = true ∧ peered.hopOpen (5, 9) 1 = true ∧ (peered.recvStream? (streamKey 9 1)).any (·.sinceAck != 0) = true := by
  decide +kernel

theorem witness_FabricControl_hops : peered.hopOf 8 9 1 = some (5, 9) ∧ peered.hopOf 9 9 1 = some (5, 9) := by
  simp [State.hopOf, peered, AMap.getD, AMap.get?, Nat.mod_one]

theorem witness_FabricControl_full :
    let s : State := { peered with fabric := { peered.fabric with send := (List.range 4096).map fun k => (k, { opened := true }) } }
    peered.sendRoom = true ∧ s.sendRoom = false ∧ s.running = true ∧ AMap.get? s.fabric.send (streamKey 9 1) = some { opened := true } := by
  decide +kernel

theorem witness_FabricControl_claims :
    leNat identityHash < leNat (List.replicate 32 0 ++ [1]) ∧ List.replicate 32 0 ++ [1] ≠ identityHash ∧
      leNat [] ≤ leNat identityHash ∧ [] ≠ identityHash := by
  have h := identityHash_length
  have l := leNat_lt identityHash
  rw [h] at l
  refine ⟨Nat.lt_of_lt_of_le l (by decide +kernel), fun e => ?_, by simp [leNat], fun e => ?_⟩
  · rw [← e] at h
    simp at h
  · rw [← e] at h
    simp at h

/-- The device of `mapped` with a STREAM whose next block is `b`, on central engine 1. -/
def streaming (b : Nat) (w : StreamWork) : State :=
  let y : Slice := { unit := 4, place := some 0, phase := .queued }
  let x : Op := { word := 7 + 2 ^ 337 + 2 ^ 439 + 2 * 2 ^ 451 + 2 ^ 468, phase := .dispatched, body := .stream { w with list := [b, b] }, slices := [y] }
  let q : Quire := { src := .mem 0, fenceBase := 0, hdr := 0x51 + 2 ^ 50, nextRec := 2, ops := [x] }
  let s := mapped { entries := [{ n := 0, kind := 1, seq := 1, quire := some q }] }
  { s with weevils := { queues := [(32, [⟨workOp, 0⟩])] } }

theorem witness_Streams_blocks :
    (∀ k ∈ [0, 2, 3, 4], ((streaming (k * 2 ^ 252) {}).nextBlock workOp).isSome = true) ∧
    ((streaming (2 ^ 252 + 4096 * 2 ^ 192) {}).nextBlock workOp).isSome = true ∧
    (let s := streaming (2 ^ 252 + 4096 * 2 ^ 192) {}
     let x : Op := (s.op? workOp).getD { word := 0 }
     s.fencePoisoned (StreamOp.freeFence x.word) = false ∧ ringOk s x.word = true ∧
      0 + 1 - StreamOp.ringCount x.word ≤ s.fence (StreamOp.freeFence x.word) ∧
      s.fence (StreamOp.freeFence x.word) < 2 + 1 - StreamOp.ringCount x.word) ∧
    (let b := 4096 * 2 ^ 128
     let c := 128 * 2 ^ 192 + (2 ^ 52 - 64) * 2 ^ 64
     let s := streaming b {}
     let y : Slice := { unit := 4, place := some 0, phase := .queued }
     let v := s.beginStream workOp y
     copyOverlaps b = false ∧ copyOverlaps c = false ∧ copyOverlaps (64 * 2 ^ 192) = true ∧
     (match (copyRows (v.streamEngine workOp y).1 b 4096 0 false []).run v with | .ok _ _ => true | _ => false) = true ∧
     (match (copyRows (v.streamEngine workOp y).1 c 0 0 true []).run v with | .error (.fail _ _) _ => true | _ => false) = true) := by
  decide +kernel

theorem witness_Streams_dispatch :
    let w := 7 + 2 ^ 340
    let s := waiting w []
    StreamOp.ok w = true ∧ StreamOp.ringCount w = 0 ∧ dispatches s workOp 0x07 = true := by
  decide +kernel

/-- The device of `running` with a COPY_TENSOR of `n` bytes at the head of its class, within bulk memory, to address `dst`. -/
def tensorCopy (n dst : Nat) (more : List Nat) : State :=
  let d := fun (base : Nat) => base + 2 ^ 52 + 2 ^ 56 + n * 2 ^ 64
  let y : Slice := { unit := 2, place := some 63, phase := .queued }
  let c := working 8 y
  let q : Quire := { src := .mem 0, fenceBase := 0, hdr := 0x51 + 2 ^ 50, nextRec := 2
                     ops := [{ word := 8, phase := .dispatched, slices := [y], copies := [d 0, d dst, 0] ++ more }] }
  let s := mapped { c with entries := [{ n := 0, kind := 1, seq := 1, quire := some q }] }
  { s with clusters := [(63, { resident := some 0, queue := [⟨workOp, 0⟩] })] }

/-- The box of that copy. -/
def tensorBox (n dst : Nat) : CopyBox :=
  copyBox 8 (2 ^ 52 + 2 ^ 56 + n * 2 ^ 64) (dst + 2 ^ 52 + 2 ^ 56 + n * 2 ^ 64) 0

theorem foldl_min_le (l : List Nat) (a : Nat) : l.foldl min a ≤ a ∧ ∀ x ∈ l, l.foldl min a ≤ x := by
  induction l generalizing a with
  | nil => simp
  | cons y l ih =>
    have h := ih (min a y)
    refine ⟨Nat.le_trans h.1 (Nat.min_le_left _ _), fun x hx => ?_⟩
    rcases List.mem_cons.mp hx with rfl | hx
    · exact Nat.le_trans h.1 (Nat.min_le_right _ _)
    · exact h.2 x hx

theorem le_foldl_max (l : List Nat) (a : Nat) : a ≤ l.foldl max a ∧ ∀ x ∈ l, x ≤ l.foldl max a := by
  induction l generalizing a with
  | nil => simp
  | cons y l ih =>
    have h := ih (max a y)
    refine ⟨Nat.le_trans (Nat.le_max_left _ _) h.1, fun x hx => ?_⟩
    rcases List.mem_cons.mp hx with rfl | hx
    · exact Nat.le_trans (Nat.le_max_right _ _) h.1
    · exact h.2 x hx

/-- The span of a list of elements holds the address of each. -/
theorem span_holds {d : Nat} {ixs : List (List Nat)} {ix : List Nat} (h : ix ∈ ixs) :
    ∃ p, CopyBox.span d ixs = some p ∧ p.1 ≤ Desc.addr d ix ∧ Desc.addr d ix ≤ p.2 := by
  have m : Desc.addr d ix ∈ ixs.map (Desc.addr d) := List.mem_map_of_mem h
  unfold CopyBox.span
  generalize ixs.map (Desc.addr d) = l at m
  cases l with
  | nil => simp at m
  | cons a l =>
    refine ⟨_, rfl, ?_, Nat.le_trans ?_ (Nat.le_add_right _ _)⟩ <;> rcases List.mem_cons.mp m with e | m
    · exact e ▸ (foldl_min_le l a).1
    · exact (foldl_min_le l a).2 _ m
    · exact e ▸ (le_foldl_max l a).1
    · exact (le_foldl_max l a).2 _ m

/-- A copy of one MiB and a byte onto itself overlaps. -/
theorem tensorBox_overlaps : (tensorBox (2 ^ 20 + 1) 0).overlaps = true ∧ 2 ^ 20 < (tensorBox (2 ^ 20 + 1) 0).bytes := by
  refine ⟨?_, by decide +kernel⟩
  have e : (tensorBox (2 ^ 20 + 1) 0).ext = [2 ^ 20 + 1] := by decide +kernel
  have h : [0] ∈ (tensorBox (2 ^ 20 + 1) 0).indices := by
    unfold CopyBox.indices
    rw [e]
    simp [boxIndices]
  have hr : [0] ∈ (tensorBox (2 ^ 20 + 1) 0).reads := List.mem_filterMap.mpr ⟨_, h, by decide +kernel⟩
  have hw : [0] ∈ (tensorBox (2 ^ 20 + 1) 0).writes := List.mem_filterMap.mpr ⟨_, h, by decide +kernel⟩
  obtain ⟨p, hp, h1, h2⟩ := span_holds (d := (tensorBox (2 ^ 20 + 1) 0).src) hr
  obtain ⟨q, hq, h3, h4⟩ := span_holds (d := (tensorBox (2 ^ 20 + 1) 0).dst) hw
  have a : Desc.addr (tensorBox (2 ^ 20 + 1) 0).src [0] = Desc.addr (tensorBox (2 ^ 20 + 1) 0).dst [0] := by decide +kernel
  unfold CopyBox.overlaps
  rw [hp, hq]
  simp only [spansMeet, Bool.and_eq_true, decide_eq_true_eq]
  omega

theorem witness_TensorCopies :
    (∀ p ∈ [(64, 65536, []), (64, 32, []), (64, 32, [1])], let s := tensorCopy p.1 p.2.1 p.2.2
     let x : Op := (s.op? workOp).getD { word := 0 }
     let b := copyBox x.word (x.copies.getD 0 0) (x.copies.getD 1 0) (x.copies.getD 2 0)
     let v := s.startSlice workOp 0
     let a := v.useArea 63 workOp
     s.running = true ∧ OpHdr.opcode x.word = 8 ∧ x.phase = .dispatched ∧ (s.slice? workOp 0).isSome = true ∧ s.heads workOp 0 63 = true ∧
       b = tensorBox p.1 p.2.1 ∧ b.overlaps = decide (p.2.1 = 32) ∧ b.bytes ≤ 2 ^ 20 ∧ s.mayUseArea 63 workOp = true ∧
       ({ s with clusters := [(63, { resident := some 0, queue := [⟨workOp, 0⟩], devArea := some ⟨1, 0, 0⟩ })] } : State).mayUseArea 63 workOp = false ∧
       (∀ e ∈ [0, 1, 2], (match (runCopy (v.streamReq 63 workOp 0) b none e).run v with | .ok _ _ => true | _ => false) = true) ∧
       (match (stageBox (a.streamReq 63 workOp 0) b 63).run a with
         | .ok _ t => (match (runCopy (t.streamReq 63 workOp 0) b (some 63) 0).run t with | .ok _ _ => true | _ => false)
         | _ => false) = true) ∧
    (CopyOp.ok 8 = true ∧ dispatches (waiting 8 []) workOp 8 = true) := by
  decide +kernel

/-- The device of `mapped` with an op over one table of eight int8 elements a row at its lead 5. -/
def tableOp (w : Nat) (p : SlicePhase) (t : TableWork) : State :=
  let tcb := 2 ^ 448 * 10 + 2 ^ 431 + 2 ^ 425
  let y : Slice := { unit := 3, place := some 5, lo := 0, hi := 1, phase := p, work := .table t }
  let x : Op := { word := w, phase := .dispatched, slices := [y], copies := [0], body := .tables [0] [tcb] [0, 0] }
  let q : Quire := { src := .mem 0, fenceBase := 0, hdr := 0x51 + 2 ^ 50, nextRec := 2, ops := [x] }
  let s := mapped { entries := [{ n := 0, kind := 1, seq := 1, quire := some q }] }
  { s with weevils := { queues := [(5, [⟨workOp, 0⟩])] } }

/-- A row of eight zeros with its check (R34, R35). -/
def zeroRow : List (BitVec 8) :=
  let c := Row.crc (List.replicate 14 0)
  List.replicate 6 0 ++ leBytes 2 c ++ List.replicate 8 0

theorem witness_TableLookups :
    (let w := 3 + 2 ^ 285 + 16 * 2 ^ 392
     let s := tableOp w .queued {}
     let r := s.leadReq 5 workOp 0
     (s.tableWork? workOp 3 0).isSome = true ∧ (match (gatherIntake r w 0 0 [0, 0] 0 {}).run s with | .ok _ _ => true | _ => false) = true ∧
     (let t : TableWork := { begun := true, plan := [{ seg := 0, row := 9 }] }
      let s := tableOp w .running t
      (s.tableWork? workOp 3 0).isSome = true ∧ (s.nextRow workOp 0 t).isSome = true ∧
        (match (readRow (s.rowReq 5 workOp 0 0) (2 ^ 448 * 10 + 2 ^ 431 + 2 ^ 425) 9 none).run s with | .ok _ _ => true | _ => false) = true ∧
        Row.sound (2 ^ 425) zeroRow = true ∧ Row.sound (2 ^ 425) (List.replicate 16 0) = false) ∧
     (let t : TableWork := { begun := true, closed := true }
      let s := tableOp w .running t
      let x : Op := (s.op? workOp).getD { word := 0 }
      (s.tableWork? workOp 3 0).isSome = true ∧ (match (writeVectors (s.leadReq 5 workOp 0) (gatherOutputs x t 0)).run s with | .ok _ _ => true | _ => false) = true)) ∧
    (let w := 3 + 2 ^ 285 + 16 * 2 ^ 392
     let s := tableOp w .ended {}
     let x : Op := (s.op? workOp).getD { word := 0 }
     s.unackedOf workOp = false ∧ x.slices.all (·.phase == .ended) = true ∧
       (match (finishGather (s.leadReq 5 workOp 999) (s.spineReq 0 (.op workOp 1000)) x).run s with | .ok _ _ => true | _ => false) = true) := by
  decide +kernel

theorem witness_TableUpdates :
    let w := 4 + 2 ^ 333 + 32 * 2 ^ 440
    let tcb := 2 ^ 448 * 10 + 2 ^ 431 + 2 ^ 425
    (let s := tableOp w .queued {}
     (s.tableWork? workOp 4 0).isSome = true ∧
       (match (updateIntake (s.leadReq 5 workOp 0) w 0 tcb 0 0 0 {}).run s with | .ok t _ => t.closed && t.rows.isEmpty | _ => false) = true) ∧
    (let p : RowFetch := { seg := 0, row := 9, uses := [(0, 0)], grad := List.replicate 8 0 }
     let t : TableWork := { begun := true, plan := [p] }
     let s := tableOp w .running t
     let q : State := { s with weevils := { s.weevils with updates := [(5, [⟨⟨1, 0, 0⟩, 0, 0, 0x10000 * 2 ^ 52 + Tcb.rowAddr tcb 9⟩])] } }
     let r := s.rowReq 5 workOp 0 0
     (s.tableWork? workOp 4 0).isSome = true ∧ (s.nextUpdate workOp 0 5 tcb t).any (fun e => match e.2.2 with | .perform => true | _ => false) = true ∧
       (q.nextUpdate workOp 0 5 tcb t).any (fun e => match e.2.2 with | .queue _ => true | _ => false) = true ∧
       (match (rowRmw r w tcb 5 p 1 false).run s with | .ok (.unsound _ _) _ => true | _ => false) = true ∧
       (let z := { s with mem := (List.range 16).filterMap fun i =>
            let b := zeroRow.getD i 0
            if b = 0 then none else some (bulkBase + 9 * 32 + i, b) }
        match (rowRmw r w tcb 5 p 1 false).run z with | .ok (.written _ _ _ _) _ => true | _ => false) = true) ∧
    (let t : TableWork := { begun := true, closed := true }
     let s := tableOp w .running t
     (match (writeVA (s.leadReq 5 workOp 0) 64 (leBytes 4 1)).run s with | .ok _ _ => true | _ => false) = true) ∧
    (let s : State := { live with weevils := { hive := [(0, { table := 0, row := 9, slot := 3, bytes := 32, valid := true })] } }
     (s.hiveEntry (Tcb.tableId tcb) 9).isSome = true) := by
  decide +kernel

theorem witness_RowsAndHive :
    let tcb := 2 ^ 448 * 10 + 2 ^ 431 + 2 ^ 425
    (∀ a ∈ [0, 1, 2], let w := 5 + a * 2 ^ 328
      let s := tableOp w .queued {}
      (s.tableWork? workOp 5 0).isSome = true ∧ ReplaceOp.action w = a ∧
      (let r := s.leadReq 5 workOp 0
       let spine := s.spineReq 0 (.op workOp 1000)
       match (runReplace r { r with targets := 9 } spine workOp w tcb 5 [] [11]).run s with | .ok _ _ => true | _ => false) = true ∧
      (let r := s.leadReq 5 workOp 0
       match (admitItems { r with targets := 9 } workOp tcb 5 {} [(11, 0)]).run s with | .ok _ _ => true | _ => false) = true) ∧
    (∀ a ∈ [0, 1, 2], let w := 6 + a * 2 ^ 401 + 2 ^ 480
      let s := tableOp w .queued {}
      (s.tableWork? workOp 6 0).isSome = true ∧ MarkOp.action w = a ∧
      (match (runMark (s.leadReq 5 workOp 0) w tcb).run s with | .ok _ _ => true | _ => false) = true) ∧
    (let s : State := { live with weevils := { hive := [(0, { table := 0, row := 9, slot := 3, bytes := 32, valid := false, evictor := some workOp }),
          (1, { table := 0, row := 8, slot := 5, bytes := 32, valid := true })] } }
     s.running = true ∧ s.slotHeld 0 = false ∧ (AMap.get? s.weevils.hive 0).isSome = true ∧ (AMap.get? s.weevils.hive 1).isSome = true) := by
  decide +kernel

theorem witness_RemoteOps :
    (let w := 0x0F + 9 * 2 ^ 296 + 64 * 2 ^ 348
     let s := waiting w []
     RemoteWriteOp.ok w = true ∧ dispatches s workOp 0x0F = true ∧ s.peerVersion 9 = 2) ∧
    (let s := mapped (working 0x0F { unit := 0 })
     (match (streamRow { s.spineReq 0 (.op workOp 1000) with kind := 2, id := 0 } 2 0 64).run s with | .ok _ _ => true | _ => false) = true) ∧
    (let c := working 0x0E { unit := 0 }
     let q := fun (k : RemoteWork) => ({ src := .mem 0, fenceBase := 0, hdr := 0x51 + 2 ^ 50, nextRec := 2,
                                         ops := [{ word := 0x0E, phase := .dispatched, body := .remote k }] } : Quire)
     let s := fun k => mapped { c with entries := [{ n := 0, kind := 1, seq := 1, quire := some (q k) }] }
     ∀ st ∈ [0, Status.fabricUnreachable, Status.fabricPeerFault],
     let k : RemoteWork := { peer := 9, finished := true, parts := List.replicate 16 0, status := st }
     let x : Op := ((s k).op? workOp).getD { word := 0 }
     (s k).running = true ∧ x.body = .remote k ∧ x.phase = .dispatched ∧ OpHdr.opcode x.word = 0x0E ∧ (∀ p, p < 16 → Status.failed (k.parts.getD p 0) = false) ∧
       (match (landGather x ((s k).spineReq 0 (.op workOp 1000)) k).run (s k).draw.2 with | .ok _ _ => true | _ => false) = true) := by
  decide +kernel

/-- A request of class `c` and `n` beats at a source. -/
def request (c source n : Nat) : Arrival := { source := source, issuer := .other c, beats := n, whole := false, since := 0 }

theorem witness_Arbiters :
    (live.running = true ∧ 135 < live.obj 0x7000 0 ∧
      (let a := live.arriveAt 0 135 (live.takeSlots 0 (live.arb 0 135)) [request 1 1 4, request 2 4 1]
       a.grant = none ∧ a.winner = some 9 ∧ a.slots.length = 32) ∧
      (live.arriveAt 0 135 (live.takeSlots 0 (live.arb 0 135)) []).winner = none) ∧
    (let a := live.arriveAt 2 50 (live.freshArb 2) [request 3 6 9, request 0 0 1]
     let b := live.arriveAt 2 50 (live.freshArb 2) [request 3 6 9]
     let s : State := { live with arbs := [(State.arbKey 2 50, { a with grant := some (30, 0, 8) })] }
     50 < s.obj 0x7000 2 ∧ (s.arriveAt 2 50 (s.arb 2 50) []).grant = some (30, 0, 8) ∧ 2 ≤ slotClass 30 ∧
       a.urgent ((stepQueue (a.slot 30).queue).1) = true ∧
       (a.ends 30 0 8).1 = .preempted ∧ (a.ends 30 0 8).2.1 = 1 ∧ (b.ends 30 0 8).1 = .limit ∧ (b.ends 30 0 9).1 = .emptied ∧
       (s.arriveAt 2 51 (s.arb 2 51) []).grant = none) := by
  decide +kernel

theorem witness_ContextSwitches :
    (let s : State := { running 0 with
       ctxs := [(0, working 2 { unit := 1 }), (1, { working 2 { unit := 1 } with entries := [] })]
       clusters := [(63, { resident := some 1, queue := [⟨workOp, 0⟩] })]
       objs := [(objKey 0x3000 0, 2 ^ 63 + 2 ^ 53), (objKey 0x3001 63, 0), (objKey 0x3030 0, 2 ^ 63 + 2 ^ 32)] }
     let t : State := { s with objs := [(objKey 0x3000 0, 2 ^ 63 + 2 ^ 53), (objKey 0x3001 63, 0)] }
     s.running = true ∧ s.replaying 63 = false ∧ s.unitsQuiet 63 = true ∧ s.clusterReserved 63 = false ∧ s.partValid (s.clusterPart 63) = true ∧ s.incoming 63 = some 0 ∧
       s.freeSlot (s.ctx 1).partition 63 = some 0 ∧ t.freeSlot (t.ctx 1).partition 63 = none ∧ t.incoming 63 = some 0 ∧ 0 < s.wsBytes 0 ∧ s.wsBytes (s.ctx 1).partition ≤ 0x300000) ∧
    (let v : Saved := { slot := 0, cores := [(3, { pc := 5 })] }
     let s : State := { running 0 with clusters := [(63, { mode := .switching none 0, saved := [(0, v)] })] }
     let t : State := { running 0 with clusters := [(63, { mode := .switching none 0 })] }
     s.running = true ∧ (s.ctx 0).phase = .opened ∧ s.slotPoisoned 0 v = false ∧ AMap.get? (s.cluster 63).saved 0 = some v ∧
       AMap.get? (t.cluster 63).saved 0 = none ∧ AMap.sorted v.cores = true ∧ (s.ctx 9).phase ≠ .opened) ∧
    (let s : State := { running 0 with clusters := [(63, { moving := true, queue := [⟨workOp, 0⟩] })] }
     s.running = true ∧ (s.cluster 63).moving = true ∧ (s.slice? workOp 0).map (·.phase) = some .running) := by
  decide +kernel

theorem witness_EntriesInProgress :
    (∀ n, ((rings []).ctx n).entries.length ≤ 8) ∧ (∃ t, step { rings [] with pending := [.submit 0] } = .next t) ∧
    (let e : Entry := { n := 0, kind := 1, seq := 0 }
     let s : State := { live with ctxs := [(0, { phase := .opened, produced := 9, entries := List.replicate 8 e })] }
     (s.ctx 0).entries.length = 8) := by
  refine ⟨fun n => ?_, ⟨_, rfl⟩, by decide⟩
  by_cases h : n = 0
  · subst h; decide
  · simp [State.ctx, rings, mapped, AMap.getD, AMap.get?, h]

theorem witness_ThermalTrip :
    live.board.powered = true ∧
    (let s : State := { live with board := { resetN := true, stretching := true, thermTrip := true, clocksStopped := true } }
     s.board.thermTrip = true ∧ s.board.clocksStopped = true ∧ ∃ t, step { s with pending := [.resetStretchEnd] } = .next t) :=
  ⟨by decide, by decide, by decide, _, rfl⟩

theorem witness_CoverChannels : 0x7FF000000 < 0x800000000 ∧ 0 < coverTop := by decide

theorem witness_RepeatedTags :
    (let r : Requester := ⟨.mgmt, 7, 0⟩
     let s : State := { live with amiso := { kept := [(.plain .mgmt 7, [(5, [1]), (4, [2])])]
                                             answers := [{ r := r, tag := some 9, bytes := [], waits := [3] }] } }
     (∀ e ∈ s.amiso.kept, e.2.length ≤ 16) ∧ s.mgmtUp = true ∧ s.board.restartDue = false ∧ r.session = 0 ∧ State.keyOf (s.sessionOf r) r = [] ∧
       s.keptReply (State.partyOf r) 5 = some [1] ∧ s.keptReply (State.partyOf r) 9 = none ∧ s.stillServed r 9 = true ∧
       hostFnOf r = none ∧ State.hostPortOf r = none ∧ (s.amiso.kept.find? fun x => x.1 == State.partyOf r) = some (State.partyOf r, [(5, [1]), (4, [2])]) ∧
       ([(5, [1]), (4, [2])] : List (Nat × List (BitVec 8))).findIdx? (·.1 == 4) = some 1) ∧
    (∃ t, step { live with pending := [.bulkTransferTimeout 0 0] } = .next t) :=
  ⟨by decide, _, rfl⟩

theorem witness_ArbiterRounds :
    let a := live.arriveAt 0 135 (live.takeSlots 0 (live.arb 0 135)) [request 1 1 4, request 3 7 1]
    live.running = true ∧ 135 < live.obj 0x7000 0 ∧ a.slots.length = 32 ∧ a.grant = none ∧ a.preempted = false ∧ (a.slot 9).queue ≠ [] := by
  decide +kernel

/-! ### Ill-formed commands: one for each check of `wellFormed` -/

/-- A requester on the management network. -/
def anyone : Requester := ⟨.mgmt, 0, 0⟩

/-- A plain scalar word's fields. -/
def regs : Fields := ⟨1, 2, 3, 0, 0, 3⟩

/-- A data frame with nothing set. -/
def emptyFrame : Frame := ⟨1, 1, 0, false, false, 0, 0, 0, 0, 0, 0, 0, 0, 0, 0, 0, 0, []⟩

theorem test_wf_accepts :
    ([.boardReset, .clusterReset boss 63, .flrVf 1 7 false, .submit 1023, .add ⟨255, true⟩ ⟨31, 31, 31, 7, 1, 3⟩,
      .brEq ⟨0, false⟩ 31 31 4095, .writeFrame 5 emptyFrame, .mboxRead 15 31 ⟨0, 1023, 63, 255⟩ [],
      .read anyone ⟨0, 2⟩ [] (List.replicate 16 0)] : List Instr).all wellFormed = true := by decide +kernel

theorem test_wf_straps : wellFormed (.powerOn 4) = false := by decide +kernel
theorem test_wf_cluster : wellFormed (.clusterReset boss 64) = false := by decide +kernel
theorem test_wf_function : wellFormed (.wakeArm 16 0 0) = false := by decide +kernel
theorem test_wf_context : wellFormed (.submit 1024) = false := by decide +kernel
theorem test_wf_index : wellFormed (.wakeArm 0 0 (2 ^ 32)) = false := by decide +kernel
theorem test_wf_vf : wellFormed (.flrVf 0 0 false) = false ∧ wellFormed (.flrVf 0 8 false) = false := by decide +kernel
theorem test_wf_access_size : wellFormed (.registerWrite (.bar0 0 0) 3 0) = false := by decide +kernel
theorem test_wf_bar0_function : wellFormed (.registerWrite (.bar0 16 0) 8 0) = false := by decide +kernel
theorem test_wf_bar0_offset : wellFormed (.registerWrite (.bar0 0 (2 ^ 34)) 8 0) = false := by decide +kernel
theorem test_wf_object_subindex : wellFormed (.registerWrite (.object boss 0x2010 256) 8 0) = false := by decide +kernel
theorem test_wf_requester_session : wellFormed (.mgmtRestart ⟨.mgmt, 0, 2 ^ 32⟩) = false := by decide +kernel
theorem test_wf_requester_mgmt : wellFormed (.mgmtRestart ⟨.mgmt, 2 ^ 144, 0⟩) = false := by decide +kernel
theorem test_wf_requester_i3c : wellFormed (.mgmtRestart ⟨.i3c, 1, 0⟩) = false := by decide +kernel
theorem test_wf_requester_host :
    wellFormed (.mgmtRestart ⟨.hostA, 8, 0⟩) = false ∧ wellFormed (.mgmtRestart ⟨.hostB, 8, 0⟩) = false := by decide +kernel
theorem test_wf_header : wellFormed (.read anyone ⟨2 ^ 32, 2⟩ [] []) = false ∧ wellFormed (.read anyone ⟨0, 256⟩ [] []) = false := by
  decide +kernel
theorem test_wf_trailer : wellFormed (.read anyone ⟨0, 2⟩ [] [0]) = false := by decide +kernel
theorem test_wf_go_word :
    wellFormed (.mboxRead 0 0 ⟨0, 1024, 0, 0⟩ []) = false ∧ wellFormed (.mboxRead 0 0 ⟨0, 0, 64, 0⟩ []) = false := by decide +kernel
theorem test_wf_slot : wellFormed (.mboxRead 0 32 ⟨0, 0, 0, 0⟩ []) = false := by decide +kernel
theorem test_wf_mailbox_payload : wellFormed (.mboxRead 0 0 ⟨0, 0, 0, 0⟩ (List.replicate 241 0)) = false := by decide +kernel
theorem test_wf_exact_length : wellFormed (.opKey boss 1 [0]) = false := by decide +kernel
theorem test_wf_core : wellFormed (.add ⟨256, false⟩ regs) = false := by decide +kernel
theorem test_wf_fields :
    wellFormed (.add ⟨0, false⟩ { regs with dst := 32 }) = false ∧ wellFormed (.add ⟨0, false⟩ { regs with mask := 8 }) = false ∧
    wellFormed (.add ⟨0, false⟩ { regs with zero := 2 }) = false ∧ wellFormed (.add ⟨0, false⟩ { regs with ew := 16 }) = false := by
  decide +kernel
theorem test_wf_immediate : wellFormed (.ldk ⟨0, false⟩ 0 (2 ^ 22)) = false := by decide +kernel
theorem test_wf_branch_offset : wellFormed (.brEq ⟨0, false⟩ 0 0 4096) = false := by decide +kernel
theorem test_wf_op : wellFormed (.barrier ⟨0, 0, 8192⟩) = false ∧ wellFormed (.barrier ⟨1024, 0, 0⟩) = false := by decide +kernel
theorem test_wf_lane : wellFormed (.tileReplayOtherEngine 0 0 ⟨false, [(33, 0, 1)]⟩) = false ∧
    wellFormed (.tileReplayOtherEngine 0 0 ⟨false, [(0, 0, 0)]⟩) = false := by decide +kernel
theorem test_wf_read_back_port : wellFormed (.readBackComplete 0 0 (some 2)) = false := by decide +kernel
theorem test_wf_arrival : wellFormed (.arbiterRound 0 0 [⟨8, .scrub, 1, false, 0⟩]) = false ∧
    wellFormed (.grantEnd 0 0 1 [⟨0, .other 4, 1, false, 0⟩]) = false := by decide +kernel
theorem test_wf_errors : wellFormed (.tableSliceStart ⟨0, 0, 0⟩ 0 3) = false ∧ wellFormed (.replace ⟨0, 0, 0⟩ [(65536, 0)]) = false ∧
    wellFormed (.patrolScrub 389 0 0 []) = false ∧ wellFormed (.epochEnd 1024) = false := by decide +kernel
theorem test_wf_temperatures : wellFormed (.thermalLoopTick [] (List.replicate 64 0)) = false := by decide +kernel
theorem test_wf_thermal_die : wellFormed (.thermalLoopTick (List.replicate 64 0) []) = false := by decide +kernel
theorem test_wf_frame : wellFormed (.writeFrame 0 { emptyFrame with dst := 2 ^ 20 }) = false ∧
    wellFormed (.writeFrame 0 { emptyFrame with payload := List.replicate 4097 0 }) = false := by decide +kernel
theorem test_wf_hello : wellFormed (.hello 0 ⟨0, false, 6, 2, [], List.replicate 32 0⟩) = false ∧
    wellFormed (.hello 0 ⟨0, false, 0, 2, [], []⟩) = false := by decide +kernel
theorem test_wf_lsa : wellFormed (.lsa 0 ⟨0, List.replicate 32 0, 2, 0, [(2 ^ 20, 0, 0)]⟩) = false := by decide +kernel

/-! ### What commands do, on numbers from the spec -/

/-- Core 255 runs the word `w` with the given values of s2 and s3, v2 and v3. -/
def onCore (w s2 s3 : Nat) (v2 v3 : Nat) : State :=
  let s := running w
  let c := s.core 255
  s.setCore 255 { c with s := [(2, BitVec.ofNat 64 s2), (3, BitVec.ofNat 64 s3)], v := [(2, BitVec.ofNat 2048 v2), (3, BitVec.ofNat 2048 v3)] }

/-- Core 255 after the command. -/
def got (i : Instr) (s : State) : Core :=
  match exec i s with
  | .next t => t.core 255
  | _ => {}

/-- The state after the command. -/
def after (i : Instr) (s : State) : State :=
  match exec i s with
  | .next t => t
  | _ => s

/-- The words below are written out from R64 and R65: class, dst, src_a, src_b, mask, zero, ew, op. Each one is what the
core holds at its program counter, so a wrong field would leave the command without effect. -/
theorem test_add_wraps :
    (got (.add ⟨255, false⟩ ⟨1, 2, 3, 0, 0, 3⟩) (onCore 0b00001_00001_00010_00011_000_0_11_000000 (2 ^ 64 - 1) 2 0 0)).sreg 1 = 1 := by
  decide +kernel

theorem test_adds_clamps :
    let c := got (.adds ⟨255, false⟩ ⟨1, 2, 3, 0, 0, 0⟩) (onCore 0b00001_00001_00010_00011_000_0_00_010001 127 1 0 0)
    c.sreg 1 = 127 ∧ c.flags = 16 := by decide +kernel

theorem test_add_sign_extends :
    (got (.add ⟨255, false⟩ ⟨1, 2, 3, 0, 0, 0⟩) (onCore 0b00001_00001_00010_00011_000_0_00_000000 127 1 0 0)).sreg 1 = 2 ^ 64 - 128 := by
  decide +kernel

theorem test_mulh_is_signed :
    (got (.mulh ⟨255, false⟩ ⟨1, 2, 3, 0, 0, 3⟩) (onCore 0b00001_00001_00010_00011_000_0_11_000011 (2 ^ 64 - 1) 1 0 0)).sreg 1 = 2 ^ 64 - 1 := by
  decide +kernel

theorem test_mulhu_is_unsigned :
    (got (.mulhu ⟨255, false⟩ ⟨1, 2, 3, 0, 0, 3⟩) (onCore 0b00001_00001_00010_00011_000_0_11_000100 (2 ^ 64 - 1) 1 0 0)).sreg 1 = 0 := by
  decide +kernel

theorem test_sra_takes_the_count_modulo_the_width :
    (got (.sra ⟨255, false⟩ ⟨1, 2, 3, 0, 0, 3⟩) (onCore 0b00001_00001_00010_00011_000_0_11_001010 (2 ^ 63) 65 0 0)).sreg 1 = 3 * 2 ^ 62 := by
  decide +kernel

theorem test_sub_immediate_is_signed :
    (got (.subImm ⟨255, false⟩ ⟨1, 2, 31, 7, 1, 3⟩) (onCore 0b00010_00001_00010_111111111_11_000001 5 0 0 0)).sreg 1 = 6 := by
  decide +kernel

theorem test_ldk_zero_extends :
    (got (.ldk ⟨255, false⟩ 1 (2 ^ 22 - 1)) (onCore 0b00011_00001_1111111111111111111111 0 0 0 0)).sreg 1 = 2 ^ 22 - 1 := by
  decide +kernel

theorem test_branch_counts_from_itself :
    (got (.brLt ⟨255, false⟩ 2 3 4095) (onCore 0b00101_00_010_00010_00011_111111111111 (2 ^ 64 - 1) 0 0 0)).pc = 16382 ∧
    (got (.brLtu ⟨255, false⟩ 2 3 4095) (onCore 0b00101_00_100_00010_00011_111111111111 (2 ^ 64 - 1) 0 0 0)).pc ≠ 16382 := by
  decide +kernel

theorem test_store_is_little_endian :
    (got (.st ⟨255, false⟩ ⟨3, 2, 0, 0, 1, 1⟩) (onCore 0b01000_00011_00010_000000001_01_000010 (2 ^ 63) 0x1234 0 0)).dmem =
      [(2, 0x34), (3, 0x12)] := by decide +kernel

theorem test_vadd_keeps_lanes_apart :
    (got (.vadd ⟨255, false⟩ ⟨1, 2, 3, 0, 0, 0⟩ false) (onCore 0b10000_00001_00010_00011_000_0_00_000000 0 0 0x01FF 0x0201)).vreg 1 = 0x0300 := by
  decide +kernel

theorem test_vadd_scalar_form_broadcasts :
    ((got (.vadd ⟨255, false⟩ ⟨1, 2, 3, 0, 0, 3⟩ true) (onCore 0b10000_00001_00010_00011_000_0_11_100000 0 7 0x01 0)).vreg 1).toNat % 2 ^ 128 =
      8 + 7 * 2 ^ 64 := by decide +kernel

theorem test_vadds_clamps :
    let c := got (.vadds ⟨255, false⟩ ⟨1, 2, 3, 0, 0, 1⟩ false) (onCore 0b10001_00001_00010_00011_000_0_01_000000 0 0 0x7FFF 1)
    c.vreg 1 = 0x7FFF ∧ c.flags = 16 := by decide +kernel

theorem test_vfadd_of_one_and_two :
    (got (.vfadd ⟨255, false⟩ ⟨1, 2, 3, 0, 0, 2⟩ false) (onCore 0b10011_00001_00010_00011_000_0_10_000000 0 0 0x3F800000 0x40000000)).vreg 1 =
      0x40400000 := by decide +kernel

theorem test_vfma_adds_the_destination :
    (got (.vfma ⟨255, false⟩ ⟨3, 2, 3, 0, 0, 2⟩ false) (onCore 0b10011_00011_00010_00011_000_0_10_000011 0 0 0x40000000 0x40400000)).vreg 3 =
      0x41100000 := by decide +kernel

theorem test_vfmul_of_bf16 :
    (got (.vfmul ⟨255, false⟩ ⟨1, 2, 3, 0, 0, 1⟩ false) (onCore 0b10011_00001_00010_00011_000_0_01_000010 0 0 0x3FC0 0x3FC0)).vreg 1 = 0x4010 := by
  decide +kernel

theorem test_vfsub_of_infinities_is_invalid :
    let c := got (.vfsub ⟨255, false⟩ ⟨1, 2, 3, 0, 0, 2⟩ false) (onCore 0b10011_00001_00010_00011_000_0_10_000001 0 0 0x7F800000 0x7F800000)
    c.vreg 1 = 0x7FC00000 ∧ c.flags = 1 := by decide +kernel

theorem test_f32_bf16_rounds_to_even :
    ((got (.f32Bf16 ⟨255, false⟩ ⟨1, 2, 3, 0, 0, 2⟩) (onCore 0b10100_00001_00010_00011_000_0_10_000000 0 0 0x3F8180003F808000 0)).vreg 1) =
      0x3F823F80 := by decide +kernel

theorem test_f32_i32_rounds_to_even :
    let c := got (.f32I32 ⟨255, false⟩ ⟨1, 2, 0, 0, 0, 2⟩) (onCore 0b10100_00001_00010_00000_000_0_10_000100 0 0 0x40200000 0)
    c.vreg 1 = 2 ∧ c.flags = 8 := by decide +kernel

theorem test_vredadd_sums_every_element :
    (got (.vredadd ⟨255, false⟩ ⟨1, 2, 0, 0, 0, 3⟩) (onCore 0b10101_00001_00010_00000_000_0_11_010000 0 0 (5 + 7 * 2 ^ 64 + 2 ^ 1984) 0)).vreg 1 =
      13 := by decide +kernel

theorem test_misaligned_load_stops_the_task :
    (got (.ld ⟨255, false⟩ ⟨1, 2, 0, 0, 0, 3⟩) (onCore 0b01000_00001_00010_000000000_11_000000 (2 ^ 63 + 4) 0 0 0)).task = none := by
  decide +kernel

/-! A doorbell two entries ahead is taken; one that runs more than the ring ahead is not. -/

theorem test_doorbell :
    let s : State := rings []
    ((after (.sqProduced 0 0 3) s).ctx 0).produced = 3 ∧ ((after (.sqProduced 0 0 18) s).ctx 0).produced = 1 := by
  decide +kernel

/-! THERM_TRIP stops the clocks and holds the signal low (R488). -/

theorem test_therm_trip : (after .thermTrip live).board.clocksStopped = true ∧ (after .thermTrip live).board.thermTrip = true := by
  decide +kernel

/-! Check values of the functions that the spec names by their public definitions: the first bytes of SHAKE256 of the
empty string, and the CRC-16 of R35 over the ASCII digits 1 to 9. -/

theorem test_shake256 : shake256 [] 4 = [0x46, 0xb9, 0xdd, 0x2b] := by decide +kernel

theorem test_crc16 : Row.crc [0x31, 0x32, 0x33, 0x34, 0x35, 0x36, 0x37, 0x38, 0x39] = 0x29B1 := by decide +kernel

end Sys2Proof.Tests
end

/-! ### The channels of the cover tier (R114)

The cover tier is the addresses below 2^35. Of these, the ones from `coverTop` on are the device's own; they lie in the last
of the 128 channels. -/

namespace Sys2Proof.Machine

theorem bits_eq_div_mod (x hi lo : Nat) : bits x hi lo = x / 2 ^ lo % 2 ^ (hi + 1 - lo) := by
  rw [bits, Nat.shiftRight_eq_div_pow]

/-- A channel holds 256 MiB, so an address of the tier has no bits above its channel number. -/
theorem bits_coverChannel {a : Nat} (h : a < 0x800000000) : bits a 34 28 = a / 2 ^ 28 := by
  rw [bits_eq_div_mod]
  omega

/-- The tier has two layers of 64 channels, so a channel number has no bits above its layer's. -/
theorem bits_coverLayer {n : Nat} (h : n < 128) : bits n 6 6 = n / 64 := by
  rw [bits_eq_div_mod]
  omega

theorem coverChannel_split {n : Nat} (h : n < 128) : n = 64 * bits n 6 6 + bits n 5 0 := by
  rw [bits_coverLayer h, bits_eq_div_mod]
  omega

theorem placeOf_cover {a : Nat} (h : a < coverTop) : placeOf a = .cover (a / 2 ^ 28) := by
  rw [placeOf, if_pos h]

theorem placeOf_coverDevice {a : Nat} (hlo : coverTop ≤ a) (hhi : a < 0x800000000) : placeOf a = .coverDevice := by
  rw [placeOf, if_neg (Nat.not_lt.mpr hlo), if_pos hhi]

/-- The device's own part of the tier lies in the last channel. -/
theorem coverDevice_channel {a : Nat} (hlo : coverTop ≤ a) (hhi : a < 0x800000000) : a / 2 ^ 28 = 127 := by
  rw [coverTop] at hlo
  omega

/-- The model places address `a` in cover channel `n`: it answers channel `n`, or the device's own part of the tier, which
belongs to channel 127. -/
def InCoverChannel (a n : Nat) : Prop := placeOf a = .cover n ∨ placeOf a = .coverDevice ∧ n = 127

theorem inCoverChannel_div {a : Nat} (h : a < 0x800000000) : InCoverChannel a (a / 2 ^ 28) := by
  rcases Nat.lt_or_ge a coverTop with hlo | hlo
  · exact .inl (placeOf_cover hlo)
  · exact .inr ⟨placeOf_coverDevice hlo h, coverDevice_channel hlo h⟩

namespace InCoverChannel

variable {a n : Nat} (h : InCoverChannel a n)
include h

theorem ownerAt_eq (lead : Nat) : ownerAt lead a = 24 + n / 16 := by
  obtain hp | ⟨hp, rfl⟩ := h <;> rw [ownerAt, hp]

theorem tierStarting_iff (s : State) : s.tierStarting a = true ↔ s.obj 0x2003 (n / 64) ≠ 2 ∧ s.obj 0x2003 (n / 64) ≠ 3 := by
  obtain hp | ⟨hp, rfl⟩ := h <;> simp [State.tierStarting, hp]

theorem withdrawn_iff (s : State) : s.withdrawn a = true ↔ s.obj 0x4012 n = 2 := by
  obtain hp | ⟨hp, rfl⟩ := h <;> simp [State.withdrawn, hp]

end InCoverChannel

/-- Settles O57: below 2^35 the channel number is the address over 256 MiB, and every part of the model that asks for the
place of such an address finds it in that channel (`inCoverChannel_div`). -/
theorem coverChannels : Obligations.CoverChannels := by
  intro a ha
  have hin := inCoverChannel_div ha
  have hn : a / 2 ^ 28 < 128 := by omega
  simp only [bits_coverChannel ha]
  refine ⟨coverChannel_split hn, by omega, by omega, hin.ownerAt_eq, placeOf_cover,
    fun hlo => ⟨placeOf_coverDevice hlo ha, coverDevice_channel hlo ha⟩, fun s => ?_, hin.withdrawn_iff⟩
  rw [bits_coverLayer hn]
  exact hin.tierStarting_iff s

end Sys2Proof.Machine

/-! ### Rounds of the shared-port arbiters (R244) -/

namespace Sys2Proof.Machine

/-! The slots of greatest key and of lowest class. -/

/-- Keys are natural numbers, so 0 put before them does not change their maximum. -/
theorem mem_greatest {f : Nat → Nat} {l : List Nat} {i : Nat} : i ∈ greatest f l ↔ i ∈ l ∧ ∀ j ∈ l, f j ≤ f i := by
  have hm : (0 :: l.map f).max? = some (l.foldl (fun m i => max m (f i)) 0) := by
    rw [List.max?_cons', List.foldl_map]
  obtain ⟨hmem, hle⟩ := List.max?_eq_some_iff.mp hm
  simp only [List.mem_cons, List.mem_map, forall_eq_or_imp, forall_exists_index, and_imp, forall_apply_eq_imp_iff₂] at hmem hle
  simp only [greatest, List.mem_filter, beq_iff_eq]
  refine and_congr_right fun hi => ⟨fun h => h ▸ hle.2, fun h => ?_⟩
  have hi := hle.2 i hi
  rcases hmem with h0 | ⟨j, hj, hfj⟩
  · omega
  · have := h j hj
    omega

theorem exists_mem_greatest (f : Nat → Nat) {l : List Nat} (h : l ≠ []) : ∃ i, i ∈ greatest f l :=
  ⟨l.maxOn f h, mem_greatest.mpr ⟨List.maxOn_mem, fun _ hj => List.le_apply_maxOn_of_mem hj⟩⟩

/-- The slots of lowest class, as a round keeps them (`Arb.winner_eq`). -/
def lowest (l : List Nat) : List Nat := l.filter fun i => slotClass i == l.foldl (fun c i => min c (slotClass i)) 4

theorem slotClass_lt {i : Nat} (h : i < 32) : slotClass i < 4 := Nat.div_lt_of_lt_mul h

/-- Slots have classes 0 to 3, so 4 put before the classes does not change their minimum. -/
theorem mem_lowest {l : List Nat} (hl : ∀ i ∈ l, i < 32) {i : Nat} :
    i ∈ lowest l ↔ i ∈ l ∧ ∀ j ∈ l, slotClass i ≤ slotClass j := by
  have hm : (4 :: l.map slotClass).min? = some (l.foldl (fun c i => min c (slotClass i)) 4) := by
    rw [List.min?_cons', List.foldl_map]
  obtain ⟨hmem, hle⟩ := List.min?_eq_some_iff.mp hm
  simp only [List.mem_cons, List.mem_map, forall_eq_or_imp, forall_exists_index, and_imp, forall_apply_eq_imp_iff₂] at hmem hle
  simp only [lowest, List.mem_filter, beq_iff_eq]
  refine and_congr_right fun hi => ⟨fun h => h ▸ hle.2, fun h => ?_⟩
  have hclass := slotClass_lt (hl i hi)
  have hi := hle.2 i hi
  rcases hmem with h4 | ⟨j, hj, hcj⟩
  · omega
  · have := h j hj
    omega

theorem exists_mem_lowest {l : List Nat} (hl : ∀ i ∈ l, i < 32) (h : l ≠ []) : ∃ i, i ∈ lowest l :=
  ⟨l.minOn slotClass h, (mem_lowest hl).mpr ⟨List.minOn_mem, fun _ hj => List.apply_minOn_le_of_mem hj⟩⟩

/-! The order in which a round asks the slots: modulo 32, from the one after the last winner on. -/

/-- The turn of slot `i`: how many slots a round asks before it. -/
def turn (last i : Nat) : Nat := (i + 31 - last % 32) % 32

theorem turn_lt (last i : Nat) : turn last i < 32 := Nat.mod_lt _ (by decide)

theorem slot_at_turn (last : Nat) {i : Nat} (h : i < 32) : (last + 1 + turn last i) % 32 = i := by
  rw [turn]
  omega

theorem turn_of_slot_at (last : Nat) {k : Nat} (h : k < 32) : turn last ((last + 1 + k) % 32) = k := by
  rw [turn]
  omega

/-- The slot of `l` that a round asks first (`Arb.winner_eq`). -/
def firstAfter (last : Nat) (l : List Nat) : Option Nat :=
  (List.range 32).findSome? fun k =>
    let i := (last + 1 + k) % 32
    if l.contains i then some i else none

theorem firstAfter_eq_some {last w : Nat} {l : List Nat} (h : firstAfter last l = some w) :
    w ∈ l ∧ ∀ j ∈ l, j < 32 → turn last w ≤ turn last j := by
  simp only [firstAfter, List.findSome?_eq_some_iff, List.contains_eq_mem, decide_eq_true_eq, Option.ite_none_right_eq_some,
    Option.some.injEq, ite_eq_right_iff, reduceCtorEq, imp_false] at h
  obtain ⟨before, k, later, hrange, ⟨hw, rfl⟩, hnone⟩ := h
  rw [List.range_eq_range'] at hrange
  obtain ⟨n, -, rfl, hcons⟩ := List.range'_eq_append_iff.mp hrange
  obtain ⟨hfirst, hpos, -⟩ := List.range'_eq_cons_iff.mp hcons.symm
  obtain rfl : k = n := by omega
  have hk : k < 32 := by omega
  refine ⟨hw, fun j hj hlt => ?_⟩
  rw [turn_of_slot_at last hk]
  refine Nat.le_of_not_lt fun hturn => hnone (turn last j) (List.mem_range'_1.mpr ⟨Nat.zero_le _, by omega⟩) ?_
  rwa [slot_at_turn last hlt]

theorem exists_firstAfter (last : Nat) {l : List Nat} {i : Nat} (hi : i ∈ l) (hlt : i < 32) : ∃ w, firstAfter last l = some w := by
  rw [← Option.isSome_iff_exists, firstAfter, List.findSome?_isSome_iff]
  exact ⟨turn last i, List.mem_range.mpr (turn_lt last i), by simp [slot_at_turn last hlt, hi]⟩

namespace Arb

variable {a : Arb}

/-! Which slots are candidates, forced, and in the pool. -/

theorem mem_those {p : Nat → Slot → Bool} {i : Nat} : i ∈ a.those p ↔ i < a.slots.length ∧ p i (a.slot i) = true := by
  by_cases h : i < a.slots.length <;> simp [those, slot, List.mem_zipIdx_iff_getElem?, h]

theorem mem_cands {i : Nat} :
    i ∈ a.cands ↔ i < a.slots.length ∧ (a.slot i).queue ≠ [] ∧ (a.preempted = true → i < 8) := by
  rw [cands, mem_those]
  cases a.preempted <;> simp [Slot.requests, slotClass, Nat.div_eq_zero_iff]

theorem mem_forced {i : Nat} : i ∈ a.forced ↔ i ∈ a.cands ∧ (a.slot i).waitLimit ≤ (a.slot i).wait := by
  simp [forced]

theorem mem_pool {i : Nat} : i ∈ a.pool ↔
    (i ∈ a.forced ∧ ∀ j ∈ a.forced, (a.slot j).wait ≤ (a.slot i).wait) ∨
    ((∀ j, j ∉ a.forced) ∧ i ∈ a.cands ∧ ∀ j ∈ a.cands, (a.slot j).effPrio ≤ (a.slot i).effPrio) := by
  rw [← List.eq_nil_iff_forall_not_mem]
  by_cases h : a.forced = [] <;> simp [pool, h, mem_greatest]

theorem mem_cands_of_mem_pool {i : Nat} (h : i ∈ a.pool) : i ∈ a.cands := by
  rcases mem_pool.mp h with ⟨hforced, -⟩ | ⟨-, hcand, -⟩
  · exact (mem_forced.mp hforced).1
  · exact hcand

theorem pool_ne_nil {i : Nat} (h : i ∈ a.cands) : a.pool ≠ [] := by
  rw [pool]
  split
  · exact List.ne_nil_of_mem (exists_mem_greatest _ (List.ne_nil_of_mem h)).choose_spec
  · next hf => exact List.ne_nil_of_mem (exists_mem_greatest _ (by simpa using hf)).choose_spec

/-! The winner. -/

theorem winner_eq : a.winner = firstAfter a.lastWinner (lowest a.pool) := rfl

theorem mem_cands_of_winner {w : Nat} (h : a.winner = some w) : w ∈ a.cands :=
  mem_cands_of_mem_pool (List.mem_filter.mp (firstAfter_eq_some (winner_eq ▸ h)).1).1

section
variable (hlen : a.slots.length = 32)
include hlen

theorem lt_of_mem_pool : ∀ i ∈ a.pool, i < 32 := fun _ h => hlen ▸ (mem_cands.mp (mem_cands_of_mem_pool h)).1

theorem exists_winner {i : Nat} (h : i ∈ a.cands) : ∃ w, a.winner = some w := by
  have hlt := lt_of_mem_pool hlen
  obtain ⟨j, hj⟩ := exists_mem_lowest hlt (pool_ne_nil h)
  exact winner_eq ▸ exists_firstAfter a.lastWinner hj (hlt j ((mem_lowest hlt).mp hj).1)

theorem winner_spec {w : Nat} (h : a.winner = some w) :
    w ∈ a.pool ∧ (∀ j ∈ a.pool, slotClass w ≤ slotClass j) ∧
    ∀ j ∈ a.pool, slotClass j = slotClass w → turn a.lastWinner w ≤ turn a.lastWinner j := by
  have hlt := lt_of_mem_pool hlen
  obtain ⟨hw, hfirst⟩ := firstAfter_eq_some (winner_eq ▸ h)
  obtain ⟨hpool, hlow⟩ := (mem_lowest hlt).mp hw
  refine ⟨hpool, hlow, fun j hj hclass => hfirst j ((mem_lowest hlt).mpr ⟨hj, ?_⟩) (hlt j hj)⟩
  rwa [hclass]

end

/-! What a round leaves. -/

theorem slot_mapSlots (f : Nat → Slot → Slot) (i : Nat) :
    (a.mapSlots f).slot i = if i < a.slots.length then f i (a.slot i) else a.slot i := by
  by_cases h : i < a.slots.length <;> simp [mapSlots, slot, h]

/-- What a round that `w` wins leaves of slot `i`. -/
def afterWin (a : Arb) (w i : Nat) : Slot :=
  let x := a.slot i
  if i = w then { x with effPrio := x.basePrio, wait := 0, resume := false }
  else if i ∈ a.cands then { x with effPrio := min (x.effPrio + 1) 15, wait := min (x.wait + 1) 255 }
  else x

section
variable {w i : Nat}

theorem afterWin_winner : a.afterWin w w =
    { a.slot w with effPrio := (a.slot w).basePrio, wait := 0, resume := false } := if_pos rfl

theorem afterWin_cand (hne : i ≠ w) (hi : i ∈ a.cands) : a.afterWin w i =
    { a.slot i with effPrio := min ((a.slot i).effPrio + 1) 15, wait := min ((a.slot i).wait + 1) 255 } := by
  rw [afterWin, if_neg hne, if_pos hi]

theorem afterWin_other (hne : i ≠ w) (hi : i ∉ a.cands) : a.afterWin w i = a.slot i := by
  rw [afterWin, if_neg hne, if_neg hi]

end

section
variable {w : Nat} (h : a.winner = some w)
include h

theorem lastWinner_round : a.round.lastWinner = w := by
  simp [round, h]

theorem grant_round : a.round.grant =
    some (if (a.slot w).resume = true then (w, (a.slot w).progress, (a.slot w).burstHeld) else (w, 0, (a.slot w).burst)) := by
  simp [round, h]

theorem slots_round : a.round.slots = (a.mapSlots fun i y =>
    if i = w then { y with effPrio := y.basePrio, wait := 0, resume := false }
    else if a.cands.contains i then { y with effPrio := min (y.effPrio + 1) 15, wait := min (y.wait + 1) 255 }
    else y).slots := by
  simp [round, h]

/-- A number past the last slot is neither the winner nor a candidate, so the equation holds of every number. -/
theorem slot_round (i : Nat) : a.round.slot i = a.afterWin w i := by
  rw [slot, slots_round h, ← slot, slot_mapSlots]
  split
  · simp [afterWin]
  · next hi =>
    have hcand : i ∉ a.cands := fun hc => hi (mem_cands.mp hc).1
    have hne : i ≠ w := fun he => hcand (he ▸ mem_cands_of_winner h)
    exact (afterWin_other hne hcand).symm

end

end Arb

namespace State

@[simp] theorem arb_setArb_self (s : State) (kk inst : Nat) (x : Arb) : (s.setArb kk inst x).arb kk inst = x := by
  rw [arb, AMap.getD, setArb, AMap.get?_set_self, Option.getD_some]

/-- Where no grant is in force and a slot wins, ARBITER_ROUND runs the round on the arbiter with the committed values taken
and the requests entered. -/
theorem arb_arbRound {s : State} {kk inst w : Nat} {arr : List Arrival} {a : Arb} (hrun : s.running = true)
    (hex : s.arbExists kk inst = true) (ha : s.arriveAt kk inst (s.takeSlots kk (s.arb kk inst)) arr = a)
    (hgrant : a.grant = none) (hwin : a.winner = some w) : (s.arbRound kk inst arr).arb kk inst = a.round := by
  simp [arbRound, hrun, hex, ha, hgrant, hwin]

end State

/-- Settles O59: some candidate wins (`Arb.exists_winner`), `Arb.winner_spec` says which one, and the lemmas on `Arb.round` say
what the round leaves. -/
theorem arbiterRounds : Obligations.ArbiterRounds := by
  intro s kk inst arr hrun hkk hinst a cand forced pool after hlen hgrant ⟨j, hj⟩
  have hcand (i : Nat) : i ∈ a.cands ↔ cand i := by rw [Arb.mem_cands, hlen]
  have hforced (i : Nat) : i ∈ a.forced ↔ forced i := Arb.mem_forced.trans (and_congr_left' (hcand i))
  have hpool (i : Nat) : i ∈ a.pool ↔ pool i := by
    simp only [Arb.mem_pool, hforced, hcand]
    rfl
  obtain ⟨w, hwin⟩ := Arb.exists_winner hlen ((hcand j).mpr hj)
  obtain ⟨hw, hlow, hfirst⟩ := Arb.winner_spec hlen hwin
  have hex : s.arbExists kk inst = true := by simp [State.arbExists, hkk, hinst]
  have hround : (s.arbRound kk inst arr).arb kk inst = a.round := State.arb_arbRound hrun hex rfl hgrant hwin
  have hslot (i : Nat) : ((s.arbRound kk inst arr).arb kk inst).slot i = a.afterWin w i := hround ▸ Arb.slot_round hwin i
  exact ⟨_, rfl, w, (hpool w).mp hw, fun i hi => hlow i ((hpool i).mpr hi), fun i hi => hfirst i ((hpool i).mpr hi),
    fun i hne hi => (hslot i).trans (Arb.afterWin_cand hne ((hcand i).mpr hi)),
    fun i hne hi => (hslot i).trans (Arb.afterWin_other hne (mt (hcand i).mp hi)),
    (hslot w).trans Arb.afterWin_winner, hround ▸ Arb.lastWinner_round hwin, hround ▸ Arb.grant_round hwin⟩

end Sys2Proof.Machine

/-! ### Repeated tags (R430)

No step gives a party more than sixteen kept replies. The kept replies change in `keepReply`, which cuts the list, and where a
session ends or a reset clears them; every other function of the model leaves them alone, which its lemma of the form
`KeptShort (f s) ↔ KeptShort s` says, in the order of the definitions. -/

namespace Sys2Proof.Machine

/-- No party has more than sixteen kept replies (R430). -/
structure KeptShort (s : State) : Prop where
  short : ∀ e ∈ s.amiso.kept, e.2.length ≤ 16

namespace State

/-- The state that a computation leaves, however it ends. -/
def after (s : State) {α : Type} (m : M α) : State :=
  match m s with
  | .ok _ t => t
  | .error _ t => t

section

variable {α β : Type} (s u : State)

/-! The equations that hold by computation have `(rfl)` as their proof, so that `simp` rewrites with them by a step in the proof
term: checking a chain of them by computation is too deep for the kernel. -/

@[simp] theorem after_pure (a : α) : s.after (pure a : M α) = s := (rfl)

@[simp] theorem after_throw (e : Stop) : s.after (throw e : M α) = s := (rfl)

@[simp] theorem after_get : s.after (get : M State) = s := (rfl)

@[simp] theorem after_set : s.after (set u : M PUnit) = u := (rfl)

@[simp] theorem after_modify (g : State → State) : s.after (modify g : M PUnit) = g s := (rfl)

@[simp] theorem after_get_bind (f : State → M β) : s.after (get >>= f) = s.after (f s) := (rfl)

@[simp] theorem after_set_bind (f : PUnit → M β) : s.after (set u >>= f) = u.after (f ⟨⟩) := (rfl)

@[simp] theorem after_modify_bind (g : State → State) (f : PUnit → M β) :
    s.after (modify g >>= f) = (g s).after (f ⟨⟩) := (rfl)

@[simp] theorem after_map (g : α → β) (m : M α) : s.after (g <$> m) = s.after m := by
  change s.after (fun t => EStateM.map g m t) = _
  simp only [after, EStateM.map]
  cases m s <;> rfl

@[simp] theorem after_ite {c : Prop} [Decidable c] (m n : M α) :
    s.after (if c then m else n) = if c then s.after m else s.after n := by
  split <;> rfl

@[simp] theorem after_attempt (m : M α) : s.after (attempt m) = s.after m := by
  unfold after attempt
  cases m s with
  | ok x t => rfl
  | error x t => cases x <;> rfl

end

end State

namespace KeptShort

/-! #### Rules for the ways a state is put together

Each rule concludes `KeptShort t ↔ P` for any `P`, which stands for what is known of the state that a function starts from. So the
rules chain, and `simp` can use the lemmas about the functions, which are equivalences, in their turn. -/

variable {α β : Type} {P : Prop} {s t u : State}

section

variable {objs : AMap Nat} {mem far : List Host.Cell} {poison farPoison fencePoison : List Nat} {ctxs : AMap Ctx}
  {fences splits lanes : AMap Nat} {graphs : AMap Graph} {trans : Trans} {clusters : AMap Cluster} {cores : AMap Core}
  {engines : AMap Engine} {arbs : AMap Arb} {attn : Attn} {mbox : AMap MboxSlot} {wins : AMap Win} {fns : AMap Fn}
  {hostPorts : AMap HostPort} {fabric : Fabric} {path : List PathEntry} {cxl : AMap CxlLink} {weevils : Weevils} {tiers : Tiers}
  {sparing : Sparing} {fw : Firmware} {fuses : Fuses} {board : Board} {power : Power} {out : List Out} {free : Nat}
  {pending : List Instr}

@[simp] theorem record_iff :
    KeptShort ⟨pending, free, out, objs, mem, poison, far, farPoison, ctxs, fences, splits, fencePoison, graphs, trans, clusters,
      cores, engines, lanes, arbs, attn, mbox, t.amiso, wins, fns, hostPorts, fabric, path, cxl, weevils, tiers, sparing, fw, fuses,
      board, power⟩ ↔ KeptShort t :=
  ⟨fun h => ⟨h.short⟩, fun h => ⟨h.short⟩⟩

@[simp] theorem record_kept_iff {sessions : List Session} {nextSession : Nat} {stages : List (Party × AMap Nat)}
    {challenges : List (Path × Nat × List (BitVec 8))} {bulks : List Bulk} {snapshots : List Snapshot} {answers : List Answer}
    {commits held : List Request} {opKeys : AMap (Nat × List (BitVec 8))}
    {reports : List (Party × List (BitVec 8) × Option (List (BitVec 8)))} :
    KeptShort ⟨pending, free, out, objs, mem, poison, far, farPoison, ctxs, fences, splits, fencePoison, graphs, trans, clusters,
      cores, engines, lanes, arbs, attn, mbox, ⟨sessions, nextSession, t.amiso.kept, stages, challenges, bulks, snapshots, answers,
      commits, held, opKeys, reports⟩, wins, fns, hostPorts, fabric, path, cxl, weevils, tiers, sparing, fw, fuses, board,
      power⟩ ↔ KeptShort t :=
  ⟨fun h => ⟨h.short⟩, fun h => ⟨h.short⟩⟩

end

theorem of_snd {p : α × State} {x : α} (e : p = (x, t)) (h : KeptShort p.2 ↔ P) : KeptShort t ↔ P := by
  subst e
  exact h

theorem of_fst {p : State × α} {x : α} (e : p = (t, x)) (h : KeptShort p.1 ↔ P) : KeptShort t ↔ P := by
  subst e
  exact h

theorem getD {o : Option State} (h : ∀ t, o = some t → (KeptShort t ↔ P)) (k : KeptShort s ↔ P) : KeptShort (o.getD s) ↔ P := by
  cases o with
  | none => exact k
  | some t => exact h t rfl

@[simp] theorem ite_iff {c : Prop} [Decidable c] : KeptShort (if c then s else t) ↔ if c then KeptShort s else KeptShort t := by
  split <;> rfl

theorem branch {c : Prop} [Decidable c] (hs : KeptShort s ↔ P) (ht : KeptShort t ↔ P) : KeptShort (if c then s else t) ↔ P := by
  split <;> assumption

theorem branchLast {γ : Type} {c : Prop} [Decidable c] {x y : β × γ × State} (hx : KeptShort x.2.2 ↔ P)
    (hy : KeptShort y.2.2 ↔ P) : KeptShort (if c then x else y).2.2 ↔ P := by
  split <;> assumption

theorem foldl {f : State → α → State} {l : List α} {s : State} (h : ∀ s x, KeptShort (f s x) ↔ KeptShort s)
    (k : KeptShort s ↔ P) : KeptShort (l.foldl f s) ↔ P := by
  induction l generalizing s with
  | nil => exact k
  | cons x l ih => exact ih ((h s x).trans k)

@[simp] theorem foldl_iff {f : State → α → State} {l : List α} (h : ∀ s x, KeptShort (f s x) ↔ KeptShort s) :
    KeptShort (l.foldl f s) ↔ KeptShort s :=
  foldl h Iff.rfl

theorem foldlFst {f : State × β → α → State × β} {l : List α} {s : State × β} (h : ∀ s x, KeptShort (f s x).1 ↔ KeptShort s.1)
    (k : KeptShort s.1 ↔ P) : KeptShort (l.foldl f s).1 ↔ P := by
  induction l generalizing s with
  | nil => exact k
  | cons x l ih => exact ih ((h s x).trans k)

theorem foldlSnd {f : β × State → α → β × State} {l : List α} {s : β × State} (h : ∀ s x, KeptShort (f s x).2 ↔ KeptShort s.2)
    (k : KeptShort s.2 ↔ P) : KeptShort (l.foldl f s).2 ↔ P := by
  induction l generalizing s with
  | nil => exact k
  | cons x l ih => exact ih ((h s x).trans k)

theorem after_bind {m : M α} {f : α → M β} (h : KeptShort (s.after m) ↔ P)
    (k : ∀ x (t : State), (KeptShort t ↔ P) → (KeptShort (t.after (f x)) ↔ P)) : KeptShort (s.after (m >>= f)) ↔ P := by
  change KeptShort (match EStateM.bind m f s with | .ok _ t => t | .error _ t => t) ↔ P
  unfold State.after at h k
  unfold EStateM.bind
  revert h
  cases m s with
  | ok x t => exact k x t
  | error x t => exact id

theorem after_tryCatch {m : M α} {f : Stop → M α} (h : KeptShort (s.after m) ↔ P)
    (k : ∀ x (t : State), (KeptShort t ↔ P) → (KeptShort (t.after (f x)) ↔ P)) : KeptShort (s.after (tryCatch m f)) ↔ P := by
  change KeptShort (match EStateM.tryCatch m f s with | .ok _ t => t | .error _ t => t) ↔ P
  unfold State.after at h k
  unfold EStateM.tryCatch
  revert h
  cases m s with
  | ok x t => exact id
  | error x t => exact k x t

theorem after_branch {c : Prop} [Decidable c] {m n : M α} (hm : KeptShort (s.after m) ↔ P) (hn : KeptShort (s.after n) ↔ P) :
    KeptShort (s.after (if c then m else n)) ↔ P := by
  split <;> assumption

theorem of_ok {m : M α} {x : α} (e : m.run u = .ok x t) (h : KeptShort (u.after m) ↔ P) : KeptShort t ↔ P := by
  have e : m u = .ok x t := e
  simpa only [State.after, e] using h

theorem of_error {m : M α} {x : Stop} (e : m.run u = .error x t) (h : KeptShort (u.after m) ↔ P) : KeptShort t ↔ P := by
  have e : m u = .error x t := e
  simpa only [State.after, e] using h

end KeptShort

/-! #### What leaves the kept replies alone -/

namespace KeptShort

/-! Objects, attention, memory and the state's other parts. -/

@[simp] theorem setObj_iff (s : State) (index sub v : Nat) :
    KeptShort (s.setObj index sub v) ↔ KeptShort s := by simp [State.setObj]

@[simp] theorem addObj_iff (s : State) (index sub n : Nat) :
    KeptShort (s.addObj index sub n) ↔ KeptShort s := by simp [State.addObj]

@[simp] theorem draw_iff (s : State) : KeptShort s.draw.2 ↔ KeptShort s := by simp [State.draw]

@[simp] theorem send_iff (s : State) (o : Out) : KeptShort (s.send o) ↔ KeptShort s := by simp [State.send]

@[simp] theorem setCtx_iff (s : State) (n : Nat) (c : Ctx) : KeptShort (s.setCtx n c) ↔ KeptShort s := by simp [State.setCtx]

@[simp] theorem setFn_iff (s : State) (ff : Nat) (f : Fn) : KeptShort (s.setFn ff f) ↔ KeptShort s := by simp [State.setFn]

@[simp] theorem setHostPort_iff (s : State) (p : Nat) (h : HostPort) :
    KeptShort (s.setHostPort p h) ↔ KeptShort s := by simp [State.setHostPort]

@[simp] theorem setCluster_iff (s : State) (c : Nat) (x : Cluster) :
    KeptShort (s.setCluster c x) ↔ KeptShort s := by simp [State.setCluster]

@[simp] theorem setCore_iff (s : State) (n : Nat) (x : Core) : KeptShort (s.setCore n x) ↔ KeptShort s := by simp [State.setCore]

@[simp] theorem setEngine_iff (s : State) (c e : Nat) (x : Engine) :
    KeptShort (s.setEngine c e x) ↔ KeptShort s := by simp [State.setEngine]

@[simp] theorem setCxlLink_iff (s : State) (l : Nat) (x : CxlLink) :
    KeptShort (s.setCxlLink l x) ↔ KeptShort s := by simp [State.setCxlLink]

@[simp] theorem setSharelPort_iff (s : State) (p : Nat) (x : SharelPort) :
    KeptShort (s.setSharelPort p x) ↔ KeptShort s := by simp [State.setSharelPort]

@[simp] theorem loseEvent_iff (s : State) (e : Event) : KeptShort (s.loseEvent e) ↔ KeptShort s := by simp [State.loseEvent]

@[simp] theorem raise_iff (s : State) (source severity parts code sub addr : Nat) :
    KeptShort (s.raise source severity parts code sub addr) ↔ KeptShort s := by
  unfold State.raise
  repeat' first | split | simp | with_reducible refine of_snd ‹_› ?_

@[simp] theorem raiseAs_iff (s : State) (source severity parts code sub addr v : Nat) :
    KeptShort (s.raiseAs source severity parts code sub addr v) ↔ KeptShort s := by simp [State.raiseAs]

@[simp] theorem countRaise_iff (s : State) (source severity parts code sub addr : Nat) :
    KeptShort (s.countRaise source severity parts code sub addr) ↔ KeptShort s := by simp [State.countRaise]

@[simp] theorem setFence_iff (s : State) (f v : Nat) : KeptShort (s.setFence f v) ↔ KeptShort s := by simp [State.setFence]

@[simp] theorem signal_iff (s : State) (g : Signal) : KeptShort (s.signal g) ↔ KeptShort s := by
  unfold State.signal
  split <;> simp

@[simp] theorem writeByte_iff (s : State) (a : Nat) (b : BitVec 8) : KeptShort (s.writeByte a b) ↔ KeptShort s := by
  unfold State.writeByte
  repeat' first | split | simp

@[simp] theorem putBytes_iff (s : State) (a : Nat) (bytes : List (BitVec 8)) : KeptShort (s.putBytes a bytes) ↔ KeptShort s := by
  fun_induction State.putBytes s a bytes <;> simp [*]

@[simp] theorem markPoison_iff (s : State) (a : Nat) : KeptShort (s.markPoison a) ↔ KeptShort s := by
  unfold State.markPoison
  repeat' first | split | simp

@[simp] theorem clearPoison_iff (s : State) (a : Nat) : KeptShort (s.clearPoison a) ↔ KeptShort s := by
  unfold State.clearPoison
  repeat' first | split | simp

@[simp] theorem makePoison_iff (s : State) (a : Nat) : KeptShort (s.makePoison a) ↔ KeptShort s := by simp [State.makePoison]

@[simp] theorem transportError_iff (s : State) (a : Nat) :
    KeptShort (s.transportError a) ↔ KeptShort s := by simp [State.transportError]

@[simp] theorem deliver64_iff (s : State) (a n : Nat) : KeptShort (s.deliver64 a n).1 ↔ KeptShort s := by
  unfold State.deliver64
  repeat' first | split | simp

@[simp] theorem farWritten_iff (s : State) (a : Nat) (bytes : List (BitVec 8)) (poisoned : Bool) :
    KeptShort (s.farWritten a bytes poisoned) ↔ KeptShort s := by
  unfold State.farWritten
  repeat' first | split | simp

@[simp] theorem write_iff (s : State) (a : Nat) (bytes : List (BitVec 8)) :
    KeptShort (s.write a bytes) ↔ KeptShort s := by simp [State.write]

@[simp] theorem writeMixed_iff (s : State) (a : Nat) (bytes : List (BitVec 8)) (bad : List Bool) :
    KeptShort (s.writeMixed a bytes bad) ↔ KeptShort s := by simp [State.writeMixed]

@[simp] theorem writeNat_iff (s : State) (a n v : Nat) : KeptShort (s.writeNat a n v) ↔ KeptShort s := by simp [State.writeNat]

@[simp] theorem readEffects_iff (s : State) (a n : Nat) : KeptShort (s.readEffects a n) ↔ KeptShort s := by
  unfold State.readEffects
  repeat' first | split | simp | with_reducible refine foldl (fun _ _ => ?_) ?_

@[simp] theorem consumePoison_iff (s : State) : KeptShort s.consumePoison ↔ KeptShort s := by simp [State.consumePoison]

@[simp] theorem dropRequests_iff (s : State) (p : OpRef → Bool) :
    KeptShort (s.dropRequests p) ↔ KeptShort s := by simp [State.dropRequests]

@[simp] theorem holdHost_iff (s : State) (p : Nat) (i : Instr) :
    KeptShort (s.holdHost p i) ↔ KeptShort s := by simp [State.holdHost]

@[simp] theorem writeMirrored_iff (s : State) (a : Nat) (bytes : List (BitVec 8)) :
    KeptShort (s.writeMirrored a bytes) ↔ KeptShort s := by simp [State.writeMirrored]

@[simp] theorem writeCarried_iff (s : State) (a : Nat) (bytes : List (BitVec 8)) (bad : List Bool) :
    KeptShort (s.writeCarried a bytes bad) ↔ KeptShort s := by simp [State.writeCarried]

@[simp] theorem zeroRange_iff (s : State) (a n : Nat) : KeptShort (s.zeroRange a n) ↔ KeptShort s := by simp [State.zeroRange]

@[simp] theorem copyRange_iff (s : State) (a b n : Nat) : KeptShort (s.copyRange a b n) ↔ KeptShort s := by simp [State.copyRange]

@[simp] theorem hostWrite_iff (s : State) (p f a : Nat) (bytes : List (BitVec 8)) (ro ep : Bool) :
    KeptShort (s.hostWrite p f a bytes ro ep) ↔ KeptShort s := by simp [State.hostWrite]

@[simp] theorem hostWritesN_iff (s : State) (p f : Nat) (ro ep : Bool) (n i : Nat) (bytes : List (BitVec 8)) :
    KeptShort (s.hostWritesN p f ro ep n i bytes) ↔ KeptShort s := by
  fun_induction State.hostWritesN s p f ro ep n i bytes <;> simp [*]

@[simp] theorem hostWrites_iff (s : State) (p f a : Nat) (bytes : List (BitVec 8)) (ro ep : Bool) :
    KeptShort (s.hostWrites p f a bytes ro ep) ↔ KeptShort s := by simp [State.hostWrites]

@[simp] theorem askHost_iff (s : State) (p f n i m : Nat) : KeptShort (s.askHost p f n i m) ↔ KeptShort s := by
  fun_induction State.askHost s p f n i m <;> simp [*]

@[simp] theorem hostRead_iff (s : State) (p f a n : Nat) :
    KeptShort (s.hostRead p f a n).2 ↔ KeptShort s := by simp [State.hostRead]

@[simp] theorem sendMsix_iff (s : State) (ff v : Nat) : KeptShort (s.sendMsix ff v) ↔ KeptShort s := by simp [State.sendMsix]

/-! The Sharel send streams. -/

@[simp] theorem setSendStream_iff (s : State) (k : Nat) (x : SendStream) :
    KeptShort (s.setSendStream k x) ↔ KeptShort s := by simp [State.setSendStream]

@[simp] theorem emitFrame_iff (s : State) (h : Nat × Nat) (f : Frame) :
    KeptShort (s.emitFrame h f) ↔ KeptShort s := by simp [State.emitFrame]

@[simp] theorem pumpN_iff (s : State) (peer cls n : Nat) : KeptShort (s.pumpN peer cls n) ↔ KeptShort s := by
  fun_induction State.pumpN s peer cls n
  all_goals repeat' first | split | simp +zetaDelta [*]

@[simp] theorem pump_iff (s : State) (peer cls : Nat) : KeptShort (s.pump peer cls) ↔ KeptShort s := by simp [State.pump]

@[simp] theorem pumpAll_iff (s : State) : KeptShort s.pumpAll ↔ KeptShort s := by simp [State.pumpAll]

@[simp] theorem closeSend_iff (s : State) (k : Nat) : KeptShort (s.closeSend k) ↔ KeptShort s := by simp [State.closeSend]

@[simp] theorem queueFrame_iff (s : State) (peer cls : Nat) (owner : Option Payer) (f : Frame) :
    KeptShort (s.queueFrame peer cls owner f) ↔ KeptShort s := by
  unfold State.queueFrame
  repeat' first | split | simp | with_reducible refine of_snd ‹_› ?_

@[simp] theorem queueWriteN_iff (s : State) (peer cls : Nat) (owner : Option Payer) (fuel off : Nat)
    (bytes : List (BitVec 8)) (bad : List Bool) :
    KeptShort (s.queueWriteN peer cls owner fuel off bytes bad) ↔ KeptShort s := by
  fun_induction State.queueWriteN s peer cls owner fuel off bytes bad with
  | case1 => rfl
  | case2 => rfl
  | case3 _ _ _ _ _ _ _ _ _ ih => exact ih.trans (by simp +zetaDelta)

@[simp] theorem queueWrite_iff (s : State) (peer cls : Nat) (owner : Option Payer) (off : Nat) (bytes : List (BitVec 8))
    (bad : List Bool) : KeptShort (s.queueWrite peer cls owner off bytes bad) ↔ KeptShort s := by simp [State.queueWrite]

@[simp] theorem requestRead_iff (s : State) (who : Who) (owner : Option Payer) (cls peer off va len : Nat) :
    KeptShort (s.requestRead who owner cls peer off va len) ↔ KeptShort s := by simp [State.requestRead]

@[simp] theorem dropUnsent_iff (s : State) (n : Nat) : KeptShort (s.dropUnsent n) ↔ KeptShort s := by simp [State.dropUnsent]

/-! Translation, faults and accesses through it. -/

@[simp] theorem setTag_iff (s : State) (t : Nat) (x : Tag) : KeptShort (s.setTag t x) ↔ KeptShort s := by simp [State.setTag]

@[simp] theorem dropEntries_iff (s : State) (p : TEnt → Bool) :
    KeptShort (s.dropEntries p) ↔ KeptShort s := by simp [State.dropEntries]

@[simp] theorem beginEviction_iff (s : State) (t root : Nat) (pinned : Bool) :
    KeptShort (s.beginEviction t root pinned) ↔ KeptShort s := by simp [State.beginEviction]

@[simp] theorem needTag_iff (s : State) (root : Nat) (pinned : Bool) : KeptShort (s.needTag root pinned).1 ↔ KeptShort s := by
  unfold State.needTag
  repeat' first | split | simp

@[simp] theorem acquireTag_iff (s : State) (n : Nat) : KeptShort (s.acquireTag n).1 ↔ KeptShort s := by
  unfold State.acquireTag
  repeat' first | split | simp

@[simp] theorem bindPins_iff (s : State) : KeptShort s.bindPins ↔ KeptShort s := by simp [State.bindPins]

@[simp] theorem leftBusy_iff (s : State) (root : Nat) : KeptShort (s.leftBusy root) ↔ KeptShort s := by
  unfold State.leftBusy
  repeat' first | split | simp

@[simp] theorem touchTag_iff (s : State) (root : Nat) : KeptShort (s.touchTag root) ↔ KeptShort s := by simp [State.touchTag]

@[simp] theorem setBuffer_iff (s : State) (b : Option Nat) (l : List TEnt) : KeptShort (s.setBuffer b l) ↔ KeptShort s := by
  unfold State.setBuffer
  split <;> simp

@[simp] theorem fill_iff (s : State) (b : Option Nat) (e : TEnt) : KeptShort (s.fill b e) ↔ KeptShort s := by simp [State.fill]

theorem lookup_iff {s t : State} {c : Option Nat} {n page : Nat} {x : TEnt} (e : s.lookup c n page = some (x, t)) :
    KeptShort t ↔ KeptShort s := by
  simp only [State.lookup, Option.map_eq_some_iff] at e
  obtain ⟨_, -, e⟩ := e
  cases e
  simp

@[simp] theorem failWith_iff {α : Type} (s : State) (status : Nat) :
    KeptShort (s.after (failWith status : M α)) ↔ KeptShort s := Iff.rfl

@[simp] theorem setSwarmPort_iff (s : State) (p : Nat) (x : SwarmPort) :
    KeptShort (s.setSwarmPort p x) ↔ KeptShort s := by simp [State.setSwarmPort]

@[simp] theorem postSwarm_iff (s : State) (p : Nat) (w : Swarm) (waited : Nat) :
    KeptShort (s.postSwarm p w waited) ↔ KeptShort s := by simp [State.postSwarm]

@[simp] theorem closeSwarm_iff (s : State) (p close : Nat) :
    KeptShort (s.closeSwarm p close) ↔ KeptShort s := by simp [State.closeSwarm]

@[simp] theorem reportAtOnce_iff (s : State) (r : Req) (va level cause : Nat) (acc : AccKind) :
    KeptShort (s.reportAtOnce r va level cause acc) ↔ KeptShort s := by simp [State.reportAtOnce]

@[simp] theorem addStall_iff (s : State) (r : Req) (va level cause : Nat) (acc : AccKind) (status : Nat) :
    KeptShort (s.addStall r va level cause acc status) ↔ KeptShort s := by simp [State.addStall]

@[simp] theorem fault_iff {α : Type} (s : State) (r : Req) (va level cause : Nat) (acc : AccKind) (status : Nat) :
    KeptShort (s.after (fault r va level cause acc status : M α)) ↔ KeptShort s := by
  simp only [fault, State.after_get_bind]
  repeat' split
  all_goals simp

@[simp] theorem findLeaf_iff (s : State) (r : Req) (va : Nat) (acc : AccKind) :
    KeptShort (s.after (findLeaf r va acc)) ↔ KeptShort s := by
  unfold findLeaf
  repeat' first | split | simp | with_reducible exact lookup_iff ‹_›

@[simp] theorem fillBuffers_iff (s : State) (r : Req) (x : TEnt × Bool × Bool) :
    KeptShort (s.after (fillBuffers r x)) ↔ KeptShort s := by simp [fillBuffers]

@[simp] theorem dropRange_iff (s : State) (root va n : Nat) : KeptShort (s.dropRange root va n) ↔ KeptShort s := by
  unfold State.dropRange
  split <;> simp

@[simp] theorem putLeaves_iff (s : State) (level a e : Nat) :
    KeptShort (s.putLeaves level a e) ↔ KeptShort s := by simp [State.putLeaves]

@[simp] theorem setHomes_iff (s : State) (copy home n : Nat) :
    KeptShort (s.setHomes copy home n) ↔ KeptShort s := by simp [State.setHomes]

@[simp] theorem clearHomes_iff (s : State) (copy n : Nat) :
    KeptShort (s.clearHomes copy n) ↔ KeptShort s := by simp [State.clearHomes]

@[simp] theorem copyAtom_iff (s : State) (a b : Nat) : KeptShort (s.copyAtom a b) ↔ KeptShort s := by simp [State.copyAtom]

@[simp] theorem copyAtoms_iff (s : State) (a b n : Nat) : KeptShort (s.copyAtoms a b n) ↔ KeptShort s := by
  fun_induction State.copyAtoms s a b n <;> simp [*]

@[simp] theorem postPlacement_iff (s : State) (p w : Nat) :
    KeptShort (s.postPlacement p w) ↔ KeptShort s := by simp [State.postPlacement]

@[simp] theorem changeRecord_iff (s : State) (p w : Nat) :
    KeptShort (s.changeRecord p w) ↔ KeptShort s := by simp [State.changeRecord]

@[simp] theorem proposalRecord_iff (s : State) (p w : Nat) :
    KeptShort (s.proposalRecord p w) ↔ KeptShort s := by simp [State.proposalRecord]

@[simp] theorem postWaitingN_iff (s : State) (p n : Nat) : KeptShort (s.postWaitingN p n) ↔ KeptShort s := by
  fun_induction State.postWaitingN s p n <;> simp [*]

@[simp] theorem postWaiting_iff (s : State) (p : Nat) : KeptShort (s.postWaiting p) ↔ KeptShort s := by simp [State.postWaiting]

@[simp] theorem withdrawFolio_iff (s : State) (g root va a e home cluster : Nat) :
    KeptShort (s.withdrawFolio g root va a e home cluster) ↔ KeptShort s := by simp [State.withdrawFolio]

theorem withdrawForWrite_iff {s t : State} {root va : Nat} (e : s.withdrawForWrite root va = some t) :
    KeptShort t ↔ KeptShort s := by
  unfold State.withdrawForWrite at e
  dsimp only at e
  split at e
  · split at e
    · split at e
      · cases e; simp
      · cases e
    · cases e
  · cases e

@[simp] theorem admitted_iff (s : State) (r : Req) (va : Nat) : KeptShort (s.after (admitted r va)) ↔ KeptShort s := by
  unfold admitted
  repeat' first | split | simp | with_reducible first | assumption | refine after_bind ?_ fun _ _ _ => ?_

@[simp] theorem checked_iff (s : State) (r : Req) (va : Nat) (acc : AccKind) (x : TEnt × Bool × Bool) :
    KeptShort (s.after (checked r va acc x)) ↔ KeptShort s := by
  unfold checked
  repeat' first
    | split
    | simp
    | with_reducible first
      | assumption
      | exact nomatch ‹none = some _›
      | exact withdrawForWrite_iff ‹_›
      | refine after_bind ?_ fun _ _ _ => ?_

@[simp] theorem translate_iff (s : State) (r : Req) (va : Nat) (acc : AccKind) :
    KeptShort (s.after (translate r va acc)) ↔ KeptShort s := by
  unfold translate
  repeat' first | simp | with_reducible first | assumption | refine after_bind ?_ fun _ _ _ => ?_

@[simp] theorem readDevice_iff (s : State) (r : Req) (a n : Nat) : KeptShort (s.after (readDevice r a n)) ↔ KeptShort s := by
  unfold readDevice
  repeat' first | split | simp | with_reducible refine after_bind ?_ fun _ _ _ => ?_

@[simp] theorem writePlace_iff (s : State) (r : Req) (a : Nat) : KeptShort (s.after (writePlace r a)) ↔ KeptShort s := by
  unfold writePlace
  repeat' first | split | simp | with_reducible refine after_bind ?_ fun _ _ _ => ?_

@[simp] theorem writeDevice_iff (s : State) (r : Req) (a : Nat) (bytes : List (BitVec 8)) (bad : List Bool) :
    KeptShort (s.after (writeDevice r a bytes bad)) ↔ KeptShort s := by
  unfold writeDevice
  repeat' first | simp | with_reducible first | assumption | refine after_bind ?_ fun _ _ _ => ?_

@[simp] theorem noteUse_iff (s : State) (r : Req) (va n : Nat) (write : Bool) :
    KeptShort (s.noteUse r va n write) ↔ KeptShort s := by
  unfold State.noteUse
  split <;> simp

@[simp] theorem readPeer_iff (s : State) (r : Req) (peer off va n : Nat) :
    KeptShort (s.after (readPeer r peer off va n)) ↔ KeptShort s := by
  unfold readPeer
  repeat' first | split | simp

@[simp] theorem poisonedBytes_iff (s : State) (n : Nat) :
    KeptShort (s.after (poisonedBytes n)) ↔ KeptShort s := by simp [poisonedBytes]

@[simp] theorem poisonLeaf_iff (s : State) (va n : Nat) :
    KeptShort (s.after (poisonLeaf va n)) ↔ KeptShort s := by simp [poisonLeaf]

@[simp] theorem readPage_iff (s : State) (r : Req) (va n : Nat) (acc : AccKind) :
    KeptShort (s.after (readPage r va n acc)) ↔ KeptShort s := by
  unfold readPage
  repeat' first | split | simp | with_reducible first | assumption | refine after_bind ?_ fun _ _ _ => ?_

@[simp] theorem readN_iff (s : State) (r : Req) (acc : AccKind) (n i m : Nat) :
    KeptShort (s.after (readN r acc n i m)) ↔ KeptShort s := by
  fun_induction readN r acc n i m generalizing s
  all_goals repeat' first | simp [*] | with_reducible refine after_bind ?_ fun _ _ _ => ?_

@[simp] theorem readMarked_iff (s : State) (r : Req) (va n : Nat) : KeptShort (s.after (readMarked r va n)) ↔ KeptShort s := by
  unfold readMarked
  repeat' first | split | simp | with_reducible first | assumption | refine after_bind ?_ fun _ _ _ => ?_

@[simp] theorem readVA_iff (s : State) (r : Req) (va n : Nat) : KeptShort (s.after (readVA r va n)) ↔ KeptShort s := by
  unfold readVA
  repeat' first | simp | with_reducible first | assumption | refine after_bind ?_ fun _ _ _ => ?_

@[simp] theorem readNum_iff (s : State) (r : Req) (va n : Nat) :
    KeptShort (s.after (readNum r va n)) ↔ KeptShort s := by simp [readNum]

@[simp] theorem fetchVA_iff (s : State) (r : Req) (va n : Nat) : KeptShort (s.after (fetchVA r va n)) ↔ KeptShort s := by
  unfold fetchVA
  repeat' first | split | simp | with_reducible first | assumption | refine after_bind ?_ fun _ _ _ => ?_

@[simp] theorem notePort_iff (o : Option OpRef) (p a : Nat) (s : State) : KeptShort (notePort o p a s) ↔ KeptShort s := by
  unfold notePort
  split <;> simp

@[simp] theorem writePage_iff (s : State) (r : Req) (va : Nat) (bytes : List (BitVec 8)) (bad : List Bool) (ro : Bool) :
    KeptShort (s.after (writePage r va bytes bad ro)) ↔ KeptShort s := by
  unfold writePage
  repeat' first | split | simp | with_reducible first | assumption | refine after_bind ?_ fun _ _ _ => ?_

@[simp] theorem writeN_iff (s : State) (r : Req) (ro : Bool) (n i : Nat) (bytes : List (BitVec 8)) (marks : List Bool) :
    KeptShort (s.after (writeN r ro n i bytes marks)) ↔ KeptShort s := by
  fun_induction writeN r ro n i bytes marks generalizing s
  all_goals repeat' first | simp [*] | with_reducible refine after_bind ?_ fun _ _ _ => ?_

@[simp] theorem writeMarked_iff (s : State) (r : Req) (va : Nat) (bytes : List (BitVec 8)) (bad : List Bool) (ro : Bool) :
    KeptShort (s.after (writeMarked r va bytes bad ro)) ↔ KeptShort s := by
  unfold writeMarked
  repeat' first | split | simp | with_reducible first | assumption | refine after_bind ?_ fun _ _ _ => ?_

@[simp] theorem writeVA_iff (s : State) (r : Req) (va : Nat) (bytes : List (BitVec 8)) :
    KeptShort (s.after (writeVA r va bytes)) ↔ KeptShort s := by simp [writeVA]

@[simp] theorem closePath_iff (s : State) (n : Nat) : KeptShort (s.closePath n) ↔ KeptShort s := by simp [State.closePath]

@[simp] theorem enterPath_iff (s : State) (x : PathEntry) : KeptShort (s.after (enterPath x)) ↔ KeptShort s := by
  unfold enterPath
  repeat' first | split | simp | with_reducible refine after_bind ?_ fun _ _ _ => ?_

@[simp] theorem pathTurn_iff (s : State) (r : Req) (va : Nat) (acc : AccKind) :
    KeptShort (s.after (pathTurn r va acc)) ↔ KeptShort s := by
  unfold pathTurn
  repeat' first | split | simp | with_reducible first | assumption | refine after_bind ?_ fun _ _ _ => ?_

theorem settle {α : Type} {s u : State} {P : Prop} {m : M α} {ok : α → State → State} {bad : Nat → Nat → State → State}
    (hs : KeptShort s ↔ P) (hm : KeptShort (u.after m) ↔ P) (hok : ∀ x t, (KeptShort t ↔ P) → (KeptShort (ok x t) ↔ P))
    (hbad : ∀ st code t, (KeptShort t ↔ P) → (KeptShort (bad st code t) ↔ P)) : KeptShort (s.settle (m.run u) ok bad) ↔ P := by
  unfold State.settle
  split
  · exact hok _ _ (of_ok ‹_› hm)
  · exact hbad _ _ _ (of_error ‹_› hm)
  · exact hs
  · exact of_error ‹_› hm
  · exact (addStall_iff ..).trans hs
  · exact (requestRead_iff ..).trans hs

theorem runM {α : Type} {s : State} {P : Prop} {m : M α} {ok : α → State → State} {bad : Nat → Nat → State → State}
    (hs : KeptShort s ↔ P) (hm : KeptShort (s.after m) ↔ P) (hok : ∀ x t, (KeptShort t ↔ P) → (KeptShort (ok x t) ↔ P))
    (hbad : ∀ st code t, (KeptShort t ↔ P) → (KeptShort (bad st code t) ↔ P)) : KeptShort (s.runM m ok bad) ↔ P :=
  settle hs hm hok hbad

/-! The stitcher's spine: queues, ops and records. -/

@[simp] theorem modEntry_iff (s : State) (n e : Nat) (f : Entry → Entry) :
    KeptShort (s.modEntry n e f) ↔ KeptShort s := by simp [State.modEntry]

@[simp] theorem modQuire_iff (s : State) (n e : Nat) (f : Quire → Quire) :
    KeptShort (s.modQuire n e f) ↔ KeptShort s := by simp [State.modQuire]

@[simp] theorem modOp_iff (s : State) (o : OpRef) (f : Op → Op) : KeptShort (s.modOp o f) ↔ KeptShort s := by simp [State.modOp]

@[simp] theorem setOp_iff (s : State) (o : OpRef) (x : Op) : KeptShort (s.setOp o x) ↔ KeptShort s := by simp [State.setOp]

@[simp] theorem modSlice_iff (s : State) (o : OpRef) (k : Nat) (f : Slice → Slice) :
    KeptShort (s.modSlice o k f) ↔ KeptShort s := by simp [State.modSlice]

@[simp] theorem numberReady_iff (s : State) : KeptShort s.numberReady ↔ KeptShort s := by
  unfold State.numberReady
  repeat' first | simp | with_reducible refine foldlFst (fun _ _ => ?_) ?_

@[simp] theorem latchWaits_iff (s : State) : KeptShort s.latchWaits ↔ KeptShort s := by
  unfold State.latchWaits
  repeat' first | split | simp | with_reducible refine foldl (fun _ _ => ?_) ?_

@[simp] theorem latchBodies_iff (s : State) : KeptShort s.latchBodies ↔ KeptShort s := by
  unfold State.latchBodies
  repeat' first | split | simp | with_reducible refine foldl (fun _ _ => ?_) ?_

@[simp] theorem applySignal_iff (s : State) (g : Signal) :
    KeptShort (s.applySignal g) ↔ KeptShort s := by simp [State.applySignal]

@[simp] theorem checkWake_iff (s : State) (n : Nat) : KeptShort (s.checkWake n) ↔ KeptShort s := by
  unfold State.checkWake
  repeat' first | split | simp

@[simp] theorem ringWrite_iff (t s : State) (n va : Nat) (bytes : List (BitVec 8)) :
    KeptShort (t.after (State.ringWrite s n va bytes)) ↔ KeptShort t := by
  unfold State.ringWrite
  repeat' first | split | simp | with_reducible first | assumption | refine after_bind ?_ fun _ _ _ => ?_

/-- The state that an attempt to write a record at `s` leaves. -/
def recordLeft (s : State) : State.RecordTry → State
  | .written t => t
  | .full => s
  | .held _ t => t
  | .wait t => t

theorem recordLeft_tryRecord (s : State) (n : Nat) (r : Rec) (echo : Bool) :
    KeptShort (recordLeft s (s.tryRecord n r echo)) ↔ KeptShort s := by
  unfold State.tryRecord
  dsimp only
  repeat' first
    | split
    | with_reducible refine of_snd ‹_› ?_
    | with_reducible refine of_fst ‹_› ?_
    | with_reducible refine of_ok ‹_› ?_
    | with_reducible refine of_error ‹_› ?_
    | simp [recordLeft]

theorem of_written {s t : State} {n : Nat} {r : Rec} {echo : Bool} {P : Prop} (e : s.tryRecord n r echo = .written t)
    (h : KeptShort s ↔ P) : KeptShort t ↔ P := by
  simpa only [e, recordLeft, h] using recordLeft_tryRecord s n r echo

theorem of_held {s t : State} {n va : Nat} {r : Rec} {echo : Bool} {P : Prop} (e : s.tryRecord n r echo = .held va t)
    (h : KeptShort s ↔ P) : KeptShort t ↔ P := by
  simpa only [e, recordLeft, h] using recordLeft_tryRecord s n r echo

theorem of_wait {s t : State} {n : Nat} {r : Rec} {echo : Bool} {P : Prop} (e : s.tryRecord n r echo = .wait t)
    (h : KeptShort s ↔ P) : KeptShort t ↔ P := by
  simpa only [e, recordLeft, h] using recordLeft_tryRecord s n r echo

@[simp] theorem pool_iff (s : State) (n e : Nat) : KeptShort (s.pool n e) ↔ KeptShort s := by
  unfold State.pool
  split <;> simp

@[simp] theorem poolAll_iff (s : State) (n : Nat) : KeptShort (s.poolAll n) ↔ KeptShort s := by simp [State.poolAll]

@[simp] theorem freeGens_iff (s : State) (h : Nat) : KeptShort (s.freeGens h) ↔ KeptShort s := by
  unfold State.freeGens
  split <;> simp

@[simp] theorem unpin_iff (s : State) (p : Option (Nat × Nat)) : KeptShort (s.unpin p) ↔ KeptShort s := by
  unfold State.unpin
  repeat' first | split | simp

@[simp] theorem enterHeld_iff (s : State) (n va : Nat) : KeptShort (s.enterHeld n va) ↔ KeptShort s := by simp [State.enterHeld]

@[simp] theorem endRelease_iff (s : State) (n : Nat) : KeptShort (s.endRelease n) ↔ KeptShort s := by simp [State.endRelease]

@[simp] theorem issueN_iff (s : State) (n i : Nat) : KeptShort (s.issueN n i) ↔ KeptShort s := by
  fun_induction State.issueN s n i
  all_goals
    repeat' first
      | split
      | simp +zetaDelta [*]
      | with_reducible first | refine of_written ‹_› ?_ | refine of_held ‹_› ?_ | refine of_wait ‹_› ?_

@[simp] theorem repool_iff (s : State) : KeptShort s.repool ↔ KeptShort s := by simp [State.repool]

@[simp] theorem issue_iff (s : State) (n : Nat) : KeptShort (s.issue n) ↔ KeptShort s := by simp [State.issue]

@[simp] theorem issueAll_iff (s : State) : KeptShort s.issueAll ↔ KeptShort s := by simp [State.issueAll]

@[simp] theorem finishQuire_iff (s : State) (n e : Nat) : KeptShort (s.finishQuire n e) ↔ KeptShort s := by
  unfold State.finishQuire
  repeat' first | split | simp

@[simp] theorem wakeOps_iff (s : State) : KeptShort s.wakeOps ↔ KeptShort s := by simp [State.wakeOps]

@[simp] theorem settleQuire_iff (s : State) (n e : Nat) :
    KeptShort (s.settleQuire n e) ↔ KeptShort s := by simp [State.settleQuire]

@[simp] theorem noteUnrecovered_iff (s : State) (o : OpRef) (status : Nat) :
    KeptShort (s.noteUnrecovered o status) ↔ KeptShort s := by simp [State.noteUnrecovered]

@[simp] theorem notePoison_iff (s : State) (o : OpRef) (status : Nat) :
    KeptShort (s.notePoison o status) ↔ KeptShort s := by simp [State.notePoison]

@[simp] theorem endOp_iff (s : State) (o : OpRef) (status low high partMap : Nat) :
    KeptShort (s.endOp o status low high partMap) ↔ KeptShort s := by simp [State.endOp]

@[simp] theorem failOp_iff (s : State) (o : OpRef) (status code : Nat) :
    KeptShort (s.failOp o status code) ↔ KeptShort s := by simp [State.failOp]

@[simp] theorem dispatched_iff (s : State) (o : OpRef) (x : Op) :
    KeptShort (s.dispatched o x) ↔ KeptShort s := by simp [State.dispatched]

@[simp] theorem dispatch_iff {s : State} {o : OpRef} {code : Nat} {m : Op → Req → M Op}
    (h : ∀ y r u, KeptShort (u.after (m y r)) ↔ KeptShort u) : KeptShort (s.dispatch o code m) ↔ KeptShort s := by
  unfold State.dispatch
  repeat' first
    | split
    | simp [h]
    | with_reducible first | assumption | refine of_fst ‹_› ?_ | refine runM ?_ ?_ (fun _ _ _ => ?_) (fun _ _ _ _ => ?_)

@[simp] theorem settleSlices_iff (s : State) (o : OpRef) : KeptShort (s.settleSlices o) ↔ KeptShort s := by
  unfold State.settleSlices
  repeat' first | split | simp

/-! Doorbells, queue entries and the queue ops. -/

@[simp] theorem doorbell_iff {s : State} {ff n : Nat} {act : State → State} (h : ∀ a, KeptShort (act a) ↔ KeptShort a) :
    KeptShort (s.doorbell ff n act) ↔ KeptShort s := by simp [State.doorbell, h]

@[simp] theorem ringDoorbell_iff (s : State) (n v : Nat) :
    KeptShort (s.ringDoorbell n v) ↔ KeptShort s := by simp [State.ringDoorbell]

@[simp] theorem advanceConsumed_iff (s : State) (n v : Nat) :
    KeptShort (s.advanceConsumed n v) ↔ KeptShort s := by simp [State.advanceConsumed]

@[simp] theorem releaseHeld_iff (s : State) (n v : Nat) :
    KeptShort (s.releaseHeld n v) ↔ KeptShort s := by simp [State.releaseHeld]

@[simp] theorem take_iff (s : State) (n : Nat) (e : Entry) : KeptShort (s.take n e) ↔ KeptShort s := by simp [State.take]

@[simp] theorem takeDone_iff (s : State) (n kind seq status result : Nat) :
    KeptShort (s.takeDone n kind seq status result) ↔ KeptShort s := by simp [State.takeDone]

@[simp] theorem withEntry_iff {s : State} {n kind : Nat} {act : Nat → State → State}
    (h : ∀ a b, KeptShort (act a b) ↔ KeptShort b) : KeptShort (s.withEntry n kind act) ↔ KeptShort s := by
  unfold State.withEntry
  repeat' first
    | split
    | simp [h]
    | with_reducible first | assumption | refine of_fst ‹_› ?_ | refine runM ?_ ?_ (fun _ _ _ => ?_) (fun _ _ _ _ => ?_)

@[simp] theorem startQuire_iff (s : State) (n kind w h : Nat) (src : QSrc) (graph : Option (Nat × Nat)) :
    KeptShort (s.startQuire n kind w h src graph) ↔ KeptShort s := by
  unfold State.startQuire
  split <;> simp

@[simp] theorem submitEntry_iff (n w : Nat) (s : State) : KeptShort (State.submitEntry n w s) ↔ KeptShort s := by
  unfold State.submitEntry
  repeat' first | simp | with_reducible first | assumption | refine runM ?_ ?_ (fun _ _ _ => ?_) (fun _ _ _ _ => ?_)

@[simp] theorem readRecord_iff (s : State) (r : Req) (src : QSrc) (i : Nat) :
    KeptShort (s.after (State.readRecord r src i)) ↔ KeptShort s := by
  unfold State.readRecord
  repeat' first | split | simp | with_reducible first | assumption | refine after_bind ?_ fun _ _ _ => ?_

@[simp] theorem readRecords_iff (s : State) (r : Req) (src : QSrc) (n i : Nat) :
    KeptShort (s.after (State.readRecords r src n i)) ↔ KeptShort s := by
  fun_induction State.readRecords r src n i generalizing s
  all_goals repeat' first | simp [*] | with_reducible refine after_bind ?_ fun _ _ _ => ?_

@[simp] theorem bindEntry_iff (n w : Nat) (s : State) : KeptShort (State.bindEntry n w s) ↔ KeptShort s := by
  unfold State.bindEntry
  repeat' first
    | split
    | simp
    | with_reducible first | assumption | refine runM ?_ ?_ (fun _ _ _ => ?_) (fun _ _ _ _ => ?_)

@[simp] theorem patchEntry_iff (n w : Nat) (s : State) : KeptShort (State.patchEntry n w s) ↔ KeptShort s := by
  unfold State.patchEntry
  repeat' first
    | split
    | simp
    | with_reducible first
      | assumption
      | refine runM ?_ ?_ (fun _ _ _ => ?_) (fun _ _ _ _ => ?_)
      | refine after_bind ?_ fun _ _ _ => ?_

@[simp] theorem launchEntry_iff (n w : Nat) (s : State) : KeptShort (State.launchEntry n w s) ↔ KeptShort s := by
  unfold State.launchEntry
  repeat' first
    | split
    | simp
    | with_reducible first | assumption | refine runM ?_ ?_ (fun _ _ _ => ?_) (fun _ _ _ _ => ?_)

@[simp] theorem unbindEntry_iff (n w : Nat) (s : State) : KeptShort (State.unbindEntry n w s) ↔ KeptShort s := by
  unfold State.unbindEntry
  split <;> simp

@[simp] theorem readOp_iff (s : State) (r : Req) (v2 : Bool) (q : Quire) :
    KeptShort (s.after (State.readOp r v2 q)) ↔ KeptShort s := by
  unfold State.readOp
  repeat' first | simp | intro _ | with_reducible first | assumption | refine after_bind ?_ fun _ _ _ => ?_

@[simp] theorem readChunk_iff (s : State) (r : Req) (v2 : Bool) (n : Nat) (x : Quire) :
    KeptShort (s.after (State.readChunk r v2 n x)) ↔ KeptShort s := by
  fun_induction State.readChunk r v2 n x generalizing s
  all_goals
    repeat' first
      | split
      | simp [*]
      | with_reducible first | refine after_bind ?_ fun _ _ _ => ?_ | refine after_tryCatch ?_ fun _ _ _ => ?_

@[simp] theorem chunkPoison_iff (s : State) (old new : Quire) :
    KeptShort (s.chunkPoison old new) ↔ KeptShort s := by simp [State.chunkPoison]

@[simp] theorem rereadOp_iff (s : State) (n e i times : Nat) : KeptShort (s.rereadOp n e i times) ↔ KeptShort s := by
  unfold State.rereadOp
  repeat' first
    | split
    | simp
    | with_reducible first | assumption | refine runM ?_ ?_ (fun _ _ _ => ?_) (fun _ _ _ _ => ?_)

@[simp] theorem chunkRead_iff (s : State) (n e : Nat) (again : Option (Nat × Nat)) :
    KeptShort (s.chunkRead n e again) ↔ KeptShort s := by
  unfold State.chunkRead
  repeat' first
    | split
    | simp
    | with_reducible first | assumption | refine of_fst ‹_› ?_ | refine runM ?_ ?_ (fun _ _ _ => ?_) (fun _ _ _ _ => ?_)

@[simp] theorem barrierOp_iff (s : State) (o : OpRef) : KeptShort (s.barrierOp o) ↔ KeptShort s := by
  unfold State.barrierOp
  repeat' first | split | simp

@[simp] theorem endDispatched_iff (s : State) (o : OpRef) (code : Nat) : KeptShort (s.endDispatched o code) ↔ KeptShort s := by
  unfold State.endDispatched
  split <;> simp

@[simp] theorem nopOp_iff (s : State) (o : OpRef) : KeptShort (s.nopOp o) ↔ KeptShort s := by simp [State.nopOp]

@[simp] theorem fenceWaitOp_iff (s : State) (o : OpRef) : KeptShort (s.fenceWaitOp o) ↔ KeptShort s := by
  unfold State.fenceWaitOp
  repeat' first
    | split
    | simp
    | with_reducible first | assumption | refine dispatch_iff fun _ _ _ => ?_ | refine after_bind ?_ fun _ _ _ => ?_

@[simp] theorem fenceSignalOp_iff (s : State) (o : OpRef) : KeptShort (s.fenceSignalOp o) ↔ KeptShort s := by
  unfold State.fenceSignalOp
  repeat' first
    | split
    | simp
    | with_reducible first | assumption | refine dispatch_iff fun _ _ _ => ?_ | refine after_bind ?_ fun _ _ _ => ?_

@[simp] theorem writeFlag_iff (s : State) (x : Op) (r : Req) : KeptShort (s.after (State.writeFlag x r)) ↔ KeptShort s := by
  unfold State.writeFlag
  repeat' first | split | simp | with_reducible first | assumption | refine after_bind ?_ fun _ _ _ => ?_

@[simp] theorem withPorts_iff (s : State) (o : OpRef) (x : Op) :
    KeptShort (s.after (State.withPorts o x)) ↔ KeptShort s := by simp [State.withPorts]

@[simp] theorem hostFlagOp_iff (s : State) (o : OpRef) : KeptShort (s.hostFlagOp o) ↔ KeptShort s := by
  unfold State.hostFlagOp
  repeat' first
    | split
    | simp
    | with_reducible first | assumption | refine dispatch_iff fun _ _ _ => ?_ | refine after_bind ?_ fun _ _ _ => ?_

@[simp] theorem readBackDone_iff (s : State) (n e : Nat) (flagOp : Option Nat) :
    KeptShort (s.readBackDone n e flagOp) ↔ KeptShort s := by
  unfold State.readBackDone
  repeat' first
    | split
    | simp
    | with_reducible first | assumption | refine runM ?_ ?_ (fun _ _ _ => ?_) (fun _ _ _ _ => ?_)

@[simp] theorem postedWrite_iff (s : State) (r : Req) (n i : Nat) (bytes : List (BitVec 8)) :
    KeptShort (s.after (State.postedWrite r n i bytes)) ↔ KeptShort s := by
  fun_induction State.postedWrite r n i bytes generalizing s
  all_goals repeat' first | simp [*] | with_reducible refine after_bind ?_ fun _ _ _ => ?_

@[simp] theorem inlineOp_iff (s : State) (o : OpRef) : KeptShort (s.inlineOp o) ↔ KeptShort s := by
  unfold State.inlineOp
  repeat' first
    | split
    | simp
    | with_reducible first | assumption | refine dispatch_iff fun _ _ _ => ?_ | refine after_bind ?_ fun _ _ _ => ?_

@[simp] theorem opCompletion_iff (s : State) (o : OpRef) : KeptShort (s.opCompletion o) ↔ KeptShort s := by
  unfold State.opCompletion
  split <;> simp

@[simp] theorem fenceTimeout_iff (s : State) (o : OpRef) : KeptShort (s.fenceTimeout o) ↔ KeptShort s := by
  unfold State.fenceTimeout
  repeat' first | split | simp

@[simp] theorem statusEcho_iff (s : State) (n : Nat) : KeptShort (s.statusEcho n) ↔ KeptShort s := by
  unfold State.statusEcho
  repeat' first
    | split
    | simp
    | intro _
    | with_reducible first | refine of_written ‹_› ?_ | refine of_held ‹_› ?_ | refine of_wait ‹_› ?_

/-! The mailbox slots. -/

@[simp] theorem setMboxSlot_iff (s : State) (nn : Nat) (x : MboxSlot) :
    KeptShort (s.setMboxSlot nn x) ↔ KeptShort s := by simp [State.setMboxSlot]

@[simp] theorem mboxReply_iff (s : State) (nn : Nat) (w : MboxWait) (status : Nat) (payload : List (BitVec 8)) :
    KeptShort (s.mboxReply nn w status payload) ↔ KeptShort s := by simp [State.mboxReply]

@[simp] theorem mboxEnd_iff (s : State) (n : Nat) (reply : Bool) : KeptShort (s.mboxEnd n reply) ↔ KeptShort s := by
  unfold State.mboxEnd
  repeat' first | split | simp | with_reducible refine foldl (fun _ _ => ?_) ?_

theorem mboxAccess_iff {s t : State} {nn : Nat} {w : MboxWait} {m : M (List (BitVec 8))}
    (hm : KeptShort (s.after m) ↔ KeptShort s) (e : s.mboxAccess nn w m = some t) : KeptShort t ↔ KeptShort s := by
  unfold State.mboxAccess at e
  split at e
  · split at e <;> cases e <;> simpa using of_ok ‹_› hm
  · cases e; simpa using of_error ‹_› hm
  · cases e; simp
  · cases e

theorem mboxPerform_iff {s t : State} {nn : Nat} {w : MboxWait} (e : s.mboxPerform nn w = some t) :
    KeptShort t ↔ KeptShort s := by
  unfold State.mboxPerform at e
  dsimp only at e
  split at e
  · split at e
    · cases e; simp
    · exact mboxAccess_iff (by simp) e
  · exact mboxAccess_iff (by simp) e

@[simp] theorem mboxResume_iff (s : State) (nn : Nat) : KeptShort (s.mboxResume nn) ↔ KeptShort s := by
  unfold State.mboxResume
  repeat' first | split | simp | with_reducible refine getD (fun _ e => (mboxPerform_iff e).trans ?_) ?_

@[simp] theorem mboxFail_iff (s : State) (nn status : Nat) : KeptShort (s.mboxFail nn status) ↔ KeptShort s := by
  unfold State.mboxFail
  split <;> simp

@[simp] theorem mboxGo_iff {s : State} {ff slot kind : Nat} {g : GoWord} {payload : List (BitVec 8)}
    {act : State → Nat → MboxWait → State} (h : ∀ a b c, KeptShort (act a b c) ↔ KeptShort a) :
    KeptShort (s.mboxGo ff slot kind g payload act) ↔ KeptShort s := by
  unfold State.mboxGo
  repeat' first | split | simp [h]

@[simp] theorem mboxMemory_iff (s : State) (nn : Nat) (w : MboxWait) : KeptShort (s.mboxMemory nn w) ↔ KeptShort s := by
  unfold State.mboxMemory
  repeat' first
    | split
    | simp
    | with_reducible first | refine of_fst ‹_› ?_ | refine getD (fun _ e => (mboxPerform_iff e).trans ?_) ?_

theorem mboxGoesOn_iff {s t : State} {nn : Nat} {x : MboxSlot} (e : s.mboxGoesOn nn x = some t) :
    KeptShort t ↔ KeptShort s := by
  unfold State.mboxGoesOn at e
  split at e
  · cases e
  · split at e
    · cases e
    · split at e
      · split at e
        · cases e
        · cases e
          exact of_fst ‹_› (by simp)
      · exact (mboxPerform_iff e).trans (of_fst ‹_› (by simp))

@[simp] theorem mboxSignal_iff (s : State) (nn : Nat) (w : MboxWait) :
    KeptShort (s.mboxSignal nn w) ↔ KeptShort s := by simp [State.mboxSignal]

@[simp] theorem mboxFence_iff (s : State) (nn : Nat) (w : MboxWait) :
    KeptShort (s.mboxFence nn w) ↔ KeptShort s := by simp [State.mboxFence]

@[simp] theorem mboxQueue_iff (s : State) (nn : Nat) (w : MboxWait) :
    KeptShort (s.mboxQueue nn w) ↔ KeptShort s := by simp [State.mboxQueue]

@[simp] theorem attentionLog_iff (s : State) : KeptShort s.attentionLog ↔ KeptShort s := by
  unfold State.attentionLog
  split <;> simp

/-! Contexts. -/

@[simp] theorem noteReady_iff (old s : State) (index sub : Nat) :
    KeptShort (State.noteReady old s index sub) ↔ KeptShort s := by simp [State.noteReady]

@[simp] theorem noteAll_iff (old s : State) : KeptShort (State.noteAll old s) ↔ KeptShort s := by simp [State.noteAll]

@[simp] theorem setReady_iff (s : State) (index sub v : Nat) :
    KeptShort (s.setReady index sub v) ↔ KeptShort s := by simp [State.setReady]

@[simp] theorem ctxCreate_iff (s : State) (r : Requester) (w : Nat) : KeptShort (s.ctxCreate r w).state ↔ KeptShort s := by
  unfold State.ctxCreate
  repeat' first | split | simp

@[simp] theorem dropChanges_iff (s : State) (n : Nat) : KeptShort (s.dropChanges n) ↔ KeptShort s := by simp [State.dropChanges]

@[simp] theorem stopWork_iff (s : State) (n : Nat) : KeptShort (s.stopWork n) ↔ KeptShort s := by simp [State.stopWork]

@[simp] theorem writeRecords_iff (s : State) (n : Nat) (l : List Rec) : KeptShort (s.writeRecords n l) ↔ KeptShort s := by
  fun_induction State.writeRecords s n l
  all_goals
    repeat' first
      | simp [*]
      | with_reducible first | refine of_written ‹_› ?_ | refine of_held ‹_› ?_ | refine of_wait ‹_› ?_

@[simp] theorem beginTeardown_iff (s : State) (n : Nat) (records : Bool) :
    KeptShort (s.beginTeardown n records) ↔ KeptShort s := by simp [State.beginTeardown]

@[simp] theorem unbindAll_iff (s : State) (n : Nat) : KeptShort (s.unbindAll n) ↔ KeptShort s := by simp [State.unbindAll]

@[simp] theorem freeClusters_iff (s : State) (n : Nat) :
    KeptShort (s.freeClusters n) ↔ KeptShort s := by simp [State.freeClusters]

@[simp] theorem carryReply_iff (s : State) (r : Requester) (tag : Option Nat) (bs : List (BitVec 8)) :
    KeptShort (s.carryReply r tag bs) ↔ KeptShort s := by
  unfold State.carryReply
  split <;> simp

@[simp] theorem ctxTeardown_iff (s : State) (r : Requester) (n : Nat) (operator : Bool) :
    KeptShort (s.ctxTeardown r n operator).state ↔ KeptShort s := by
  unfold State.ctxTeardown
  repeat' first | split | simp

@[simp] theorem orphan_iff (s : State) (n : Nat) : KeptShort (s.orphan n) ↔ KeptShort s := by simp [State.orphan]

@[simp] theorem ctxOrphan_iff (s : State) (n : Nat) : KeptShort (s.ctxOrphan n).state ↔ KeptShort s := by
  unfold State.ctxOrphan
  repeat' first | split | simp

@[simp] theorem waitSwarm_iff (s : State) (p : Nat) (w : Swarm) :
    KeptShort (s.waitSwarm p w) ↔ KeptShort s := by simp [State.waitSwarm]

@[simp] theorem aheadOfOpen_iff (s : State) (p : Nat) : KeptShort (s.aheadOfOpen p) ↔ KeptShort s := by simp [State.aheadOfOpen]

@[simp] theorem repostSwarm_iff (n old new : Nat) (t : State) (w : Swarm) :
    KeptShort (State.repostSwarm n old new t w) ↔ KeptShort t := by simp [State.repostSwarm]

@[simp] theorem repostSwarms_iff (s : State) (n old new : Nat) :
    KeptShort (s.repostSwarms n old new) ↔ KeptShort s := by simp [State.repostSwarms]

@[simp] theorem ctxAttach_iff (s : State) (f w : Nat) : KeptShort (s.ctxAttach f w).state ↔ KeptShort s := by
  unfold State.ctxAttach
  repeat' first | split | simp

/-! Slices, their placement and their ends. -/

@[simp] theorem placeOn_iff (s : State) (o : OpRef) (k c : Nat) :
    KeptShort (s.placeOn o k c) ↔ KeptShort s := by simp [State.placeOn]

@[simp] theorem unservable_iff (s : State) (o : OpRef) (k : Nat) :
    KeptShort (s.unservable o k) ↔ KeptShort s := by simp [State.unservable]

@[simp] theorem placeSlice_iff (s : State) (o : OpRef) (k : Nat) : KeptShort (s.placeSlice o k) ↔ KeptShort s := by
  unfold State.placeSlice
  repeat' first | split | simp

@[simp] theorem placeAll_iff (s : State) (o : OpRef) : KeptShort (s.placeAll o) ↔ KeptShort s := by
  unfold State.placeAll
  split <;> simp

@[simp] theorem startSlice_iff (s : State) (o : OpRef) (k : Nat) : KeptShort (s.startSlice o k) ↔ KeptShort s := by
  unfold State.startSlice
  repeat' first | split | simp

@[simp] theorem stopSlice_iff (s : State) (o : OpRef) (k status low high : Nat) :
    KeptShort (s.stopSlice o k status low high) ↔ KeptShort s := by simp [State.stopSlice]

@[simp] theorem countStep_iff (s : State) (c : Nat) : KeptShort (s.countStep c) ↔ KeptShort s := by simp [State.countStep]

@[simp] theorem leaveStitcher_iff (s : State) (o : OpRef) (k c : Nat) :
    KeptShort (s.leaveStitcher o k c) ↔ KeptShort s := by simp [State.leaveStitcher]

@[simp] theorem leaveCentral_iff (s : State) (o : OpRef) (k e : Nat) :
    KeptShort (s.leaveCentral o k e) ↔ KeptShort s := by simp [State.leaveCentral]

@[simp] theorem sliceEnd_iff (s : State) (o : OpRef) (k : Nat) : KeptShort (s.sliceEnd o k) ↔ KeptShort s := by
  unfold State.sliceEnd
  repeat' first | split | simp

@[simp] theorem returnSlices_iff (s : State) (c : Nat) (p : SliceRef → Bool) :
    KeptShort (s.returnSlices c p) ↔ KeptShort s := by simp [State.returnSlices]

@[simp] theorem dropTask_iff (s : State) (n : Nat) : KeptShort (s.dropTask n) ↔ KeptShort s := by
  unfold State.dropTask
  repeat' first | split | simp

@[simp] theorem dropStalls_iff (s : State) (p : Req → Bool) :
    KeptShort (s.dropStalls p) ↔ KeptShort s := by simp [State.dropStalls]

@[simp] theorem killSlices_iff (s : State) (c : Nat) (p : SliceRef → Bool) (status low : Nat) :
    KeptShort (s.killSlices c p status low) ↔ KeptShort s := by simp [State.killSlices]

@[simp] theorem triggerSparing_iff (s : State) (c : Nat) :
    KeptShort (s.triggerSparing c) ↔ KeptShort s := by simp [State.triggerSparing]

@[simp] theorem fuseMaps_iff (s : State) : KeptShort s.fuseMaps ↔ KeptShort s := by simp [State.fuseMaps]

@[simp] theorem writeRepair_iff (s : State) : KeptShort s.writeRepair ↔ KeptShort s := by simp [State.writeRepair]

/-! The tidy cores. -/

@[simp] theorem stopTask_iff (s : State) (n status cause : Nat) : KeptShort (s.stopTask n status cause) ↔ KeptShort s := by
  unfold State.stopTask
  split <;> simp

@[simp] theorem notePassed_iff (s : State) (o : OpRef) (code sub : Nat) :
    KeptShort (s.notePassed o code sub) ↔ KeptShort s := by simp [State.notePassed]

@[simp] theorem unrestartable_iff (s : State) (n : Nat) : KeptShort (s.unrestartable n) ↔ KeptShort s := by
  unfold State.unrestartable
  repeat' first | split | simp

@[simp] theorem logWord_iff (s : State) (n off : Nat) : KeptShort (s.logWord n off) ↔ KeptShort s := by
  unfold State.logWord
  repeat' first | split | simp

@[simp] theorem undoLog_iff (s : State) (n : Nat) (t : Task) : KeptShort (s.undoLog n t) ↔ KeptShort s := by simp [State.undoLog]

@[simp] theorem coreLoad_iff (s : State) (n a k : Nat) : KeptShort (s.after (coreLoad n a k)) ↔ KeptShort s := by
  unfold coreLoad
  repeat' first | split | simp | with_reducible first | assumption | refine after_bind ?_ fun _ _ _ => ?_

@[simp] theorem storeWord_iff (s : State) (n : Nat) (t : Task) (va : Nat) (bytes : List (BitVec 8)) (ro : Bool) :
    KeptShort (s.after (storeWord n t va bytes ro)) ↔ KeptShort s := by
  unfold storeWord
  repeat' first | split | simp | with_reducible first | assumption | refine after_bind ?_ fun _ _ _ => ?_

@[simp] theorem storePiece_iff (s : State) (n a : Nat) (bytes : List (BitVec 8)) (ro : Bool) :
    KeptShort (s.after (storePiece n a bytes ro)) ↔ KeptShort s := by
  unfold storePiece
  repeat' first | split | simp

@[simp] theorem storeAll_iff (s : State) (n : Nat) (ro : Bool) (i : Nat) (l : List (Nat × List (BitVec 8))) :
    KeptShort (s.after (storeAll n ro i l)) ↔ KeptShort s := by
  fun_induction storeAll n ro i l generalizing s
  all_goals repeat' first | simp [*] | intro _ | with_reducible refine after_bind ?_ fun _ _ _ => ?_

@[simp] theorem coreStore_iff (s : State) (n a : Nat) (bytes : List (BitVec 8)) (ro : Bool) :
    KeptShort (s.after (coreStore n a bytes ro)) ↔ KeptShort s := by simp [coreStore]

@[simp] theorem noteRetry_iff (s : State) (x : At) (t : Task) :
    KeptShort (s.noteRetry x t) ↔ KeptShort s := by simp [State.noteRetry]

@[simp] theorem notePass_iff (s : State) (x : At) (t : Task) :
    KeptShort (s.notePass x t) ↔ KeptShort s := by simp [State.notePass]

@[simp] theorem tidy_iff {s : State} {x : At} {w : Nat} {legal writes : Bool} {body : Core → M Core}
    (h : ∀ a u, KeptShort (u.after (body a)) ↔ KeptShort u) : KeptShort (s.tidy x w legal writes body) ↔ KeptShort s := by
  unfold State.tidy
  repeat' first
    | split
    | simp [h]
    | with_reducible first
      | assumption
      | refine runM ?_ ?_ (fun _ _ _ => ?_) (fun _ _ _ _ => ?_)
      | refine after_bind ?_ fun _ _ _ => ?_

/-! The scalar pipe. -/

@[simp] theorem aluReg_iff (s : State) (x : At) (op : Nat) (f : Fields) :
    KeptShort (s.aluReg x op f) ↔ KeptShort s := by simp [State.aluReg]

@[simp] theorem aluImm_iff (s : State) (x : At) (op : Nat) (f : Fields) :
    KeptShort (s.aluImm x op f) ↔ KeptShort s := by simp [State.aluImm]

@[simp] theorem branch_iff (s : State) (x : At) (cond a b off : Nat) (p : Nat → Nat → Bool) :
    KeptShort (s.branch x cond a b off p) ↔ KeptShort s := by simp [State.branch]

@[simp] theorem fenceHostStep_iff (s : State) (n : Nat) : KeptShort (s.after (fenceHostStep n)) ↔ KeptShort s := by
  unfold fenceHostStep
  repeat' first | split | simp | with_reducible refine after_bind ?_ fun _ _ _ => ?_

@[simp] theorem fenceDevStep_iff (s : State) (n : Nat) : KeptShort (s.after (fenceDevStep n)) ↔ KeptShort s := by
  unfold fenceDevStep
  repeat' first | simp | intro _ | with_reducible refine after_bind ?_ fun _ _ _ => ?_

/-! The vector pipe. -/

@[simp] theorem vec_iff (s : State) (x : At) (cls op : Nat) (f : Fields) (sc legal : Bool) (g : Nat → Nat → Nat → Nat × Nat) :
    KeptShort (s.vec x cls op f sc legal g) ↔ KeptShort s := by simp [State.vec]

@[simp] theorem compare_iff (s : State) (x : At) (op : Nat) (f : Fields) :
    KeptShort (s.compare x op f) ↔ KeptShort s := by simp [State.compare]

@[simp] theorem convert_iff (s : State) (x : At) (op : Nat) (f : Fields) (legal : Bool) (wo : Nat) (src : Core → List Nat)
    (g : Nat → Nat × Nat) : KeptShort (s.convert x op f legal wo src g) ↔ KeptShort s := by simp [State.convert]

@[simp] theorem widen_iff (s : State) (x : At) (op : Nat) (f : Fields) (hi signed : Bool) :
    KeptShort (s.widen x op f hi signed) ↔ KeptShort s := by simp [State.widen]

@[simp] theorem narrowOp_iff (s : State) (x : At) (op : Nat) (f : Fields) (g : Nat → Nat → Nat × Nat) :
    KeptShort (s.narrowOp x op f g) ↔ KeptShort s := by simp [State.narrowOp]

@[simp] theorem permute_iff (s : State) (x : At) (op : Nat) (f : Fields) (g : Core → Nat → Nat → Nat) :
    KeptShort (s.permute x op f g) ↔ KeptShort s := by simp [State.permute]

@[simp] theorem reduce_iff (s : State) (x : At) (op : Nat) (f : Fields) (legal : Bool) (g : Core → Nat × Nat) :
    KeptShort (s.reduce x op f legal g) ↔ KeptShort s := by simp [State.reduce]

@[simp] theorem maskOp_iff (s : State) (x : At) (op : Nat) (f : Fields) (g : Core → BitVec 256) :
    KeptShort (s.maskOp x op f g) ↔ KeptShort s := by simp [State.maskOp]

/-! Loads, stores and atomics of the cores. -/

@[simp] theorem alignCheck_iff (s : State) (a n : Nat) :
    KeptShort (s.after (alignCheck a n)) ↔ KeptShort s := by simp [alignCheck]

@[simp] theorem loadOp_iff (s : State) (x : At) (op : Nat) (f : Fields) (signed : Bool) :
    KeptShort (s.loadOp x op f signed) ↔ KeptShort s := by
  unfold State.loadOp
  repeat' first
    | simp
    | with_reducible first | assumption | refine tidy_iff fun _ _ => ?_ | refine after_bind ?_ fun _ _ _ => ?_

@[simp] theorem storeOp_iff {s : State} {x : At} {op : Nat} {f : Fields} {ro : Bool} {first : Nat → M Unit}
    (h : ∀ a u, KeptShort (u.after (first a)) ↔ KeptShort u) : KeptShort (s.storeOp x op f ro first) ↔ KeptShort s := by
  unfold State.storeOp
  repeat' first
    | simp [h]
    | with_reducible first | assumption | refine tidy_iff fun _ _ => ?_ | refine after_bind ?_ fun _ _ _ => ?_

@[simp] theorem releaseStep_iff (s : State) (n a : Nat) : KeptShort (s.after (releaseStep n a)) ↔ KeptShort s := by
  unfold releaseStep
  repeat' first | split | simp | with_reducible first | assumption | refine after_bind ?_ fun _ _ _ => ?_

@[simp] theorem atomic_iff (s : State) (x : At) (op : Nat) (f : Fields) (legal : Bool)
    (g : Nat → Nat → Nat → Nat → Option Nat × Nat) : KeptShort (s.atomic x op f legal g) ↔ KeptShort s := by
  unfold State.atomic
  repeat' first
    | split
    | simp
    | with_reducible first | assumption | refine tidy_iff fun _ _ => ?_ | refine after_bind ?_ fun _ _ _ => ?_

@[simp] theorem atomicAlu_iff (s : State) (x : At) (op aluOp : Nat) (f : Fields) :
    KeptShort (s.atomicAlu x op aluOp f) ↔ KeptShort s := by simp [State.atomicAlu]

@[simp] theorem vectorCheck_iff (s : State) (f : Fields) (op : Nat) (ps : List (Nat × Nat)) :
    KeptShort (s.after (vectorCheck f op ps)) ↔ KeptShort s := by
  unfold vectorCheck
  repeat' first | simp | intro _ | with_reducible first | assumption | refine after_bind ?_ fun _ _ _ => ?_

@[simp] theorem loadRuns_iff (s : State) (n core : Nat) (l : List (Nat × List Nat)) :
    KeptShort (s.after (loadRuns n core l)) ↔ KeptShort s := by
  fun_induction loadRuns n core l generalizing s
  all_goals repeat' first | simp [*] | with_reducible refine after_bind ?_ fun _ _ _ => ?_

@[simp] theorem storeRuns_iff (s : State) (n core : Nat) (d : BitVec 2048) (l : List (Nat × List Nat)) :
    KeptShort (s.after (storeRuns n core d l)) ↔ KeptShort s := by simp [storeRuns]

@[simp] theorem vload_iff (s : State) (x : At) (op : Nat) (f : Fields) : KeptShort (s.vload x op f) ↔ KeptShort s := by
  unfold State.vload
  repeat' first
    | simp
    | with_reducible first | assumption | refine tidy_iff fun _ _ => ?_ | refine after_bind ?_ fun _ _ _ => ?_

@[simp] theorem vstore_iff (s : State) (x : At) (op : Nat) (f : Fields) : KeptShort (s.vstore x op f) ↔ KeptShort s := by
  unfold State.vstore
  repeat' first
    | simp
    | with_reducible first | assumption | refine tidy_iff fun _ _ => ?_ | refine after_bind ?_ fun _ _ _ => ?_

/-! Tasks of VECTOR_RUN. -/

@[simp] theorem vectorRun_iff (s : State) (o : OpRef) : KeptShort (s.vectorRun o) ↔ KeptShort s := by
  unfold State.vectorRun
  repeat' first
    | split
    | simp
    | with_reducible first | assumption | refine dispatch_iff fun _ _ _ => ?_ | refine after_bind ?_ fun _ _ _ => ?_

@[simp] theorem fetchImage_iff (s : State) (r : Req) (w : Nat) : KeptShort (s.after (State.fetchImage r w)) ↔ KeptShort s := by
  unfold State.fetchImage
  repeat' first | split | simp | with_reducible first | assumption | refine after_tryCatch ?_ fun _ _ _ => ?_

@[simp] theorem loadTask_iff (s : State) (n : Nat) (x : Op) (t : Task) :
    KeptShort (s.after (State.loadTask n x t)) ↔ KeptShort s := by
  unfold State.loadTask
  repeat' first | split | simp | with_reducible first | assumption | refine after_bind ?_ fun _ _ _ => ?_

theorem beginTask {s u : State} {n : Nat} {x : Op} {t : Task} {began : State → State} {P : Prop} (hs : KeptShort s ↔ P)
    (hu : KeptShort u ↔ P) (h : ∀ v, KeptShort (began v) ↔ KeptShort v) : KeptShort (s.beginTask u n x t began) ↔ P := by
  unfold State.beginTask
  exact settle hs (by simpa using hu) (fun _ _ e => by simpa [h] using e) fun _ _ _ e => by simpa [h] using e

@[simp] theorem takeTask_iff (s : State) (o : OpRef) (k : Nat) :
    KeptShort (s.takeTask o k) ↔ KeptShort s := by simp [State.takeTask]

@[simp] theorem useArea_iff (s : State) (cc : Nat) (o : OpRef) :
    KeptShort (s.useArea cc o) ↔ KeptShort s := by simp [State.useArea]

@[simp] theorem noteSuspect_iff (s : State) (n : Nat) (o : OpRef) (index : Nat) :
    KeptShort (s.noteSuspect n o index) ↔ KeptShort s := by simp [State.noteSuspect]

@[simp] theorem taskStart_iff (s : State) (cc : Nat) : KeptShort (s.taskStart cc) ↔ KeptShort s := by
  unfold State.taskStart
  repeat' first | split | simp | intro _ | with_reducible refine beginTask ?_ ?_ fun _ => ?_

@[simp] theorem cycleLimit_iff (s : State) (n : Nat) : KeptShort (s.cycleLimit n) ↔ KeptShort s := by
  unfold State.cycleLimit
  split <;> simp

@[simp] theorem postSuspects_iff (s : State) (n : Nat) :
    KeptShort (s.postSuspects n) ↔ KeptShort s := by simp [State.postSuspects]

@[simp] theorem runCanary_iff (s : State) (n : Nat) (first second : Bool) :
    KeptShort (s.runCanary n first second) ↔ KeptShort s := by simp [State.runCanary]

@[simp] theorem canaryRun_iff (s : State) (cc first second : Nat) :
    KeptShort (s.canaryRun cc first second) ↔ KeptShort s := by simp [State.canaryRun]

@[simp] theorem taskMove_iff (s : State) (n : Nat) (first second : Bool) :
    KeptShort (s.taskMove n first second) ↔ KeptShort s := by
  unfold State.taskMove
  repeat' first | split | simp

@[simp] theorem refetch_iff (s : State) (n : Nat) (t : Task) : KeptShort (s.refetch n t) ↔ KeptShort s := by
  unfold State.refetch
  repeat' first
    | split
    | simp
    | with_reducible first | assumption | refine runM ?_ ?_ (fun _ _ _ => ?_) (fun _ _ _ _ => ?_)

@[simp] theorem taskRestart_iff (s : State) (n : Nat) (first second parity : Bool) :
    KeptShort (s.taskRestart n first second parity) ↔ KeptShort s := by
  unfold State.taskRestart
  repeat' first | split | simp | with_reducible refine beginTask ?_ ?_ fun _ => ?_

/-! MATMUL. -/

@[simp] theorem readDesc_iff (s : State) (r : Req) (va : Nat) : KeptShort (s.after (readDesc r va)) ↔ KeptShort s := by
  unfold readDesc
  refine after_bind (by simp) fun _ _ h =>
    after_branch (after_bind (by simpa using h) fun _ _ k => ?_) (after_bind h fun _ _ k => ?_)
  all_goals
    refine after_branch (after_bind ((failWith_iff ..).trans k) fun _ _ h => ?_) ?_
    · exact h
    · exact k

@[simp] theorem readCellRuns_iff (s : State) (r : Req) (n : Nat) (l : List (Nat × List Nat)) :
    KeptShort (s.after (readCellRuns r n l)) ↔ KeptShort s := by
  fun_induction readCellRuns r n l generalizing s
  all_goals repeat' first | simp [*] | with_reducible refine after_bind ?_ fun _ _ _ => ?_

@[simp] theorem readCells_iff (s : State) (r : Req) (n : Nat) (as : List Nat) :
    KeptShort (s.after (readCells r n as)) ↔ KeptShort s := by simp [readCells]

@[simp] theorem readElems_iff (s : State) (r : Req) (d : Nat) (ixs : List (List Nat)) :
    KeptShort (s.after (readElems r d ixs)) ↔ KeptShort s := by
  unfold readElems
  repeat' first | simp | with_reducible first | assumption | refine after_bind ?_ fun _ _ _ => ?_

@[simp] theorem meetFlags_iff (s : State) (o : OpRef) (k fl : Nat) :
    KeptShort (s.meetFlags o k fl) ↔ KeptShort s := by simp [State.meetFlags]

@[simp] theorem rowEntry_iff (s : State) (r : Req) (o : OpRef) (w i : Nat) :
    KeptShort (s.after (rowEntry r o w i)) ↔ KeptShort s := by
  unfold rowEntry
  repeat' first | split | simp | with_reducible first | assumption | refine after_bind ?_ fun _ _ _ => ?_

@[simp] theorem feedRow_iff (s : State) (r : Req) (o : OpRef) (k w a i : Nat) :
    KeptShort (s.after (feedRow r o k w a i)) ↔ KeptShort s := by
  unfold feedRow
  repeat' first | simp | with_reducible first | assumption | refine after_bind ?_ fun _ _ _ => ?_

@[simp] theorem feedRows_iff (s : State) (r : Req) (o : OpRef) (k w a : Nat) (l : List Nat) :
    KeptShort (s.after (feedRows r o k w a l)) ↔ KeptShort s := by
  fun_induction feedRows r o k w a l generalizing s
  all_goals repeat' first | simp [*] | with_reducible refine after_bind ?_ fun _ _ _ => ?_

@[simp] theorem readCols_iff (s : State) (r : Req) (w b : Nat) (l : List Nat) :
    KeptShort (s.after (readCols r w b l)) ↔ KeptShort s := by
  fun_induction readCols r w b l generalizing s
  all_goals repeat' first | simp [*] | with_reducible refine after_bind ?_ fun _ _ _ => ?_

@[simp] theorem readTile_iff (s : State) (r : Req) (o : OpRef) (k w a b t : Nat) :
    KeptShort (s.after (readTile r o k w a b t)) ↔ KeptShort s := by
  unfold readTile
  repeat' first | simp | with_reducible first | assumption | refine after_bind ?_ fun _ _ _ => ?_

@[simp] theorem mergeRows_iff (s : State) (r : Req) (sb : Nat) (l : List (Nat × List Nat)) :
    KeptShort (s.after (mergeRows r sb l)) ↔ KeptShort s := by
  fun_induction mergeRows r sb l generalizing s
  all_goals repeat' first | simp [*] | with_reducible refine after_bind ?_ fun _ _ _ => ?_

@[simp] theorem writeOutRun_iff (s : State) (r : Req) (o : OpRef) (k n i m : Nat) (l : List (Nat × Nat)) :
    KeptShort (s.after (writeOutRun r o k n i m l)) ↔ KeptShort s := by
  fun_induction writeOutRun r o k n i m l generalizing s
  all_goals repeat' first | simp [*] | with_reducible refine after_bind ?_ fun _ _ _ => ?_

@[simp] theorem writeOutRuns_iff (s : State) (r : Req) (o : OpRef) (k n : Nat) (l : List (Nat × List (Nat × Nat))) :
    KeptShort (s.after (writeOutRuns r o k n l)) ↔ KeptShort s := by
  fun_induction writeOutRuns r o k n l generalizing s
  all_goals repeat' first | simp [*] | with_reducible refine after_bind ?_ fun _ _ _ => ?_

@[simp] theorem drainTile_iff (s : State) (r : Req) (w a b out : Nat) (t : TileBuf) :
    KeptShort (s.after (drainTile r w a b out t)) ↔ KeptShort s := by
  unfold drainTile
  repeat' first | split | simp | with_reducible first | assumption | refine after_bind ?_ fun _ _ _ => ?_

@[simp] theorem emptyRows_iff (s : State) (r : Req) (w m : Nat) :
    KeptShort (s.after (emptyRows r w m)) ↔ KeptShort s := by simp [emptyRows]

@[simp] theorem placeMatmul_iff (s : State) (o : OpRef) : KeptShort (s.placeMatmul o) ↔ KeptShort s := by
  unfold State.placeMatmul
  split <;> simp

@[simp] theorem matmul_iff (s : State) (o : OpRef) : KeptShort (s.matmul o) ↔ KeptShort s := by
  unfold State.matmul
  repeat' first
    | split
    | simp
    | with_reducible first | assumption | refine dispatch_iff fun _ _ _ => ?_ | refine after_bind ?_ fun _ _ _ => ?_

@[simp] theorem spoilBytes_iff (s : State) (r : Req) (a n : Nat) : KeptShort (s.spoilBytes r a n) ↔ KeptShort s := by
  unfold State.spoilBytes
  repeat' first | split | simp | with_reducible refine of_ok ‹_› ?_

@[simp] theorem scrambleStage_iff (s : State) (r : Req) (cc w : Nat) :
    KeptShort (s.scrambleStage r cc w) ↔ KeptShort s := by simp [State.scrambleStage]

@[simp] theorem firstTile_iff (s : State) (cc : Nat) (x : Op) (r : Req) :
    KeptShort (s.after (State.firstTile cc x r)) ↔ KeptShort s := by
  unfold State.firstTile
  repeat' first | split | simp | intro _ | with_reducible first | assumption | refine after_bind ?_ fun _ _ _ => ?_

@[simp] theorem endIfDone_iff (s : State) (o : OpRef) (k cc : Nat) : KeptShort (s.endIfDone o k cc) ↔ KeptShort s := by
  unfold State.endIfDone
  split <;> simp

@[simp] theorem failSlice_iff (s : State) (o : OpRef) (k cc status code : Nat) :
    KeptShort (s.failSlice o k cc status code) ↔ KeptShort s := by simp [State.failSlice]

@[simp] theorem modTiles_iff (s : State) (o : OpRef) (k : Nat) (f : List Nat → Nat → List Nat × Nat) :
    KeptShort (s.modTiles o k f) ↔ KeptShort s := by simp [State.modTiles]

@[simp] theorem askToken_iff (s : State) (cc e : Nat) (r : Ramp) :
    KeptShort (s.askToken cc e r) ↔ KeptShort s := by simp [State.askToken]

@[simp] theorem afterReplay_iff (s : State) (cc e : Nat) (o : OpRef) (k : Nat) :
    KeptShort (s.afterReplay cc e o k) ↔ KeptShort s := by simp [State.afterReplay]

@[simp] theorem noRamp_iff (s : State) (cc e : Nat) : KeptShort (s.noRamp cc e) ↔ KeptShort s := by simp [State.noRamp]

@[simp] theorem matmulTile_iff (s : State) (cc e : Nat) : KeptShort (s.matmulTile cc e) ↔ KeptShort s := by
  unfold State.matmulTile
  repeat' first
    | split
    | simp
    | intro _
    | with_reducible first
      | assumption
      | refine runM ?_ ?_ (fun _ _ _ => ?_) (fun _ _ _ _ => ?_)
      | refine after_bind ?_ fun _ _ _ => ?_

@[simp] theorem mapOut_iff (s : State) (cc e p : Nat) : KeptShort (s.mapOut cc e p) ↔ KeptShort s := by simp [State.mapOut]

@[simp] theorem passReplay1_iff (s : State) (cc e : Nat) (o : OpRef) (spends : Bool) :
    KeptShort (s.passReplay1 cc e o spends) ↔ KeptShort s := by
  unfold State.passReplay1
  repeat' first | split | simp

@[simp] theorem leaveEngineless_iff (s : State) (cc : Nat) :
    KeptShort (s.leaveEngineless cc) ↔ KeptShort s := by simp [State.leaveEngineless]

@[simp] theorem engineOut_iff (s : State) (cc e : Nat) : KeptShort (s.engineOut cc e) ↔ KeptShort s := by simp [State.engineOut]

@[simp] theorem abandonOther_iff (s : State) (cc e : Nat) (b : TileBuf) :
    KeptShort (s.abandonOther cc e b) ↔ KeptShort s := by simp [State.abandonOther]

theorem finishTile {s u : State} {cc e : Nat} {b : TileBuf} {x : Op} {foreign : Bool} {P : Prop} (hs : KeptShort s ↔ P)
    (hu : KeptShort u ↔ P) : KeptShort (s.finishTile u cc e b x foreign) ↔ P := by
  unfold State.finishTile
  exact settle hs (by simpa using hu) (fun _ _ e => by simpa using e) fun _ _ _ e => by simpa using e

@[simp] theorem sendOther_iff (s : State) (cc e : Nat) (b : TileBuf) :
    KeptShort (s.sendOther cc e b) ↔ KeptShort s := by simp [State.sendOther]

@[simp] theorem litOr_iff (s : State) (cc e : Nat) : KeptShort (s.litOr cc e) ↔ KeptShort s := by simp [State.litOr]

theorem replayHere_iff {s t : State} {cc e w : Nat} {x : TileIn} {b : TileBuf} {run1 run2 : TileRun}
    (h : (∃ b', s.replayHere cc e w x b run1 run2 = .passed b' t) ∨ s.replayHere cc e w x b run1 run2 = .other t) :
    KeptShort t ↔ KeptShort s := by
  revert h
  unfold State.replayHere
  dsimp only
  repeat' split
  all_goals
    rintro (⟨_, h⟩ | h) <;> cases h
    simp

@[simp] theorem tileDrain_iff (s : State) (cc e : Nat) (runs : List TileRun) (epilogueFails : Nat) :
    KeptShort (s.tileDrain cc e runs epilogueFails) ↔ KeptShort s := by
  unfold State.tileDrain
  repeat' first
    | split
    | simp
    | with_reducible first
      | assumption
      | refine finishTile ?_ ?_
      | exact (replayHere_iff (.inl ⟨_, ‹_›⟩)).trans (by simpa)
      | exact (replayHere_iff (.inr ‹_›)).trans (by simpa)
      | refine runM ?_ ?_ (fun _ _ _ => ?_) (fun _ _ _ _ => ?_)

@[simp] theorem replayOther_iff (s : State) (cc e : Nat) (run : TileRun) : KeptShort (s.replayOther cc e run) ↔ KeptShort s := by
  unfold State.replayOther
  repeat' first
    | split
    | simp
    | with_reducible first
      | assumption
      | refine finishTile ?_ ?_
      | refine runM ?_ ?_ (fun _ _ _ => ?_) (fun _ _ _ _ => ?_)

@[simp] theorem laneRecord_iff (s : State) (cc e : Nat) :
    KeptShort (s.laneRecord cc e) ↔ KeptShort s := by simp [State.laneRecord]

@[simp] theorem idleHoldEnd_iff (s : State) (cc e : Nat) :
    KeptShort (s.idleHoldEnd cc e) ↔ KeptShort s := by simp [State.idleHoldEnd]

@[simp] theorem rampGrant_iff (s : State) (cc e : Nat) : KeptShort (s.rampGrant cc e) ↔ KeptShort s := by
  unfold State.rampGrant
  repeat' first | split | simp

/-! Sparing. -/

@[simp] theorem oweRecord_iff (s : State) : KeptShort s.oweRecord ↔ KeptShort s := by simp [State.oweRecord]

@[simp] theorem payRecords_iff (s : State) : KeptShort s.payRecords ↔ KeptShort s := by simp [State.payRecords]

@[simp] theorem stayDegraded_iff (s : State) (c : Nat) :
    KeptShort (s.stayDegraded c) ↔ KeptShort s := by simp [State.stayDegraded]

@[simp] theorem withdrawChan_iff (s : State) (nn : Nat) :
    KeptShort (s.withdrawChan nn) ↔ KeptShort s := by simp [State.withdrawChan]

@[simp] theorem withdrawGroup_iff (s : State) (g : Nat) :
    KeptShort (s.withdrawGroup g) ↔ KeptShort s := by simp [State.withdrawGroup]

@[simp] theorem triggerChan_iff (s : State) (nn : Nat) (target : Option Nat) :
    KeptShort (s.triggerChan nn target) ↔ KeptShort s := by simp [State.triggerChan]

@[simp] theorem trySpare_iff (s : State) (c : Nat) : KeptShort (s.trySpare c) ↔ KeptShort s := by
  unfold State.trySpare
  split <;> simp

@[simp] theorem stateFailed_iff (s : State) (c : Nat) : KeptShort (s.stateFailed c) ↔ KeptShort s := by simp [State.stateFailed]

@[simp] theorem clusterSparingStart_iff (s : State) (c : Nat) (failed : Bool) :
    KeptShort (s.clusterSparingStart c failed) ↔ KeptShort s := by simp [State.clusterSparingStart]

@[simp] theorem spareTested_iff (s : State) (pass : Bool) : KeptShort (s.spareTested pass) ↔ KeptShort s := by
  unfold State.spareTested
  split <;> simp

@[simp] theorem handoverTimeout_iff (s : State) (unit : Nat) : KeptShort (s.handoverTimeout unit) ↔ KeptShort s := by
  unfold State.handoverTimeout
  split <;> simp

@[simp] theorem freshUnits_iff (s : State) (c : Nat) : KeptShort (s.freshUnits c) ↔ KeptShort s := by simp [State.freshUnits]

@[simp] theorem beginChannelMoves_iff (s : State) (c p : Nat) :
    KeptShort (s.beginChannelMoves c p) ↔ KeptShort s := by simp [State.beginChannelMoves]

@[simp] theorem endMoves_iff (s : State) : KeptShort s.endMoves ↔ KeptShort s := by
  unfold State.endMoves
  split
  · exact branch Iff.rfl (by simp)
  · rfl

@[simp] theorem handoverDone_iff (s : State) (unreadable : List Nat) : KeptShort (s.handoverDone unreadable) ↔ KeptShort s := by
  unfold State.handoverDone
  split <;> simp

@[simp] theorem sparingRestart_iff (s : State) : KeptShort s.sparingRestart ↔ KeptShort s := by
  unfold State.sparingRestart
  split <;> simp

@[simp] theorem chanStart_iff (s : State) (nn : Nat) (failed : Bool) : KeptShort (s.chanStart nn failed) ↔ KeptShort s := by
  unfold State.chanStart
  repeat' first | split | simp

@[simp] theorem chanDone_iff (s : State) (nn : Nat) (unreadable : List Nat) :
    KeptShort (s.chanDone nn unreadable) ↔ KeptShort s := by
  unfold State.chanDone
  split <;> simp

@[simp] theorem spareRequest_iff (s : State) (c : Nat) : KeptShort (s.spareRequest c).state ↔ KeptShort s := by
  unfold State.spareRequest
  split <;> simp

@[simp] theorem injectPoison_iff (s : State) (v : Nat) :
    KeptShort (s.injectPoison v).state ↔ KeptShort s := by simp [State.injectPoison]

/-! Migration of folios. -/

@[simp] theorem addRedir_iff (s : State) (o : OpRef) (f : Folio) :
    KeptShort (s.addRedir o f) ↔ KeptShort s := by simp [State.addRedir]

@[simp] theorem setRedir_iff (s : State) (o : OpRef) (i : Nat) (f : Option Folio) :
    KeptShort (s.setRedir o i f) ↔ KeptShort s := by simp [State.setRedir]

@[simp] theorem modMigrate_iff (s : State) (o : OpRef) (f : MigrateWork → MigrateWork) :
    KeptShort (s.modMigrate o f) ↔ KeptShort s := by simp [State.modMigrate]

@[simp] theorem settleMigrate_iff (s : State) (o : OpRef) : KeptShort (s.settleMigrate o) ↔ KeptShort s := by
  unfold State.settleMigrate
  split <;> simp

@[simp] theorem drainFolios_iff (s : State) (o : OpRef) : KeptShort (s.drainFolios o) ↔ KeptShort s := by simp [State.drainFolios]

@[simp] theorem failMigrate_iff (s : State) (o : OpRef) (st code : Nat) :
    KeptShort (s.failMigrate o st code) ↔ KeptShort s := by simp [State.failMigrate]

@[simp] theorem writeOutcome_iff (s : State) (r : Req) (op i k code : Nat) :
    KeptShort (s.after (writeOutcome r op i k code)) ↔ KeptShort s := by simp [writeOutcome]

@[simp] theorem endFolios_iff {s : State} {o : OpRef} {x : Op} {i k code : Nat} {after : State → State}
    (h : ∀ a, KeptShort (after a) ↔ KeptShort a) : KeptShort (s.endFolios o x i k code after) ↔ KeptShort s := by
  unfold State.endFolios
  repeat' first | simp [h] | with_reducible first | assumption | refine runM ?_ ?_ (fun _ _ _ => ?_) (fun _ _ _ _ => ?_)

@[simp] theorem tookFolio_iff (o : OpRef) (i k : Nat) (s : State) :
    KeptShort (State.tookFolio o i k s) ↔ KeptShort s := by simp [State.tookFolio]

@[simp] theorem folioStart_iff (s : State) (o : OpRef) : KeptShort (s.folioStart o) ↔ KeptShort s := by
  unfold State.folioStart
  repeat' first | split | simp

@[simp] theorem noteDrain_iff (s : State) (o : OpRef) : KeptShort (s.noteDrain o) ↔ KeptShort s := by
  unfold State.noteDrain
  split <;> simp

@[simp] theorem drainOver_iff (s : State) (o : OpRef) : KeptShort (s.drainOver o) ↔ KeptShort s := by simp [State.drainOver]

@[simp] theorem migrateRecord_iff (s : State) (o : OpRef) (kind : Nat) (f : Folio) :
    KeptShort (s.migrateRecord o kind f) ↔ KeptShort s := by
  unfold State.migrateRecord
  repeat' first | split | simp | with_reducible refine of_snd ‹_› ?_

@[simp] theorem folioDone_iff (s : State) (o : OpRef) : KeptShort (s.folioDone o) ↔ KeptShort s := by
  unfold State.folioDone
  repeat' first | split | simp

@[simp] theorem folioExpiry_iff (s : State) (o : OpRef) : KeptShort (s.folioExpiry o) ↔ KeptShort s := by
  unfold State.folioExpiry
  repeat' first | split | simp

@[simp] theorem writeOutcomes_iff (s : State) (r : Req) (op : Nat) (l : List Folio) :
    KeptShort (s.after (writeOutcomes r op l)) ↔ KeptShort s := by
  fun_induction writeOutcomes r op l generalizing s
  all_goals repeat' first | simp [*] | with_reducible refine after_bind ?_ fun _ _ _ => ?_

@[simp] theorem drainComplete_iff (s : State) (o : OpRef) : KeptShort (s.drainComplete o) ↔ KeptShort s := by
  unfold State.drainComplete
  repeat' first
    | split
    | simp
    | intro _
    | with_reducible first | assumption | refine runM ?_ ?_ (fun _ _ _ => ?_) (fun _ _ _ _ => ?_)

@[simp] theorem migrateOp_iff (s : State) (o : OpRef) (kind : Nat) : KeptShort (s.migrateOp o kind) ↔ KeptShort s := by
  unfold State.migrateOp
  repeat' first
    | split
    | simp
    | intro _
    | with_reducible first | assumption | refine dispatch_iff fun _ _ _ => ?_ | refine after_bind ?_ fun _ _ _ => ?_

/-! The memory tiers. -/

@[simp] theorem takeFrameN_iff (s : State) (nn n : Nat) : KeptShort (s.takeFrameN nn n).2 ↔ KeptShort s := by
  fun_induction State.takeFrameN s nn n <;> simp +zetaDelta [*]

@[simp] theorem takeFrame_iff (s : State) (pools : Nat) (dests : List Nat) :
    KeptShort (s.takeFrame pools dests).2 ↔ KeptShort s := by
  unfold State.takeFrame
  split <;> simp

@[simp] theorem propose_iff (s : State) (g va e : Nat) (ch : State.Change) : KeptShort (s.propose g va e ch) ↔ KeptShort s := by
  unfold State.propose
  split <;> simp

@[simp] theorem performChange_iff (s : State) (g root va a e : Nat) (ch : State.Change) :
    KeptShort (s.performChange g root va a e ch) ↔ KeptShort s := by
  unfold State.performChange
  repeat' first | split | simp | with_reducible refine of_snd ‹_› ?_

@[simp] theorem applyChange_iff (s : State) (g root va level a e : Nat) (ch : State.Change) :
    KeptShort (s.applyChange g root va level a e ch) ↔ KeptShort s := by simp [State.applyChange]

@[simp] theorem epochFolio_iff (g v : Nat) (s : State) (f : Nat) : KeptShort (State.epochFolio g v s f) ↔ KeptShort s := by
  unfold State.epochFolio
  repeat' first | split | simp

@[simp] theorem epochGrant_iff (s : State) (g : Nat) : KeptShort (s.epochGrant g) ↔ KeptShort s := by simp [State.epochGrant]

@[simp] theorem countShard_iff (s : State) (a : Nat) : KeptShort (s.countShard a) ↔ KeptShort s := by
  unfold State.countShard
  split <;> simp

@[simp] theorem moveShardFolio_iff (shard dst g root : Nat) (x : State × State.ShardMove) (f : Nat) :
    KeptShort (State.moveShardFolio shard dst g root x f).1 ↔ KeptShort x.1 := by
  unfold State.moveShardFolio
  repeat' first | split | simp

@[simp] theorem moveShardIn_iff (shard dst : Nat) (x : State × State.ShardMove) (g : Nat) :
    KeptShort (State.moveShardIn shard dst x g).1 ↔ KeptShort x.1 := by
  unfold State.moveShardIn
  repeat' first | split | simp | with_reducible refine foldlFst (fun _ _ => ?_) ?_

@[simp] theorem moveShard_iff (s : State) (k l : Nat) : KeptShort (s.moveShard k l).1 ↔ KeptShort s := by
  unfold State.moveShard
  repeat' first | split | simp | with_reducible first | refine of_fst ‹_› ?_ | refine foldlFst (fun _ _ => ?_) ?_

@[simp] theorem rebalance_iff (skip : List Nat) (load : AMap Nat) (moves : Nat) (s : State) (n : Nat) :
    KeptShort (State.rebalance skip load moves s n) ↔ KeptShort s := by
  induction n generalizing skip load moves s with
  | zero => rfl
  | succ n ih =>
    rw [State.rebalance_succ]
    split
    · rfl
    · split
      · split
        · exact (ih ..).trans (of_fst ‹_› (by simp))
        · exact of_fst ‹_› (by simp)
        · exact (ih ..).trans (of_fst ‹_› (by simp))
      · rfl

@[simp] theorem latchShards_iff (s : State) : KeptShort s.latchShards ↔ KeptShort s := by simp [State.latchShards]

@[simp] theorem countFullRing_iff (s : State) (p : Nat) :
    KeptShort (s.countFullRing p) ↔ KeptShort s := by simp [State.countFullRing]

@[simp] theorem epochEnd_iff (s : State) (sample : Nat) : KeptShort (s.epochEnd sample) ↔ KeptShort s := by simp [State.epochEnd]

@[simp] theorem remapRow_iff (s : State) (chan row : Nat) :
    KeptShort (s.remapRow chan row) ↔ KeptShort s := by simp [State.remapRow]

@[simp] theorem storeErrors_iff (s : State) (c row corrected : Nat) (bad : List Nat) :
    KeptShort (s.storeErrors c row corrected bad) ↔ KeptShort s := by simp [State.storeErrors]

@[simp] theorem channelErrors_iff (s : State) (chan row corrected : Nat) (bad : List Nat) :
    KeptShort (s.channelErrors chan row corrected bad) ↔ KeptShort s := by simp [State.channelErrors]

@[simp] theorem parityDrop_iff (s : State) (b : Option Nat) (t page : Nat) :
    KeptShort (s.parityDrop b t page) ↔ KeptShort s := by simp [State.parityDrop]

@[simp] theorem fenceErrors_iff (s : State) (fs : List Nat) :
    KeptShort (s.fenceErrors fs) ↔ KeptShort s := by simp [State.fenceErrors]

@[simp] theorem contextError_iff (s : State) (n : Nat) :
    KeptShort (s.contextError n) ↔ KeptShort s := by simp [State.contextError]

@[simp] theorem patrolScrub_iff (s : State) (chan row corrected : Nat) (bad : List Nat) :
    KeptShort (s.patrolScrub chan row corrected bad) ↔ KeptShort s := by simp [State.patrolScrub]

@[simp] theorem remapDone_iff (s : State) (chan row : Nat) :
    KeptShort (s.remapDone chan row) ↔ KeptShort s := by simp [State.remapDone]

@[simp] theorem capChannel_iff (s : State) (nn : Nat) : KeptShort (s.capChannel nn) ↔ KeptShort s := by simp [State.capChannel]

@[simp] theorem capStack_iff (s : State) (k : Nat) : KeptShort (s.capStack k) ↔ KeptShort s := by simp [State.capStack]

@[simp] theorem liftStack_iff (s : State) (k : Nat) : KeptShort (s.liftStack k) ↔ KeptShort s := by simp [State.liftStack]

/-! Fault swarms and invalidations. -/

@[simp] theorem walkAgain_iff (s : State) (l : List Stall) : KeptShort (s.walkAgain l) ↔ KeptShort s := by simp [State.walkAgain]

@[simp] theorem walkOne_iff (s : State) (w : Walk) : KeptShort (s.walkOne w) ↔ KeptShort s := by
  unfold State.walkOne
  repeat' first | split | simp | with_reducible first | refine of_ok ‹_› ?_ | refine of_error ‹_› ?_

@[simp] theorem pageWalk_iff (s : State) : KeptShort s.pageWalk ↔ KeptShort s := by
  unfold State.pageWalk
  split <;> simp

@[simp] theorem evictionDone_iff (s : State) (t : Nat) :
    KeptShort (s.evictionDone t) ↔ KeptShort s := by simp [State.evictionDone]

@[simp] theorem unpinRoot_iff (s : State) (root : Nat) : KeptShort (s.unpinRoot root) ↔ KeptShort s := by
  unfold State.unpinRoot
  split <;> simp

@[simp] theorem queueDrain_iff (s : State) (o : OpRef) : KeptShort (s.queueDrain o) ↔ KeptShort s := by simp [State.queueDrain]

@[simp] theorem invalidateEntries_iff (s : State) (o : OpRef) (x : Op) (r : Req) :
    KeptShort (s.after (State.invalidateEntries o x r)) ↔ KeptShort s := by
  unfold State.invalidateEntries
  repeat' first | split | simp | with_reducible first | assumption | refine after_bind ?_ fun _ _ _ => ?_

@[simp] theorem endEmptyDrain_iff (s : State) (o : OpRef) : KeptShort (s.endEmptyDrain o) ↔ KeptShort s := by
  unfold State.endEmptyDrain
  repeat' first | split | simp

@[simp] theorem invalidateOp_iff (s : State) (o : OpRef) (scope : Nat) : KeptShort (s.invalidateOp o scope) ↔ KeptShort s := by
  unfold State.invalidateOp
  split <;> simp

@[simp] theorem invalidateDone_iff (s : State) (o : OpRef) : KeptShort (s.invalidateDone o) ↔ KeptShort s := by
  unfold State.invalidateDone
  repeat' first | split | simp

@[simp] theorem timerClose_iff (s : State) (p : Nat) : KeptShort (s.timerClose p) ↔ KeptShort s := by simp [State.timerClose]

@[simp] theorem swarmPost_iff (s : State) (p : Nat) : KeptShort (s.swarmPost p) ↔ KeptShort s := by
  unfold State.swarmPost
  split <;> simp

@[simp] theorem failStalls_iff (s : State) (q : Stall → Bool) :
    KeptShort (s.failStalls q) ↔ KeptShort s := by simp [State.failStalls]

@[simp] theorem faultResume_iff (s : State) (p v : Nat) :
    KeptShort (s.faultResume p v) ↔ KeptShort s := by simp [State.faultResume]

@[simp] theorem ringDisabled_iff (s : State) (p : Nat) :
    KeptShort (s.ringDisabled p) ↔ KeptShort s := by simp [State.ringDisabled]

/-! COPY_TENSOR. -/

@[simp] theorem readBox_iff (s : State) (r : Req) (b : CopyBox) :
    KeptShort (s.after (readBox r b)) ↔ KeptShort s := by simp [readBox]

@[simp] theorem writeBoxRuns_iff (s : State) (r : Req) (n : Nat) (l : List (Nat × List Nat)) :
    KeptShort (s.after (writeBoxRuns r n l)) ↔ KeptShort s := by
  fun_induction writeBoxRuns r n l generalizing s
  all_goals repeat' first | simp [*] | with_reducible refine after_bind ?_ fun _ _ _ => ?_

@[simp] theorem joinNibbles_iff (s : State) (r : Req) (l : List (Nat × Option Nat × Option Nat)) :
    KeptShort (s.after (joinNibbles r l)) ↔ KeptShort s := by
  fun_induction joinNibbles r l generalizing s
  all_goals repeat' first | simp [*] | with_reducible refine after_bind ?_ fun _ _ _ => ?_

@[simp] theorem writeBox_iff (s : State) (r : Req) (b : CopyBox) (vs : List (Nat × Bool)) :
    KeptShort (s.after (writeBox r b vs)) ↔ KeptShort s := by
  unfold writeBox
  repeat' first | split | simp | with_reducible first | assumption | refine after_bind ?_ fun _ _ _ => ?_

@[simp] theorem copyReport_iff (s : State) (r : Req) (b : CopyBox) (staged : Nat) :
    KeptShort (s.after (copyReport r b staged)) ↔ KeptShort s := by
  unfold copyReport
  repeat' first | split | simp | with_reducible first | assumption | refine after_bind ?_ fun _ _ _ => ?_

@[simp] theorem stageBox_iff (s : State) (r : Req) (b : CopyBox) (cc : Nat) :
    KeptShort (s.after (stageBox r b cc)) ↔ KeptShort s := by
  unfold stageBox
  repeat' first | simp | with_reducible first | assumption | refine after_bind ?_ fun _ _ _ => ?_

@[simp] theorem runCopy_iff (s : State) (r : Req) (b : CopyBox) (staged : Option Nat) (errors : Nat) :
    KeptShort (s.after (runCopy r b staged errors)) ↔ KeptShort s := by
  unfold runCopy
  repeat' first | split | simp | with_reducible first | assumption | refine after_bind ?_ fun _ _ _ => ?_

@[simp] theorem copyWrites_iff (s : State) (o : OpRef) (b : CopyBox) (cc : Nat) (staged : Option Nat) (errors : Nat) :
    KeptShort (s.copyWrites o b cc staged errors) ↔ KeptShort s := by
  unfold State.copyWrites
  repeat' first | simp | with_reducible first | assumption | refine runM ?_ ?_ (fun _ _ _ => ?_) (fun _ _ _ _ => ?_)

@[simp] theorem copyRun_iff (s : State) (o : OpRef) (errors : Nat) : KeptShort (s.copyRun o errors) ↔ KeptShort s := by
  unfold State.copyRun
  repeat' first
    | split
    | simp
    | intro _
    | with_reducible first | assumption | refine runM ?_ ?_ (fun _ _ _ => ?_) (fun _ _ _ _ => ?_)

@[simp] theorem copyTensor_iff (s : State) (o : OpRef) (errors : Nat) : KeptShort (s.copyTensor o errors) ↔ KeptShort s := by
  unfold State.copyTensor
  repeat' first
    | split
    | simp
    | with_reducible first | assumption | refine dispatch_iff fun _ _ _ => ?_ | refine after_bind ?_ fun _ _ _ => ?_

/-! GATHER_POOL. -/

@[simp] theorem readTcb_iff (s : State) (r : Req) (va : Nat) : KeptShort (s.after (readTcb r va)) ↔ KeptShort s := by
  unfold readTcb
  repeat' first | split | simp | with_reducible first | assumption | refine after_bind ?_ fun _ _ _ => ?_

@[simp] theorem readTcbs_iff (s : State) (r : Req) (l : List Nat) : KeptShort (s.after (readTcbs r l)) ↔ KeptShort s := by
  fun_induction readTcbs r l generalizing s
  all_goals repeat' first | simp [*] | with_reducible refine after_bind ?_ fun _ _ _ => ?_

@[simp] theorem readWords_iff (s : State) (r : Req) (l : List Nat) : KeptShort (s.after (readWords r l)) ↔ KeptShort s := by
  fun_induction readWords r l generalizing s
  all_goals repeat' first | simp [*] | with_reducible refine after_bind ?_ fun _ _ _ => ?_

@[simp] theorem readGather_iff (s : State) (x : Op) (r : Req) : KeptShort (s.after (readGather x r)) ↔ KeptShort s := by
  unfold readGather
  repeat' first | split | simp | with_reducible first | assumption | refine after_bind ?_ fun _ _ _ => ?_

@[simp] theorem takeNum_iff (s : State) (r : Req) (va n : Nat) : KeptShort (s.after (takeNum r va n)) ↔ KeptShort s := by
  unfold takeNum
  repeat' first | split | simp | with_reducible first | assumption | refine after_bind ?_ fun _ _ _ => ?_

@[simp] theorem takeNums_iff (s : State) (r : Req) (n : Nat) (l : List Nat) :
    KeptShort (s.after (takeNums r n l)) ↔ KeptShort s := by
  fun_induction takeNums r n l generalizing s
  all_goals repeat' first | simp [*] | with_reducible refine after_bind ?_ fun _ _ _ => ?_

@[simp] theorem queueAtLead_iff (s : State) (o : OpRef) (k g : Nat) :
    KeptShort (s.queueAtLead o k g) ↔ KeptShort s := by simp [State.queueAtLead]

@[simp] theorem leaveLead_iff (s : State) (o : OpRef) (k g : Nat) :
    KeptShort (s.leaveLead o k g) ↔ KeptShort s := by simp [State.leaveLead]

@[simp] theorem queueSlices_iff (s : State) (o : OpRef) : KeptShort (s.queueSlices o) ↔ KeptShort s := by
  unfold State.queueSlices
  split <;> simp

@[simp] theorem setWork_iff (s : State) (o : OpRef) (k : Nat) (t : TableWork) :
    KeptShort (s.setWork o k t) ↔ KeptShort s := by simp [State.setWork]

@[simp] theorem countRedo_iff (s : State) (g : Nat) : KeptShort (s.countRedo g) ↔ KeptShort s := by simp [State.countRedo]

@[simp] theorem takeSegment_iff (s : State) (r : Req) (w b tcb lo hi fuel : Nat) (t : TableWork) :
    KeptShort (s.after (takeSegment r w b tcb lo hi fuel t)) ↔ KeptShort s := by
  induction fuel generalizing s t with
  | zero => rfl
  | succ fuel ih =>
    rw [takeSegment]
    repeat' first | split | simp [ih] | with_reducible first | assumption | refine after_bind ?_ fun _ _ _ => ?_

@[simp] theorem gatherIntake_iff (s : State) (r : Req) (w b tcb : Nat) (offs : List Nat) (k : Nat) (t : TableWork) :
    KeptShort (s.after (gatherIntake r w b tcb offs k t)) ↔ KeptShort s := by
  unfold gatherIntake
  repeat' first | split | simp | with_reducible first | assumption | refine after_bind ?_ fun _ _ _ => ?_

@[simp] theorem dropRows_iff (s : State) (o : OpRef) (k : Nat) :
    KeptShort (s.dropRows o k) ↔ KeptShort s := by simp [State.dropRows]

@[simp] theorem redoWork_iff (s : State) (o : OpRef) (k g : Nat) (t : TableWork) :
    KeptShort (s.redoWork o k g t) ↔ KeptShort s := by simp [State.redoWork]

@[simp] theorem countIntake_iff (s : State) (o : OpRef) (g positions segments skipped : Nat) :
    KeptShort (s.countIntake o g positions segments skipped) ↔ KeptShort s := by simp [State.countIntake]

@[simp] theorem countTaken_iff (s : State) (o : OpRef) (g : Nat) (old t : TableWork) :
    KeptShort (s.countTaken o g old t) ↔ KeptShort s := by simp [State.countTaken]

@[simp] theorem startGather_iff (s : State) (o : OpRef) (k errors : Nat) :
    KeptShort (s.startGather o k errors) ↔ KeptShort s := by
  unfold State.startGather
  repeat' first
    | split
    | simp
    | with_reducible first | assumption | refine runM ?_ ?_ (fun _ _ _ => ?_) (fun _ _ _ _ => ?_)

@[simp] theorem checkFailed_iff (s : State) (o : OpRef) (g a : Nat) :
    KeptShort (s.checkFailed o g a) ↔ KeptShort s := by simp [State.checkFailed]

@[simp] theorem rowHome_iff (s : State) (r : Req) (va : Nat) (acc : AccKind) :
    KeptShort (s.after (rowHome r va acc)) ↔ KeptShort s := by
  unfold rowHome
  repeat' first | split | simp | with_reducible first | assumption | refine after_bind ?_ fun _ _ _ => ?_

@[simp] theorem readRow_iff (s : State) (r : Req) (tcb row : Nat) (replica : Option Nat) :
    KeptShort (s.after (readRow r tcb row replica)) ↔ KeptShort s := by
  unfold readRow
  repeat' first | split | simp | intro _ | with_reducible first | assumption | refine after_bind ?_ fun _ _ _ => ?_

@[simp] theorem rowDone_iff (s : State) (o : OpRef) (k n : Nat) (vals : List Nat) (cause : Option Nat) (near : Nat) (made : Bool) :
    KeptShort (s.rowDone o k n vals cause near made) ↔ KeptShort s := by simp [State.rowDone]

@[simp] theorem fetchRow_iff (s : State) (o : OpRef) (k : Nat) : KeptShort (s.fetchRow o k) ↔ KeptShort s := by
  unfold State.fetchRow
  repeat' first
    | split
    | simp
    | with_reducible first | assumption | refine runM ?_ ?_ (fun _ _ _ => ?_) (fun _ _ _ _ => ?_)

@[simp] theorem writeVectors_iff (s : State) (r : Req) (l : List (Nat × List (BitVec 8))) :
    KeptShort (s.after (writeVectors r l)) ↔ KeptShort s := by
  fun_induction writeVectors r l generalizing s
  all_goals repeat' first | simp [*] | with_reducible refine after_bind ?_ fun _ _ _ => ?_

@[simp] theorem writeSides_iff {s : State} {mask report : M Unit} (hm : ∀ t : State, KeptShort (t.after mask) ↔ KeptShort t)
    (hr : ∀ t : State, KeptShort (t.after report) ↔ KeptShort t) : KeptShort (s.after (writeSides mask report)) ↔ KeptShort s := by
  unfold writeSides
  refine after_bind (by simp [hm]) fun _ _ h => after_bind (by simpa [hr] using h) fun _ _ h => ?_
  simpa using h

@[simp] theorem finishGather_iff (s : State) (lead r : Req) (x : Op) :
    KeptShort (s.after (finishGather lead r x)) ↔ KeptShort s := by
  unfold finishGather
  repeat' first | simp | with_reducible first | assumption | refine after_bind ?_ fun _ _ _ => ?_

@[simp] theorem countParts_iff (s : State) (o : OpRef) (stats : List Nat) (status : Nat) :
    KeptShort (s.countParts o stats status) ↔ KeptShort s := by simp [State.countParts]

@[simp] theorem settleTables_iff (s : State) (o : OpRef) (fail : Option Nat) :
    KeptShort (s.settleTables o fail) ↔ KeptShort s := by
  unfold State.settleTables
  split <;> simp

@[simp] theorem endGather_iff (s : State) (o : OpRef) : KeptShort (s.endGather o) ↔ KeptShort s := by
  unfold State.endGather
  repeat' first
    | split
    | simp
    | with_reducible first | assumption | refine runM ?_ ?_ (fun _ _ _ => ?_) (fun _ _ _ _ => ?_)

@[simp] theorem endTable_iff (s : State) (o : OpRef) (k g status : Nat) :
    KeptShort (s.endTable o k g status) ↔ KeptShort s := by simp [State.endTable]

@[simp] theorem deliver_iff (s : State) (o : OpRef) (k errors : Nat) : KeptShort (s.deliver o k errors) ↔ KeptShort s := by
  unfold State.deliver
  repeat' first
    | split
    | simp
    | intro _
    | with_reducible first | assumption | refine runM ?_ ?_ (fun _ _ _ => ?_) (fun _ _ _ _ => ?_)

/-! UPDATE_ROWS, REPLACE and the Hive's rows. -/

@[simp] theorem readUpdate_iff (s : State) (x : Op) (r : Req) : KeptShort (s.after (readUpdate x r)) ↔ KeptShort s := by
  unfold readUpdate
  repeat' first | split | simp | with_reducible first | assumption | refine after_bind ?_ fun _ _ _ => ?_

@[simp] theorem takeGrad_iff (s : State) (r : Req) (w tcb entry i : Nat) :
    KeptShort (s.after (takeGrad r w tcb entry i)) ↔ KeptShort s := by
  unfold takeGrad
  repeat' first | split | simp | with_reducible first | assumption | refine after_bind ?_ fun _ _ _ => ?_

@[simp] theorem combine_iff (s : State) (r : Req) (w b tcb entry lo hi n : Nat) (x : TableWork) :
    KeptShort (s.after (combine r w b tcb entry lo hi n x)) ↔ KeptShort s := by
  fun_induction combine r w b tcb entry lo hi n x generalizing s
  all_goals repeat' first | split | simp [*] | with_reducible refine after_bind ?_ fun _ _ _ => ?_

@[simp] theorem updateIntake_iff (s : State) (r : Req) (w b tcb entry lo hi : Nat) (t : TableWork) :
    KeptShort (s.after (updateIntake r w b tcb entry lo hi t)) ↔ KeptShort s := by
  unfold updateIntake
  repeat' first | split | simp | with_reducible first | assumption | refine after_bind ?_ fun _ _ _ => ?_

@[simp] theorem slotWrite_iff (s : State) (a n : Nat) (bytes : List (BitVec 8)) :
    KeptShort (s.slotWrite a n bytes) ↔ KeptShort s := by simp [State.slotWrite]

@[simp] theorem writeReplicas_iff (s : State) (slot n : Nat) (bytes : List (BitVec 8)) :
    KeptShort (s.writeReplicas slot n bytes) ↔ KeptShort s := by simp [State.writeReplicas]

@[simp] theorem mirrorRow_iff (s : State) (tcb row owner : Nat) (bytes : List (BitVec 8)) :
    KeptShort (s.mirrorRow tcb row owner bytes).2 ↔ KeptShort s := by
  unfold State.mirrorRow
  split <;> simp

@[simp] theorem countRowWrite_iff (s : State) (owner a : Nat) :
    KeptShort (s.countRowWrite owner a) ↔ KeptShort s := by simp [State.countRowWrite]

@[simp] theorem nonFiniteRow_iff (s : State) (o : OpRef) (g : Nat) (yes : Bool) :
    KeptShort (s.nonFiniteRow o g yes) ↔ KeptShort s := by simp [State.nonFiniteRow]

@[simp] theorem queueUpdate_iff (s : State) (w : Nat) (h : HeldUpdate) :
    KeptShort (s.queueUpdate w h) ↔ KeptShort s := by simp [State.queueUpdate]

@[simp] theorem freeUpdates_iff (s : State) (p : HeldUpdate → Bool) :
    KeptShort (s.freeUpdates p) ↔ KeptShort s := by simp [State.freeUpdates]

@[simp] theorem rowRmw_iff (s : State) (r : Req) (w tcb g : Nat) (p : RowFetch) (lfsr : Nat) (lost : Bool) :
    KeptShort (s.after (rowRmw r w tcb g p lfsr lost)) ↔ KeptShort s := by
  unfold rowRmw
  repeat' first | split | simp | with_reducible first | assumption | refine after_bind ?_ fun _ _ _ => ?_

@[simp] theorem endUpdate_iff (s : State) (o : OpRef) (k : Nat) : KeptShort (s.endUpdate o k) ↔ KeptShort s := by
  unfold State.endUpdate
  repeat' first
    | split
    | simp
    | intro _
    | with_reducible first | assumption | refine runM ?_ ?_ (fun _ _ _ => ?_) (fun _ _ _ _ => ?_)

@[simp] theorem updateDone_iff (s : State) (o : OpRef) (k n : Nat) (positions : List Nat) (cause : Option Nat) (mirrors : Nat) :
    KeptShort (s.updateDone o k n positions cause mirrors) ↔ KeptShort s := by simp [State.updateDone]

@[simp] theorem updateRow_iff (s : State) (o : OpRef) (k errors : Nat) : KeptShort (s.updateRow o k errors) ↔ KeptShort s := by
  unfold State.updateRow
  repeat' first
    | split
    | simp
    | intro _
    | with_reducible first | assumption | refine runM ?_ ?_ (fun _ _ _ => ?_) (fun _ _ _ _ => ?_)

@[simp] theorem startUpdate_iff (s : State) (o : OpRef) (k errors : Nat) :
    KeptShort (s.startUpdate o k errors) ↔ KeptShort s := by
  unfold State.startUpdate
  repeat' first
    | split
    | simp
    | with_reducible first | assumption | refine runM ?_ ?_ (fun _ _ _ => ?_) (fun _ _ _ _ => ?_)

@[simp] theorem finishUpdate_iff (s : State) (r : Req) (x : Op) :
    KeptShort (s.after (finishUpdate r x)) ↔ KeptShort s := by simp [finishUpdate]

@[simp] theorem finishUpdates_iff (s : State) (o : OpRef) : KeptShort (s.finishUpdates o) ↔ KeptShort s := by
  unfold State.finishUpdates
  repeat' first
    | split
    | simp
    | with_reducible first | assumption | refine runM ?_ ?_ (fun _ _ _ => ?_) (fun _ _ _ _ => ?_)

@[simp] theorem readReplace_iff (s : State) (x : Op) (r : Req) : KeptShort (s.after (readReplace x r)) ↔ KeptShort s := by
  unfold readReplace
  repeat' first | split | simp | with_reducible first | assumption | refine after_bind ?_ fun _ _ _ => ?_

@[simp] theorem readUpper_iff (s : State) (r : Req) (va : Nat) :
    KeptShort (s.after (readUpper r va)) ↔ KeptShort s := by simp [readUpper]

@[simp] theorem replaceHome_iff (s : State) (rr : Req) (o : OpRef) (w tcb g row : Nat) :
    KeptShort (s.after (replaceHome rr o w tcb g row)) ↔ KeptShort s := by
  unfold replaceHome
  repeat' first | split | simp | with_reducible first | assumption | refine after_bind ?_ fun _ _ _ => ?_

@[simp] theorem replaceErrors_iff (s : State) (o : OpRef) (g errors : Nat) :
    KeptShort (s.after (replaceErrors o g errors)) ↔ KeptShort s := by
  unfold replaceErrors
  repeat' first | split | simp | with_reducible first | assumption | refine after_bind ?_ fun _ _ _ => ?_

@[simp] theorem replaceWrite_iff (s : State) (rr : Req) (o : OpRef) (tcb g item a at_ : Nat) (new : List (BitVec 8)) (odd : Bool) :
    KeptShort (s.after (replaceWrite rr o tcb g item a at_ new odd)) ↔ KeptShort s := by
  unfold replaceWrite
  repeat' first | simp | with_reducible first | assumption | refine after_bind ?_ fun _ _ _ => ?_

@[simp] theorem replaceItem_iff (s : State) (r rr : Req) (o : OpRef) (w tcb g k item lfsr errors : Nat) :
    KeptShort (s.after (replaceItem r rr o w tcb g k item lfsr errors)) ↔ KeptShort s := by
  unfold replaceItem
  repeat' first | split | simp | with_reducible first | assumption | refine after_bind ?_ fun _ _ _ => ?_

@[simp] theorem replaceItems_iff (s : State) (r rr : Req) (o : OpRef) (w tcb g : Nat) (errors : List (Nat × Nat))
    (e : ItemsEnd) (l : List (Nat × Nat)) :
    KeptShort (s.after (replaceItems r rr o w tcb g errors e l)) ↔ KeptShort s := by
  induction l generalizing s e with
  | nil => rfl
  | cons x l ih =>
    rw [replaceItems]
    repeat' first | split | simp [ih] | with_reducible first | assumption | refine after_bind ?_ fun _ _ _ => ?_

@[simp] theorem itemsReport_iff (s : State) (r : Req) (w : Nat) (e : ItemsEnd) :
    KeptShort (s.after (itemsReport r w e)) ↔ KeptShort s := by
  unfold itemsReport
  repeat' first | split | simp | with_reducible first | assumption | refine after_bind ?_ fun _ _ _ => ?_

@[simp] theorem runReplace_iff (s : State) (r rr spine : Req) (o : OpRef) (w tcb g : Nat) (errors : List (Nat × Nat))
    (items : List Nat) : KeptShort (s.after (runReplace r rr spine o w tcb g errors items)) ↔ KeptShort s := by
  unfold runReplace
  repeat' first | split | simp | with_reducible first | assumption | refine after_bind ?_ fun _ _ _ => ?_

@[simp] theorem settleItems_iff (s : State) (o : OpRef) (n : Nat) (fails : List (Nat × Nat)) (fail : Option Nat) :
    KeptShort (s.settleItems o n fails fail) ↔ KeptShort s := by simp [State.settleItems]

@[simp] theorem dispatchLead_iff {s : State} {o : OpRef} {code : Nat} {m : Op → Req → M Op}
    (h : ∀ a b u, KeptShort (u.after (m a b)) ↔ KeptShort u) :
    KeptShort (s.dispatchLead o code m) ↔ KeptShort s := by simp [State.dispatchLead, h]

@[simp] theorem failAtLead_iff (s : State) (o : OpRef) (g st code : Nat) :
    KeptShort (s.failAtLead o g st code) ↔ KeptShort s := by simp [State.failAtLead]

@[simp] theorem replace_iff (s : State) (o : OpRef) (errors : List (Nat × Nat)) :
    KeptShort (s.replace o errors) ↔ KeptShort s := by
  unfold State.replace
  repeat' first
    | split
    | simp
    | with_reducible first | assumption | refine runM ?_ ?_ (fun _ _ _ => ?_) (fun _ _ _ _ => ?_)

@[simp] theorem admitItem_iff (s : State) (rr : Req) (o : OpRef) (tcb g item : Nat) :
    KeptShort (s.after (admitItem rr o tcb g item)) ↔ KeptShort s := by
  unfold admitItem
  repeat' first | split | simp | with_reducible first | assumption | refine after_bind ?_ fun _ _ _ => ?_

@[simp] theorem admitItems_iff (s : State) (rr : Req) (o : OpRef) (tcb g : Nat) (x : ItemsEnd) (l : List (Nat × Nat)) :
    KeptShort (s.after (admitItems rr o tcb g x l)) ↔ KeptShort s := by
  fun_induction admitItems rr o tcb g x l generalizing s
  all_goals repeat' first | split | simp [*] | with_reducible refine after_bind ?_ fun _ _ _ => ?_

@[simp] theorem admitRows_iff (s : State) (o : OpRef) : KeptShort (s.admitRows o) ↔ KeptShort s := by
  unfold State.admitRows
  repeat' first
    | split
    | simp
    | with_reducible first
      | assumption
      | refine runM ?_ ?_ (fun _ _ _ => ?_) (fun _ _ _ _ => ?_)
      | refine after_bind ?_ fun _ _ _ => ?_

theorem evictItem_iff {s t : State} {o : OpRef} {tcb item : Nat} (e : s.evictItem o tcb item = some t) :
    KeptShort t ↔ KeptShort s := by
  unfold State.evictItem at e
  split at e
  · cases e
  · split at e <;> cases e
    simp

@[simp] theorem endEvict_iff (s : State) (o : OpRef) : KeptShort (s.endEvict o) ↔ KeptShort s := by
  unfold State.endEvict
  repeat' first
    | split
    | simp
    | with_reducible first | assumption | refine runM ?_ ?_ (fun _ _ _ => ?_) (fun _ _ _ _ => ?_)

@[simp] theorem evict_iff (s : State) (o : OpRef) : KeptShort (s.evict o) ↔ KeptShort s := by
  unfold State.evict
  repeat' first | split | simp | with_reducible first | exact evictItem_iff ‹_› | refine foldlFst (fun _ _ => ?_) ?_

@[simp] theorem slotFree_iff (s : State) (entry : Nat) : KeptShort (s.slotFree entry) ↔ KeptShort s := by
  unfold State.slotFree
  repeat' first | split | simp

@[simp] theorem readMark_iff (s : State) (x : Op) (r : Req) : KeptShort (s.after (readMark x r)) ↔ KeptShort s := by
  unfold readMark
  repeat' first | split | simp | with_reducible first | assumption | refine after_bind ?_ fun _ _ _ => ?_

@[simp] theorem runMark_iff (s : State) (r : Req) (w tcb : Nat) : KeptShort (s.after (runMark r w tcb)) ↔ KeptShort s := by
  unfold runMark
  repeat' first | split | simp | with_reducible first | assumption | refine after_bind ?_ fun _ _ _ => ?_

@[simp] theorem rebindMark_iff (s : State) (o : OpRef) (a : Nat) : KeptShort (s.rebindMark o a) ↔ KeptShort s := by
  unfold State.rebindMark
  repeat' first
    | split
    | simp
    | with_reducible first | assumption | refine runM ?_ ?_ (fun _ _ _ => ?_) (fun _ _ _ _ => ?_)

/-! Streams. -/

@[simp] theorem readList_iff (s : State) (r : Req) (w va n before : Nat) :
    KeptShort (s.after (readList r w va n before)) ↔ KeptShort s := by
  unfold readList
  repeat' first
    | split
    | simp
    | with_reducible first
      | assumption
      | refine after_bind ?_ fun _ _ _ => ?_
      | refine after_tryCatch ?_ fun _ _ _ => ?_

@[simp] theorem readStream_iff (s : State) (x : Op) (r : Req) : KeptShort (s.after (readStream x r)) ↔ KeptShort s := by
  unfold readStream
  repeat' first | split | simp | with_reducible first | assumption | refine after_bind ?_ fun _ _ _ => ?_

@[simp] theorem streamPage_iff (s : State) (r : Req) (va n : Nat) : KeptShort (s.after (streamPage r va n)) ↔ KeptShort s := by
  unfold streamPage
  repeat' first | split | simp | with_reducible first | assumption | refine after_bind ?_ fun _ _ _ => ?_

@[simp] theorem streamRow_iff (s : State) (r : Req) (n i m : Nat) : KeptShort (s.after (streamRow r n i m)) ↔ KeptShort s := by
  fun_induction streamRow r n i m generalizing s
  all_goals repeat' first | simp [*] | with_reducible refine after_bind ?_ fun _ _ _ => ?_

@[simp] theorem streamRows_iff (s : State) (r : Req) (len : Nat) (l : List Nat) :
    KeptShort (s.after (streamRows r len l)) ↔ KeptShort s := by
  fun_induction streamRows r len l generalizing s
  all_goals repeat' first | simp [*] | with_reducible refine after_bind ?_ fun _ _ _ => ?_

@[simp] theorem writeRows_iff (s : State) (r : Req) (l : List (Nat × List (BitVec 8) × List Bool)) :
    KeptShort (s.after (writeRows r l)) ↔ KeptShort s := by
  fun_induction writeRows r l generalizing s
  all_goals repeat' first | simp [*] | with_reducible refine after_bind ?_ fun _ _ _ => ?_

@[simp] theorem copyRows_iff (s : State) (r : Req) (b dst dstPitch : Nat) (lost : Bool) (writing : List (Nat × Nat × Nat × Nat)) :
    KeptShort (s.after (copyRows r b dst dstPitch lost writing)) ↔ KeptShort s := by
  unfold copyRows
  repeat' first | split | simp | intro _ | with_reducible first | assumption | refine after_bind ?_ fun _ _ _ => ?_

@[simp] theorem ringPages_iff (s : State) (r : Req) (n i : Nat) : KeptShort (s.after (ringPages r n i)) ↔ KeptShort s := by
  fun_induction ringPages r n i generalizing s
  all_goals repeat' first | split | simp [*] | with_reducible refine after_bind ?_ fun _ _ _ => ?_

@[simp] theorem beginStream_iff (s : State) (o : OpRef) (y : Slice) :
    KeptShort (s.beginStream o y) ↔ KeptShort s := by simp [State.beginStream]

@[simp] theorem blockDone_iff (s : State) (o : OpRef) (w : StreamWork) :
    KeptShort (s.blockDone o w) ↔ KeptShort s := by simp [State.blockDone]

@[simp] theorem blockFails_iff (s : State) (o : OpRef) (k status low : Nat) :
    KeptShort (s.blockFails o k status low) ↔ KeptShort s := by simp [State.blockFails]

@[simp] theorem blockReplayed_iff (s : State) (o : OpRef) (nn errors : Nat) :
    KeptShort (s.blockReplayed o nn errors) ↔ KeptShort s := by simp [State.blockReplayed]

@[simp] theorem runCopyBlock_iff (s : State) (o : OpRef) (errors : Nat) : KeptShort (s.runCopyBlock o errors) ↔ KeptShort s := by
  unfold State.runCopyBlock
  repeat' first
    | split
    | simp
    | with_reducible first | assumption | refine runM ?_ ?_ (fun _ _ _ => ?_) (fun _ _ _ _ => ?_)

@[simp] theorem runRingBlock_iff (s : State) (o : OpRef) (errors : Nat) : KeptShort (s.runRingBlock o errors) ↔ KeptShort s := by
  unfold State.runRingBlock
  repeat' first
    | split
    | simp
    | intro _
    | with_reducible first
      | assumption
      | refine runM ?_ ?_ (fun _ _ _ => ?_) (fun _ _ _ _ => ?_)
      | refine after_bind ?_ fun _ _ _ => ?_

@[simp] theorem runWaitBlock_iff (s : State) (o : OpRef) : KeptShort (s.runWaitBlock o) ↔ KeptShort s := by
  unfold State.runWaitBlock
  split <;> simp

@[simp] theorem runSignalBlock_iff (s : State) (o : OpRef) : KeptShort (s.runSignalBlock o) ↔ KeptShort s := by
  unfold State.runSignalBlock
  split <;> simp

@[simp] theorem runChainBlock_iff (s : State) (o : OpRef) : KeptShort (s.runChainBlock o) ↔ KeptShort s := by
  unfold State.runChainBlock
  repeat' first
    | split
    | simp
    | with_reducible first | assumption | refine runM ?_ ?_ (fun _ _ _ => ?_) (fun _ _ _ _ => ?_)

@[simp] theorem streamOp_iff (s : State) (o : OpRef) : KeptShort (s.streamOp o) ↔ KeptShort s := by
  unfold State.streamOp
  repeat' first | split | simp

/-! The arbiters. -/

@[simp] theorem setArb_iff (s : State) (kk inst : Nat) (x : Arb) :
    KeptShort (s.setArb kk inst x) ↔ KeptShort s := by simp [State.setArb]

@[simp] theorem staleArbs_iff (s : State) (kk : Nat) : KeptShort (s.staleArbs kk) ↔ KeptShort s := by simp [State.staleArbs]

@[simp] theorem arbRound_iff (s : State) (kk inst : Nat) (arrivals : List Arrival) :
    KeptShort (s.arbRound kk inst arrivals) ↔ KeptShort s := by simp [State.arbRound]

@[simp] theorem grantEnd_iff (s : State) (kk inst beats : Nat) (arrivals : List Arrival) :
    KeptShort (s.grantEnd kk inst beats arrivals) ↔ KeptShort s := by
  unfold State.grantEnd
  repeat' first | split | simp

/-! Context switches and cluster moves. -/

@[simp] theorem clearUnits_iff (s : State) (c n : Nat) : KeptShort (s.clearUnits c n) ↔ KeptShort s := by simp [State.clearUnits]

@[simp] theorem putWords_iff (s : State) (a n len : Nat) (l : AMap Nat) :
    KeptShort (s.putWords a n len l) ↔ KeptShort s := by simp [State.putWords]

@[simp] theorem coreOut_iff (s : State) (a : Nat) (c : Core) : KeptShort (s.coreOut a c) ↔ KeptShort s := by simp [State.coreOut]

@[simp] theorem tilesOut_iff (s : State) (a : Nat) (e : Engine) : KeptShort (s.tilesOut a e) ↔ KeptShort s := by
  unfold State.tilesOut
  split <;> simp

@[simp] theorem saveOut_iff (s : State) (c n k : Nat) : KeptShort (s.saveOut c n k) ↔ KeptShort s := by simp [State.saveOut]

@[simp] theorem restoreUnits_iff (s : State) (c a : Nat) (v : Saved) :
    KeptShort (s.restoreUnits c a v) ↔ KeptShort s := by simp [State.restoreUnits]

@[simp] theorem switchOut_iff (s : State) (c : Nat) : KeptShort (s.switchOut c) ↔ KeptShort s := by
  unfold State.switchOut
  repeat' first | split | simp

@[simp] theorem switchIn_iff (s : State) (c : Nat) : KeptShort (s.switchIn c) ↔ KeptShort s := by
  unfold State.switchIn
  repeat' first | split | simp

@[simp] theorem beginMove_iff (s : State) (c old : Nat) : KeptShort (s.beginMove c old) ↔ KeptShort s := by simp [State.beginMove]

@[simp] theorem adoptCluster_iff (s : State) (c : Nat) :
    KeptShort (s.adoptCluster c) ↔ KeptShort s := by simp [State.adoptCluster]

@[simp] theorem moveHandover_iff (s : State) (c : Nat) :
    KeptShort (s.moveHandover c) ↔ KeptShort s := by simp [State.moveHandover]

@[simp] theorem moveExpired_iff (s : State) (c : Nat) : KeptShort (s.moveExpired c) ↔ KeptShort s := by simp [State.moveExpired]

/-! The Sharel fabric. -/

@[simp] theorem failWork_iff (s : State) (p : Payer) (status code : Nat) :
    KeptShort (s.failWork p status code) ↔ KeptShort s := by
  unfold State.failWork
  repeat' first | split | simp

@[simp] theorem failPayer_iff (s : State) (p : Payer) (status code : Nat) :
    KeptShort (s.failPayer p status code) ↔ KeptShort s := by
  unfold State.failPayer
  repeat' first | split | simp | with_reducible refine of_snd ‹_› ?_

@[simp] theorem failRead_iff (s : State) (p : RemoteRead → Bool) (status code : Nat) :
    KeptShort (s.failRead p status code) ↔ KeptShort s := by
  unfold State.failRead
  repeat' first | split | simp | with_reducible refine foldl (fun _ _ => ?_) ?_

@[simp] theorem failStream_iff (s : State) (peer cls status code : Nat) :
    KeptShort (s.failStream peer cls status code) ↔ KeptShort s := by simp [State.failStream]

@[simp] theorem resumeMailboxes_iff (s : State) : KeptShort s.resumeMailboxes ↔ KeptShort s := by simp [State.resumeMailboxes]

@[simp] theorem acked_iff (s : State) (peer cls ack : Nat) :
    KeptShort (s.acked peer cls ack) ↔ KeptShort s := by simp [State.acked]

@[simp] theorem sendDirect_iff (s : State) (peer cls : Nat) (f : Frame) : KeptShort (s.sendDirect peer cls f) ↔ KeptShort s := by
  unfold State.sendDirect
  split <;> simp

@[simp] theorem sendNak_iff (s : State) (f : Frame) (status seq : Nat) :
    KeptShort (s.sendNak f status seq) ↔ KeptShort s := by simp [State.sendNak]

@[simp] theorem transit_iff (s : State) (f : Frame) : KeptShort (s.transit f).1 ↔ KeptShort s := by
  unfold State.transit
  repeat' first | split | simp

@[simp] theorem takeIn_iff {f : Frame} {act : State → State × Bool} {s : State} (h : ∀ a, KeptShort (act a).1 ↔ KeptShort a) :
    KeptShort (State.takeIn f act s).1 ↔ KeptShort s := by
  unfold State.takeIn
  repeat' first | split | simp [h]

@[simp] theorem emitControl_iff (s : State) (port : Nat) (m : Control) :
    KeptShort (s.emitControl port m) ↔ KeptShort s := by simp [State.emitControl]

@[simp] theorem sendControl_iff (s : State) (port : Nat) (m : Control) :
    KeptShort (s.sendControl port m) ↔ KeptShort s := by simp [State.sendControl]

@[simp] theorem releaseControl_iff (s : State) (port : Nat) :
    KeptShort (s.releaseControl port) ↔ KeptShort s := by simp [State.releaseControl]

@[simp] theorem updatePfc_iff (s : State) (port : Nat) : KeptShort (s.updatePfc port) ↔ KeptShort s := by simp [State.updatePfc]

@[simp] theorem keepFrame_iff (s : State) (port : Nat) (r : Received) :
    KeptShort (s.keepFrame port r) ↔ KeptShort s := by simp [State.keepFrame]

@[simp] theorem holdFrame_iff (s : State) (port : Nat) (r : Received) :
    KeptShort (s.holdFrame port r) ↔ KeptShort s := by simp [State.holdFrame]

@[simp] theorem arrive_iff {s : State} {port : Nat} {r : Received} {type : Nat} {act : State → State × Bool}
    (h : ∀ a, KeptShort (act a).1 ↔ KeptShort a) : KeptShort (s.arrive port r type act) ↔ KeptShort s := by simp [State.arrive, h]

@[simp] theorem servePort_iff {act : Received → State → State × Bool} {s : State} {port : Nat}
    (h : ∀ a b, KeptShort (act a b).1 ↔ KeptShort b) :
    KeptShort (State.servePort act s port) ↔ KeptShort s := by simp [State.servePort, h]

@[simp] theorem setRecv_iff (s : State) (k : Nat) (r : RecvStream) :
    KeptShort (s.setRecv k r) ↔ KeptShort s := by simp [State.setRecv]

theorem openRecv_iff {s t : State} {k : Nat} {f : Frame} {r : RecvStream} (e : s.openRecv k f = some (r, t)) :
    KeptShort t ↔ KeptShort s := by
  unfold State.openRecv at e
  split at e <;> split at e <;> cases e
  · simp
  · rfl
  · rfl

@[simp] theorem inOrder_iff {f : Frame} {act : State → State × Taken} {s : State} (h : ∀ a, KeptShort (act a).1 ↔ KeptShort a) :
    KeptShort (State.inOrder f act s).1 ↔ KeptShort s := by
  unfold State.inOrder
  repeat' first | split | simp [h] | with_reducible refine (openRecv_iff ‹_›).trans ?_

@[simp] theorem inbound_iff {f : Frame} {n : Nat} {m : Req → Nat → M α} {done : α → State → State} {s : State}
    (h : ∀ a b u, KeptShort (u.after (m a b)) ↔ KeptShort u) (k : ∀ a b, KeptShort (done a b) ↔ KeptShort b) :
    KeptShort (State.inbound f n m done s).1 ↔ KeptShort s := by
  unfold State.inbound
  repeat' first
    | split
    | simp [h, k]
    | with_reducible first | refine of_fst ‹_› ?_ | refine of_ok ‹_› ?_ | refine of_error ‹_› ?_

@[simp] theorem writeAct_iff (f : Frame) (s : State) : KeptShort (State.writeAct f s).1 ↔ KeptShort s := by
  unfold State.writeAct
  repeat' first | split | simp

@[simp] theorem replyFrames_iff (peer cls tag off n i : Nat) (bytes : List (BitVec 8)) (marks : List Bool) (s : State) :
    KeptShort (State.replyFrames peer cls tag off n i bytes marks s) ↔ KeptShort s := by
  fun_induction State.replyFrames peer cls tag off n i bytes marks s <;> simp +zetaDelta [*]

@[simp] theorem readAct_iff (f : Frame) (s : State) : KeptShort (State.readAct f s).1 ↔ KeptShort s := by
  unfold State.readAct
  repeat' first | split | simp

@[simp] theorem replyAct_iff (f : Frame) (s : State) : KeptShort (State.replyAct f s).1 ↔ KeptShort s := by
  unfold State.replyAct
  repeat' first | split | simp | with_reducible refine inOrder_iff fun _ => ?_

@[simp] theorem fenceAct_iff (f : Frame) (s : State) : KeptShort (State.fenceAct f s).1 ↔ KeptShort s := by
  unfold State.fenceAct
  repeat' first | split | simp | with_reducible refine inOrder_iff fun _ => ?_

@[simp] theorem ackAct_iff (f : Frame) (s : State) : KeptShort (State.ackAct f s).1 ↔ KeptShort s := by simp [State.ackAct]

@[simp] theorem resend_iff (s : State) (peer cls : Nat) : KeptShort (s.resend peer cls) ↔ KeptShort s := by simp [State.resend]

@[simp] theorem refused_iff (s : State) (f : Frame) : KeptShort (s.refused f) ↔ KeptShort s := by
  unfold State.refused
  repeat' first | split | simp

@[simp] theorem nakAct_iff (f : Frame) (t : State) : KeptShort (State.nakAct f t).1 ↔ KeptShort t := by simp [State.nakAct]

@[simp] theorem ackSend_iff (s : State) (peer cls : Nat) : KeptShort (s.ackSend peer cls) ↔ KeptShort s := by
  unfold State.ackSend
  repeat' first | split | simp | with_reducible refine of_snd ‹_› ?_

@[simp] theorem idleClose_iff (s : State) (peer cls : Nat) : KeptShort (s.idleClose peer cls) ↔ KeptShort s := by
  unfold State.idleClose
  repeat' first | split | simp

@[simp] theorem fabricTimeout_iff (s : State) (peer cls : Nat) :
    KeptShort (s.fabricTimeout peer cls) ↔ KeptShort s := by simp [State.fabricTimeout]

@[simp] theorem floodLsa_iff (s : State) : KeptShort s.floodLsa ↔ KeptShort s := by simp [State.floodLsa]

@[simp] theorem noteAdj_iff (old s : State) (p : Nat) : KeptShort (State.noteAdj old s p) ↔ KeptShort s := by simp [State.noteAdj]

@[simp] theorem helloFrame_iff (s : State) (port : Nat) (m : HelloMsg) :
    KeptShort (s.helloFrame port m) ↔ KeptShort s := by simp [State.helloFrame]

@[simp] theorem helloSend_iff (s : State) : KeptShort s.helloSend ↔ KeptShort s := by simp [State.helloSend]

@[simp] theorem adjacencyTimeout_iff (s : State) (port addr : Nat) :
    KeptShort (s.adjacencyTimeout port addr) ↔ KeptShort s := by simp [State.adjacencyTimeout]

@[simp] theorem sharelFault_iff (s : State) (port : Nat) :
    KeptShort (s.sharelFault port) ↔ KeptShort s := by simp [State.sharelFault]

@[simp] theorem floodClaim_iff (s : State) : KeptShort s.floodClaim ↔ KeptShort s := by simp [State.floodClaim]

@[simp] theorem claimFrom_iff (s : State) (c : Nat) : KeptShort (s.claimFrom c) ↔ KeptShort s := by simp [State.claimFrom]

@[simp] theorem claimAddress_iff (s : State) : KeptShort s.claimAddress ↔ KeptShort s := by simp [State.claimAddress]

@[simp] theorem claimFrame_iff (s : State) (port addr : Nat) (hash : List (BitVec 8)) :
    KeptShort (s.claimFrame port addr hash) ↔ KeptShort s := by simp [State.claimFrame]

@[simp] theorem addressHeld_iff (s : State) : KeptShort s.addressHeld ↔ KeptShort s := by simp [State.addressHeld]

@[simp] theorem sharelUp_iff (s : State) (port speed : Nat) :
    KeptShort (s.sharelUp port speed) ↔ KeptShort s := by simp [State.sharelUp]

@[simp] theorem lsaFrame_iff (s : State) (port : Nat) (m : LsaMsg) :
    KeptShort (s.lsaFrame port m) ↔ KeptShort s := by simp [State.lsaFrame]

@[simp] theorem lsaRefresh_iff (s : State) : KeptShort s.lsaRefresh ↔ KeptShort s := by simp [State.lsaRefresh]

@[simp] theorem routeCompute_iff (s : State) : KeptShort s.routeCompute ↔ KeptShort s := by simp [State.routeCompute]

@[simp] theorem pfcFrame_iff (s : State) (port prio : Nat) (xoff : Bool) :
    KeptShort (s.pfcFrame port prio xoff) ↔ KeptShort s := by simp [State.pfcFrame]

/-! REMOTE_WRITE and REMOTE_GATHER. -/

@[simp] theorem sendRemote_iff (s : State) (o : OpRef) (errors : Nat) (x : Op) (r : Req) :
    KeptShort (s.after (sendRemote o errors x r)) ↔ KeptShort s := by
  unfold sendRemote
  repeat' first | split | simp | with_reducible first | assumption | refine after_bind ?_ fun _ _ _ => ?_

@[simp] theorem remoteWrite_iff (s : State) (o : OpRef) (errors : Nat) : KeptShort (s.remoteWrite o errors) ↔ KeptShort s := by
  unfold State.remoteWrite
  repeat' first | split | simp

@[simp] theorem sendGather_iff (s : State) (x : Op) (r : Req) : KeptShort (s.after (sendGather x r)) ↔ KeptShort s := by
  unfold sendGather
  dsimp only
  repeat' first
    | with_reducible first
      | assumption
      | rw [State.after_get_bind]
      | rw [State.after_set_bind]
      | refine foldl (fun _ _ => ?_) ?_
      | refine after_bind ?_ fun _ _ _ => ?_
      | refine after_branch ?_ ?_
    | split
    | simp

@[simp] theorem writeRemoteRows_iff (s : State) (r : Req) (out : Nat) (l : List (Nat × List (BitVec 8) × List Bool)) :
    KeptShort (s.after (writeRemoteRows r out l)) ↔ KeptShort s := by
  fun_induction writeRemoteRows r out l generalizing s
  all_goals repeat' first | simp [*] | with_reducible refine after_bind ?_ fun _ _ _ => ?_

@[simp] theorem landGather_iff (s : State) (x : Op) (r : Req) (work : RemoteWork) :
    KeptShort (s.after (landGather x r work)) ↔ KeptShort s := by
  unfold landGather
  repeat' first | split | simp | intro _ | with_reducible first | assumption | refine after_bind ?_ fun _ _ _ => ?_

@[simp] theorem finishRemote_iff (s : State) (o : OpRef) (errors : Nat) : KeptShort (s.finishRemote o errors) ↔ KeptShort s := by
  unfold State.finishRemote
  split
  · split
    · refine branch Iff.rfl (runM (by simp) (after_branch (by simp) (by simp)) (fun _ _ _ => ?_) (fun _ _ _ _ => ?_))
      all_goals repeat' first
        | with_reducible first
          | assumption
          | refine branch ?_ ?_
          | refine (modOp_iff ..).trans ?_
          | refine (blockReplayed_iff ..).trans ?_
          | refine (draw_iff ..).trans ?_
        | split
    · rfl
  · rfl

@[simp] theorem remoteGather_iff (s : State) (o : OpRef) (errors : Nat) :
    KeptShort (s.remoteGather o errors) ↔ KeptShort s := by simp [State.remoteGather]

@[simp] theorem gatherReplyAct_iff (f : Frame) (s : State) : KeptShort (State.gatherReplyAct f s).1 ↔ KeptShort s := by
  unfold State.gatherReplyAct
  repeat' first | split | simp | with_reducible refine inOrder_iff fun _ => ?_

@[simp] theorem fetchInbound_iff (s : State) (r : Req) (tcb row g : Nat) :
    KeptShort (s.after (fetchInbound r tcb row g)) ↔ KeptShort s := by
  unfold fetchInbound
  repeat' first | split | simp | with_reducible first | assumption | refine after_bind ?_ fun _ _ _ => ?_

@[simp] theorem fetchPlan_iff (s : State) (r : Req) (tcb g : Nat) (l : List RowFetch) (i : Nat) (t : TableWork) :
    KeptShort (s.after (fetchPlan r tcb g l i t)) ↔ KeptShort s := by
  induction l generalizing s i t with
  | nil => rfl
  | cons x l ih =>
    rw [fetchPlan]
    exact after_bind (by simp) fun _ _ h => (ih ..).trans h

@[simp] theorem inboundSlice_iff (s : State) (r : Req) (g : InGather) (e : Nat × Nat) (t : Nat) (bounds : List Nat) :
    KeptShort (s.after (inboundSlice r g e t bounds)) ↔ KeptShort s := by simp [inboundSlice]

@[simp] theorem inboundRuns_iff (s : State) (r : Req) (g : InGather) (e : Nat × Nat) (t : Nat) (bounds : List Nat) (errors : Nat) :
    KeptShort (s.after (inboundRuns r g e t bounds errors)) ↔ KeptShort s := by
  unfold inboundRuns
  repeat' first | split | simp | with_reducible first | assumption | refine after_bind ?_ fun _ _ _ => ?_

@[simp] theorem inboundSlices_iff (s : State) (r : Req) (g : InGather) (bounds errors : List Nat) (l : List (Nat × Nat)) (n : Nat) :
    KeptShort (s.after (inboundSlices r g bounds errors l n)) ↔ KeptShort s := by
  fun_induction inboundSlices r g bounds errors l n generalizing s
  all_goals repeat' first | simp [*] | with_reducible refine after_bind ?_ fun _ _ _ => ?_

@[simp] theorem lookupFor_iff (s : State) (r : Req) (va : Nat) (g : InGather) (errors : List Nat) :
    KeptShort (s.after (lookupFor r va g errors)) ↔ KeptShort s := by
  unfold lookupFor
  repeat' first
    | split
    | simp
    | with_reducible first
      | assumption
      | refine after_bind ?_ fun _ _ _ => ?_
      | refine after_tryCatch ?_ fun _ _ _ => ?_

@[simp] theorem replyGather_iff (s : State) (g : InGather) (vs : List (Nat × List (BitVec 8))) (status : Nat)
    (final : List (BitVec 8)) : KeptShort (s.replyGather g vs status final) ↔ KeptShort s := by simp [State.replyGather]

@[simp] theorem serveGather_iff (r : Received) (g : InGather) (s : State) :
    KeptShort (State.serveGather r g s).1 ↔ KeptShort s := by
  unfold State.serveGather
  repeat' first | split | simp | with_reducible refine inbound_iff (fun _ _ _ => ?_) fun _ _ => ?_

@[simp] theorem gatherAct_iff (r : Received) (s : State) : KeptShort (State.gatherAct r s).1 ↔ KeptShort s := by
  unfold State.gatherAct
  repeat' first | split | simp | with_reducible first | refine of_fst ‹_› ?_ | refine inOrder_iff fun _ => ?_

@[simp] theorem frameAct_iff (r : Received) (s : State) : KeptShort (State.frameAct r s).1 ↔ KeptShort s := by
  unfold State.frameAct
  split <;> simp

@[simp] theorem servePorts_iff (s : State) : KeptShort s.servePorts ↔ KeptShort s := by simp [State.servePorts]

/-! CXL. -/

@[simp] theorem loseFar_iff (s : State) (l : Nat) : KeptShort (s.loseFar l) ↔ KeptShort s := by simp [State.loseFar]

@[simp] theorem cxlFail_iff (s : State) (l : Nat) : KeptShort (s.cxlFail l) ↔ KeptShort s := by simp [State.cxlFail]

@[simp] theorem cxlUp_iff (s : State) (l width speed capacity decoders : Nat) (accepted : Bool) :
    KeptShort (s.cxlUp l width speed capacity decoders accepted) ↔ KeptShort s := by simp [State.cxlUp]

@[simp] theorem programExpanders_iff (s : State) : KeptShort s.programExpanders ↔ KeptShort s := by simp [State.programExpanders]

/-! The firmware. -/

@[simp] theorem setResult_iff (s : State) (code : Nat) : KeptShort (s.setResult code) ↔ KeptShort s := by simp [State.setResult]

@[simp] theorem rejectImage_iff (s : State) (code : Nat) :
    KeptShort (s.rejectImage code) ↔ KeptShort s := by simp [State.rejectImage]

@[simp] theorem startImage_iff (s : State) (region : Nat) :
    KeptShort (s.startImage region) ↔ KeptShort s := by simp [State.startImage]

@[simp] theorem romStage_iff (s : State) : KeptShort s.romStage ↔ KeptShort s := by simp [State.romStage]

@[simp] theorem reloadImage_iff (s : State) : KeptShort s.reloadImage ↔ KeptShort s := by simp [State.reloadImage]

@[simp] theorem stageImage_iff (s : State) (img : List (BitVec 8)) : KeptShort (s.stageImage img).2 ↔ KeptShort s := by
  unfold State.stageImage
  repeat' first | split | simp

@[simp] theorem beginStaging_iff (s : State) : KeptShort s.beginStaging ↔ KeptShort s := by simp [State.beginStaging]

@[simp] theorem fwActivate_iff (s : State) (v : Nat) : KeptShort (s.fwActivate v).state ↔ KeptShort s := by
  unfold State.fwActivate
  repeat' first | split | simp

@[simp] theorem handOver_iff (s : State) : KeptShort s.handOver ↔ KeptShort s := by simp [State.handOver]

@[simp] theorem reportAlive_iff (s : State) : KeptShort s.reportAlive ↔ KeptShort s := by simp [State.reportAlive]

@[simp] theorem keyProvision_iff (s : State) (v : List (BitVec 8)) : KeptShort (s.keyProvision v).state ↔ KeptShort s := by
  unfold State.keyProvision
  repeat' first | split | simp

@[simp] theorem keyRevoke_iff (s : State) (slot : Nat) : KeptShort (s.keyRevoke slot).state ↔ KeptShort s := by
  unfold State.keyRevoke
  repeat' first | split | simp

@[simp] theorem rollbackRaise_iff (s : State) (v : Nat) : KeptShort (s.rollbackRaise v).state ↔ KeptShort s := by
  unfold State.rollbackRaise
  split <;> simp

@[simp] theorem ownerEnroll_iff (s : State) (hash : List (BitVec 8)) : KeptShort (s.ownerEnroll hash).state ↔ KeptShort s := by
  unfold State.ownerEnroll
  split <;> simp

@[simp] theorem attestNonce_iff (s : State) (p : Party) (nonce : List (BitVec 8)) :
    KeptShort (s.attestNonce p nonce).state ↔ KeptShort s := by simp [State.attestNonce]

@[simp] theorem attestSigned_iff (s : State) (p : Party) :
    KeptShort (s.attestSigned p) ↔ KeptShort s := by simp [State.attestSigned]

/-! The board and its resets. -/

@[simp] theorem bringUp_iff (s : State) : KeptShort s.bringUp ↔ KeptShort s := by
  unfold State.bringUp
  refine branch ?_ ((reloadImage_iff _).trans ?_)
  all_goals
    refine foldl (fun _ _ => ?_) (foldl (fun _ _ => ?_) Iff.rfl)
    · split <;> simp
    · exact foldl (fun _ _ => by simp) Iff.rfl

@[simp] theorem stretchEnd_iff (s : State) : KeptShort s.stretchEnd ↔ KeptShort s := by simp [State.stretchEnd]

@[simp] theorem resetRelease_iff (s : State) (straps : Nat) : KeptShort (s.resetRelease straps) ↔ KeptShort s := by
  unfold State.resetRelease
  split
  · rfl
  · exact branch (by simp) (by simp)

@[simp] theorem warmReset_iff (s : State) (retain : Nat) :
    KeptShort (s.warmReset retain).state ↔ KeptShort s := by simp [State.warmReset]

@[simp] theorem resetUnits_iff (s : State) (c : Nat) : KeptShort (s.resetUnits c) ↔ KeptShort s := by simp [State.resetUnits]

@[simp] theorem clusterReset_iff (s : State) (c : Nat) : KeptShort (s.clusterReset c).state ↔ KeptShort s := by
  unfold State.clusterReset
  repeat' first | split | simp

@[simp] theorem clusterReady_iff (s : State) (c : Nat) :
    KeptShort (s.clusterReady c) ↔ KeptShort s := by simp [State.clusterReady]

@[simp] theorem mapSpare_iff (s : State) (c p : Nat) : KeptShort (s.mapSpare c p) ↔ KeptShort s := by
  unfold State.mapSpare
  repeat' first | split | simp

@[simp] theorem selfTested_iff (s : State) (p : Nat) (pass : Bool) : KeptShort (s.selfTested p pass) ↔ KeptShort s := by
  unfold State.selfTested
  repeat' first | split | simp

@[simp] theorem unitTrained_iff (s : State) (unit n : Nat) (failed : Bool) :
    KeptShort (s.unitTrained unit n failed) ↔ KeptShort s := by simp [State.unitTrained]

@[simp] theorem memoryTrained_iff (s : State) (unit : Nat) (failed : List Nat) :
    KeptShort (s.memoryTrained unit failed) ↔ KeptShort s := by simp [State.memoryTrained]

@[simp] theorem trip_iff (s : State) : KeptShort s.trip ↔ KeptShort s := by simp [State.trip]

@[simp] theorem routerAdvertisement_iff (s : State) (mtu prefix64 : Nat) :
    KeptShort (s.routerAdvertisement mtu prefix64) ↔ KeptShort s := by simp [State.routerAdvertisement]

@[simp] theorem mctpControl_iff (s : State) (p : Path) (command arg : Nat) :
    KeptShort (s.mctpControl p command arg) ↔ KeptShort s := by
  unfold State.mctpControl
  repeat' first | split | simp

/-! Power and clocks. -/

@[simp] theorem setDemand_iff (s : State) (c : Nat) (d : Demand) :
    KeptShort (s.setDemand c d) ↔ KeptShort s := by simp [State.setDemand]

@[simp] theorem retune_iff (s : State) : KeptShort s.retune ↔ KeptShort s := by simp [State.retune]

@[simp] theorem applyLadder_iff (s : State) : KeptShort s.applyLadder ↔ KeptShort s := by simp [State.applyLadder]

@[simp] theorem takeRung_iff (s : State) : KeptShort s.takeRung ↔ KeptShort s := by
  unfold State.takeRung
  split <;> simp

@[simp] theorem powerSample_iff (s : State) (watts joules : Nat) :
    KeptShort (s.powerSample watts joules) ↔ KeptShort s := by simp [State.powerSample]

@[simp] theorem coverLoop_iff (s : State) (c : Nat) (reading : Int) :
    KeptShort (s.coverLoop c reading) ↔ KeptShort s := by simp [State.coverLoop]

@[simp] theorem dieLoop_iff (s : State) (c : Nat) (reading : Int) :
    KeptShort (s.dieLoop c reading) ↔ KeptShort s := by simp [State.dieLoop]

@[simp] theorem thermalTick_iff (s : State) (cover die : List Nat) :
    KeptShort (s.thermalTick cover die) ↔ KeptShort s := by simp [State.thermalTick]

@[simp] theorem dieLimit_iff (s : State) (c : Nat) : KeptShort (s.dieLimit c) ↔ KeptShort s := by simp [State.dieLimit]

@[simp] theorem coreTrip_iff (s : State) : KeptShort s.coreTrip ↔ KeptShort s := by simp [State.coreTrip]

@[simp] theorem backstopLift_iff (s : State) : KeptShort s.backstopLift ↔ KeptShort s := by simp [State.backstopLift]

@[simp] theorem railReport_iff (s : State) (mv : Nat) : KeptShort (s.railReport mv) ↔ KeptShort s := by simp [State.railReport]

@[simp] theorem avsTimeout_iff (s : State) : KeptShort s.avsTimeout ↔ KeptShort s := by simp [State.avsTimeout]

/-! Reads of the dictionary. -/

@[simp] theorem readObj_iff (s : State) (r : Requester) (d : ObjDef) (sub : Nat) :
    KeptShort (s.readObj r d sub).2 ↔ KeptShort s := by
  unfold State.readObj
  repeat' first | split | simp | with_reducible refine of_snd ‹_› ?_

/-! Commits. -/

@[simp] theorem setUpPart_iff (s : State) (p : Nat) : KeptShort (s.setUpPart p) ↔ KeptShort s := by simp [State.setUpPart]

@[simp] theorem tearDownPart_iff (s : State) (p : Nat) :
    KeptShort (s.tearDownPart p) ↔ KeptShort s := by simp [State.tearDownPart]

@[simp] theorem changeCluster_iff (before s : State) (c old : Nat) :
    KeptShort (State.changeCluster before s c old) ↔ KeptShort s := by simp [State.changeCluster]

@[simp] theorem changePin_iff (before s : State) (nn : Nat) :
    KeptShort (State.changePin before s nn) ↔ KeptShort s := by simp [State.changePin]

@[simp] theorem commitEffects_iff (before s : State) (st : AMap Nat) :
    KeptShort (State.commitEffects before s st).1 ↔ KeptShort s := by simp [State.commitEffects]

@[simp] theorem putAll_iff (s : State) (st : AMap Nat) : KeptShort (s.putAll st) ↔ KeptShort s := by simp [State.putAll]

theorem commitSet_iff {s t : State} {st : AMap Nat} {l : List Nat} (e : s.commitSet st = .ok (t, l)) :
    KeptShort t ↔ KeptShort s := by
  unfold State.commitSet at e
  split at e
  · cases e; rfl
  · split at e
    · cases e
    · have e := Except.ok.inj e
      exact of_fst e (by simp)

/-! Sessions and writes of objects. -/

@[simp] theorem dropBulks_iff (s : State) (p : Bulk → Bool) : KeptShort (s.dropBulks p) ↔ KeptShort s := by simp [State.dropBulks]

@[simp] theorem sessOpen_iff (s : State) (r : Requester) (v : List (BitVec 8)) :
    KeptShort (s.sessOpen r v).state ↔ KeptShort s := by
  unfold State.sessOpen
  repeat' first | split | simp

@[simp] theorem setSession_iff (s : State) (x : Session) : KeptShort (s.setSession x) ↔ KeptShort s := by simp [State.setSession]

@[simp] theorem ownerGrant_iff (s : State) (r : Requester) (g : List (BitVec 8)) :
    KeptShort (s.ownerGrant r g).state ↔ KeptShort s := by
  unfold State.ownerGrant
  repeat' first | split | simp

@[simp] theorem spendGrant_iff (s : State) (r : Requester) : KeptShort (s.spendGrant r) ↔ KeptShort s := by
  unfold State.spendGrant
  repeat' first | split | simp

@[simp] theorem opKeyWrite_iff (s : State) (slot : Nat) (v : List (BitVec 8)) :
    KeptShort (s.opKeyWrite slot v).state ↔ KeptShort s := by
  unfold State.opKeyWrite
  repeat' first | split | simp

@[simp] theorem writeRw_iff (s : State) (index sub v : Nat) : KeptShort (s.writeRw index sub v).state ↔ KeptShort s := by
  unfold State.writeRw
  repeat' first | split | simp

@[simp] theorem setStage_iff (s : State) (p : Party) (st : AMap Nat) :
    KeptShort (s.setStage p st) ↔ KeptShort s := by simp [State.setStage]

@[simp] theorem stageWrite_iff (s : State) (p : Party) (index sub v : Nat) :
    KeptShort (s.stageWrite p index sub v).state ↔ KeptShort s := by
  unfold State.stageWrite
  repeat' first | split | simp

/-! Items of a message. -/

@[simp] theorem readItem_iff (s : State) (r : Requester) (ver : Nat) (h : ItemHead) :
    KeptShort (s.readItem r ver h).2.2.2 ↔ KeptShort s := by
  unfold State.readItem
  repeat' first | split | simp | with_reducible refine of_snd ‹_› ?_

@[simp] theorem runReads_iff (s : State) (r : Requester) (ver : Nat) (items : List (ItemHead × Option (List (BitVec 8)))) :
    KeptShort (s.runReads r ver items).2 ↔ KeptShort s := by
  unfold State.runReads
  repeat' first | simp | with_reducible refine foldlSnd (fun _ _ => ?_) ?_

@[simp] theorem bulkGet_iff (s : State) (r : Requester) (ver : Nat) (pl : List (BitVec 8)) :
    KeptShort (s.bulkGet r ver pl).2.2 ↔ KeptShort s := by
  unfold State.bulkGet
  repeat' first | split | simp | with_reducible refine of_snd ‹_› ?_

@[simp] theorem commitNow_iff (s : State) (r : Requester) (discard : Bool) :
    KeptShort (s.commitNow r discard).2.2.1 ↔ KeptShort s := by
  unfold State.commitNow
  repeat' first | split | simp | with_reducible refine (commitSet_iff ‹_›).trans ?_

@[simp] theorem settleWindows_iff (s : State) : KeptShort s.settleWindows ↔ KeptShort s := by simp [State.settleWindows]

/-! The host ports. -/

@[simp] theorem resetFns_iff (s : State) (port : Nat) : KeptShort (s.resetFns port) ↔ KeptShort s := by simp [State.resetFns]

@[simp] theorem endCtxs_iff (s : State) (p : Nat → Bool) (keepShared : Bool) :
    KeptShort (s.endCtxs p keepShared) ↔ KeptShort s := by simp [State.endCtxs]

@[simp] theorem countDown_iff (s : State) (port : Nat) : KeptShort (s.countDown port) ↔ KeptShort s := by simp [State.countDown]

@[simp] theorem portReady_iff (s : State) (port width speed : Nat) (flit : Bool) :
    KeptShort (s.portReady port width speed flit) ↔ KeptShort s := by simp [State.portReady]

@[simp] theorem portReset_iff (s : State) (port kind : Nat) :
    KeptShort (s.portReset port kind) ↔ KeptShort s := by simp [State.portReset]

@[simp] theorem portLinkDown_iff (s : State) (port : Nat) :
    KeptShort (s.portLinkDown port) ↔ KeptShort s := by simp [State.portLinkDown]

@[simp] theorem flrPf_iff (s : State) (port : Nat) : KeptShort (s.flrPf port) ↔ KeptShort s := by simp [State.flrPf]

@[simp] theorem endVf_iff (s : State) (ff : Nat) : KeptShort (s.endVf ff) ↔ KeptShort s := by simp [State.endVf]

@[simp] theorem setNumVFs_iff (s : State) (port v : Nat) :
    KeptShort (s.setNumVFs port v) ↔ KeptShort s := by simp [State.setNumVFs]

@[simp] theorem flrVf_iff (s : State) (port vf : Nat) (removed : Bool) :
    KeptShort (s.flrVf port vf removed) ↔ KeptShort s := by simp [State.flrVf]

@[simp] theorem flushMsix_iff (s : State) (ff : Nat) : KeptShort (s.flushMsix ff) ↔ KeptShort s := by simp [State.flushMsix]

@[simp] theorem cfgWrite_iff (s : State) (ff : Nat) (reg : CfgReg) (v : Nat) : KeptShort (s.cfgWrite ff reg v) ↔ KeptShort s := by
  unfold State.cfgWrite
  repeat' first | split | simp

@[simp] theorem busMasterOff_iff (s : State) (ff : Nat) (d3hot : Bool) :
    KeptShort (s.busMasterOff ff d3hot) ↔ KeptShort s := by simp [State.busMasterOff]

@[simp] theorem refuseBar2_iff (s : State) (ff : Nat) : KeptShort (s.refuseBar2 ff) ↔ KeptShort s := by simp [State.refuseBar2]

@[simp] theorem bar2Read_iff (s : State) (ff off n : Nat) :
    KeptShort (s.bar2Read ff off n) ↔ KeptShort s := by simp [State.bar2Read]

@[simp] theorem bar2Write_iff (s : State) (ff off : Nat) (data : List (BitVec 8)) (ep : Bool) :
    KeptShort (s.bar2Write ff off data ep) ↔ KeptShort s := by simp [State.bar2Write]

@[simp] theorem pageWrite_iff (s : State) (ff n reg v : Nat) : KeptShort (s.pageWrite ff n reg v) ↔ KeptShort s := by
  unfold State.pageWrite
  split <;> simp

@[simp] theorem mboxSlotWrite_iff (s : State) (ff slot off size v : Nat) :
    KeptShort (s.mboxSlotWrite ff slot off size v) ↔ KeptShort s := by
  unfold State.mboxSlotWrite
  repeat' first | split | simp | with_reducible refine mboxGo_iff fun _ _ _ => ?_

@[simp] theorem completionTimeout_iff (s : State) (o : OpRef) (port : Nat) :
    KeptShort (s.completionTimeout o port) ↔ KeptShort s := by
  unfold State.completionTimeout
  repeat' first | split | simp

/-! The posted word path. -/

@[simp] theorem lostStore_iff (s : State) (e : PathEntry) : KeptShort (s.lostStore e) ↔ KeptShort s := by simp [State.lostStore]

@[simp] theorem leave_iff (s : State) (e : PathEntry) : KeptShort (s.leave e) ↔ KeptShort s := by
  unfold State.leave
  repeat' first | split | simp

/-! #### What keeps, drops or clears replies, and what calls it -/

section

variable {s : State}

theorem foldl_of {f : State → α → State} (h : ∀ s x, KeptShort s → KeptShort (f s x)) (l : List α) (k : KeptShort s) :
    KeptShort (l.foldl f s) := by
  induction l generalizing s with
  | nil => exact k
  | cons x l ih => exact ih (h s x k)

theorem keepReply (h : KeptShort s) (p : Party) (tag : Nat) (bs : List (BitVec 8)) : KeptShort (s.keepReply p tag bs) := by
  refine ⟨fun e he => ?_⟩
  simp only [State.keepReply, List.mem_cons, List.mem_filter] at he
  obtain rfl | ⟨he, -⟩ := he
  · exact List.length_take_le ..
  · exact h.short e he

theorem sendReply (h : KeptShort s) (r : Requester) (tag : Option Nat) (key bs : List (BitVec 8)) :
    KeptShort (s.sendReply r tag key bs) := by
  unfold State.sendReply
  split
  · simpa using h
  · dsimp only
    split
    · simpa using h.keepReply ..
    · simpa using h

theorem releaseAnswers (h : KeptShort s) (n : Nat) : KeptShort (s.releaseAnswers n) :=
  foldl_of (fun _ _ k => k.sendReply ..) _ (by simpa using h)

theorem teardownComplete (h : KeptShort s) (n : Nat) : KeptShort (s.teardownComplete n) := by
  unfold State.teardownComplete
  dsimp only
  repeat' split
  · exact h
  · simpa using h
  · exact releaseAnswers (by simpa using h) _
  · exact releaseAnswers (by simpa using h) _

theorem clearRecord (s : State) : KeptShort s.clearRecord := ⟨fun _ h => nomatch h⟩

theorem clearSessions (s : State) : KeptShort s.clearSessions := ⟨fun _ h => nomatch h⟩

theorem deviceReset (s : State) (kind : Nat) : KeptShort (s.deviceReset kind) := by
  refine ⟨fun e he => ?_⟩
  simp only [State.deviceReset] at he
  split at he <;> cases he

theorem fallback (h : KeptShort s) : KeptShort s.fallback := by
  unfold State.fallback
  dsimp only
  split
  · simpa using h
  · split
    · simpa using h
    · simpa using clearRecord s

theorem mgmtRestart (h : KeptShort s) : KeptShort s.mgmtRestart := by
  unfold State.mgmtRestart
  dsimp only
  split
  · simpa using h
  · split
    · simpa using clearSessions _
    · split
      · exact fallback (by simpa using clearSessions _)
      · simpa using clearSessions _

theorem romLoad (h : KeptShort s) (img : List (BitVec 8)) : KeptShort (s.romLoad img).2 := by
  unfold State.romLoad
  dsimp only
  split
  · simpa using h
  · simpa using clearRecord _

theorem powerOn (s : State) (straps : Nat) : KeptShort (s.powerOn straps) := by
  simpa [State.powerOn] using deviceReset s 0

theorem boardReset (h : KeptShort s) : KeptShort s.boardReset := by
  unfold State.boardReset
  split
  · exact h
  · have k : KeptShort (if s.board.clocksStopped then s else s.deviceReset 1) := by
      split
      · exact h
      · exact deviceReset ..
    simpa using k

theorem undervoltage (h : KeptShort s) : KeptShort s.undervoltage := by
  unfold State.undervoltage
  split
  · exact h
  · simpa using deviceReset s 0

theorem resetBegin (h : KeptShort s) : KeptShort s.resetBegin := by
  unfold State.resetBegin
  split
  · split
    · simpa using deviceReset s _
    · exact h
  · exact h

theorem powerDown (h : KeptShort s) : KeptShort s.powerDown := by
  unfold State.powerDown
  split
  · exact h
  · exact record_iff.2 (deviceReset ..)

theorem endSession (h : KeptShort s) (n : Nat) : KeptShort (s.endSession n) := by
  have k := (dropBulks_iff s fun b => b.party == .session n).2 h
  exact ⟨fun e he => k.short e (List.mem_filter.1 he).1⟩

theorem sessClose (h : KeptShort s) (r : Requester) (n : Nat) : KeptShort (s.sessClose r n).state := by
  unfold State.sessClose
  split
  · exact h.endSession n
  · exact h

theorem fwStageWhole (h : KeptShort s) (r : Requester) (img : List (BitVec 8)) : KeptShort (s.fwStageWhole r img).state := by
  unfold State.fwStageWhole
  dsimp only
  repeat' split
  · exact h
  · exact h.romLoad img
  · exact h.romLoad img
  · simpa using h
  · simpa using h

theorem writeAction (h : KeptShort s) (r : Requester) (index sub : Nat) (v : List (BitVec 8)) :
    KeptShort (s.writeAction r index sub v).state := by
  unfold State.writeAction
  dsimp only
  repeat' split
  all_goals first
    | exact h.sessClose ..
    | exact h.fwStageWhole ..
    | simpa using h

theorem performWrite (h : KeptShort s) (r : Requester) (d : ObjDef) (sub : Nat) (v : List (BitVec 8)) :
    KeptShort (s.performWrite r d sub v).state := by
  unfold State.performWrite
  have k := h.writeAction r d.index sub v
  cases d.acc <;> dsimp only <;> split <;> simpa

theorem writeItem (h : KeptShort s) (r : Requester) (i : ItemHead) (v : Option (List (BitVec 8))) :
    KeptShort (s.writeItem r i v).state := by
  unfold State.writeItem
  repeat' split
  · exact h
  · exact h
  · exact h
  · exact h.performWrite ..

theorem runWrites (h : KeptShort s) (r : Requester) (ver : Nat) (items : List (ItemHead × Option (List (BitVec 8)))) :
    KeptShort (s.runWrites r ver items).2.1 := by
  unfold State.runWrites
  exact List.foldlRecOn (motive := fun x : List (BitVec 8) × State × List Nat => KeptShort x.2.1) _ _ h
    fun _ k _ _ => k.writeItem ..

theorem bulkPut (h : KeptShort s) (r : Requester) (ver : Nat) (pl : List (BitVec 8)) : KeptShort (s.bulkPut r ver pl).2.2 := by
  rw [← iff_true (KeptShort _)]
  unfold State.bulkPut
  repeat' first
    | with_reducible first
      | refine branchLast ?_ ?_
      | exact iff_true_intro h
    | split
    | exact iff_true_intro (performWrite (record_kept_iff.2 h) ..)
    | exact iff_true_intro (by simpa using h)

theorem answer (h : KeptShort s) (r : Requester) (tag : Option Nat) (key bs : List (BitVec 8)) (waits : List Nat) (commit : Bool) :
    KeptShort (s.answer r tag key bs waits commit) := by
  unfold State.answer
  dsimp only
  split
  · exact h.sendReply ..
  · simpa using h

theorem perform (h : KeptShort s) (r : Requester) (kind ver tag : Nat) (key pl : List (BitVec 8)) :
    KeptShort (s.perform r kind ver tag key pl) := by
  unfold State.perform
  dsimp only
  split
  · exact h.sendReply ..
  · split
    · split
      · exact h.sendReply ..
      · split
        · exact h.sendReply ..
        · exact ((runReads_iff ..).2 h).sendReply ..
    · split
      · exact h.sendReply ..
      · split
        · exact h.sendReply ..
        · exact (h.runWrites ..).answer ..
    · split
      · exact h.sendReply ..
      · split
        · exact ⟨h.short⟩
        · exact ((commitNow_iff ..).2 h).answer ..
    · exact (h.bulkPut ..).sendReply ..
    · exact ((bulkGet_iff ..).2 h).sendReply ..
    · exact h.sendReply ..

theorem serveMessage (h : KeptShort s) (r : Requester) (kind ver tag : Nat) (pl trailer : List (BitVec 8)) :
    KeptShort (s.serveMessage r kind ver tag pl trailer) := by
  unfold State.serveMessage
  dsimp only
  split
  · simpa using h
  · split
    · simpa using h
    · split
      · simpa using h
      · split
        · exact h
        · split
          · simpa using h
          · split <;>
              exact iteInduction (fun _ => sendReply (by simpa using h) ..) fun _ => perform (by simpa using h) ..

theorem serveAction (h : KeptShort s) (r : Requester) (index sub : Nat) (v : List (BitVec 8)) :
    KeptShort (s.serveAction r index sub v) := by
  unfold State.serveAction
  dsimp only
  repeat' split
  · exact h.answer ..
  · exact h.answer ..
  · exact (h.performWrite ..).answer ..

theorem serveChallenge (h : KeptShort s) (r : Requester) : KeptShort (s.serveChallenge r) := by
  unfold State.serveChallenge
  dsimp only
  exact ((readItem_iff ..).2 h).sendReply ..

/-- A restart that a request asked for follows its answer (R469). -/
theorem restarted (h : KeptShort s) :
    KeptShort (if s.board.restartDue then ({ s with board := { s.board with restartDue := false } }).mgmtRestart else s) := by
  split
  · exact mgmtRestart (by simpa using h)
  · exact h

theorem serve (h : KeptShort s) (q : Request) : KeptShort (s.serve q) := by
  cases q with
  | malformed r kind ver tag => exact restarted (s := s.carryReply r (some tag) _) ((carryReply_iff ..).2 h)
  | message => exact (h.serveMessage ..).restarted
  | action => exact (h.serveAction ..).restarted
  | challenge => exact (h.serveChallenge ..).restarted

theorem request (h : KeptShort s) (q : Request) : KeptShort (s.request q) := by
  unfold State.request
  split
  · exact h
  · split
    · split
      · exact (noteAll_iff ..).2 (h.serve q)
      · exact h
    · split
      · exact (noteAll_iff ..).2 (h.serve q)
      · split
        · exact ⟨h.short⟩
        · exact h

theorem pumpCommits (h : KeptShort s) (n : Nat) : KeptShort (s.pumpCommits n) := by
  induction n generalizing s with
  | zero => exact h
  | succ n ih =>
    rw [State.pumpCommits]
    split
    · exact h
    · split
      · exact h
      · exact ih (perform (record_kept_iff.2 h) ..)
      · exact ih (record_kept_iff.2 h)

theorem winGo (h : KeptShort s) (ff v : Nat) : KeptShort (s.winGo ff v) := by
  unfold State.winGo
  dsimp only
  repeat' split
  · exact h
  · simpa using h
  · exact h
  · exact request (by simpa using h) _

theorem imageAlive (h : KeptShort s) : KeptShort s.imageAlive := by
  unfold State.imageAlive
  split
  · exact h
  · exact foldl_of (fun _ _ k => k.request _) _ (pumpCommits (by simpa using h) _)

theorem bar0Write (h : KeptShort s) (ff off size v : Nat) : KeptShort (s.bar0Write ff off size v) := by
  unfold State.bar0Write
  dsimp only
  split
  · exact h
  · split
    · simpa using h
    · split
      · exact h
      · split
        · simpa using h
        · split
          · split
            · exact h
            · simpa using h
          · split
            · exact h.winGo ..
            · exact h

/-! #### A step

The commands that do more than run one function of the model come first, each in a lemma of its own. For the others the lemma
about that function is all that `exec` needs. -/

theorem inTurn {t : State} {p : Option Nat} {i : Instr} (hs : KeptShort s) (ht : KeptShort t) : KeptShort (s.inTurn p i t) := by
  unfold State.inTurn
  split
  · split
    · simpa using hs
    · exact ht
  · exact ht

theorem execFenceAll (h : KeptShort s) (x : At) (f : Fields) {t : State} (e : execFenceAll x f s = .next t) : KeptShort t := by
  obtain rfl := Host.Outcome.next.inj e
  refine (tidy_iff fun _ _ => ?_).2 h
  exact after_bind (by simp) fun _ _ k => after_bind (by simpa using k) fun _ _ k => by simpa using k

theorem execHalt (h : KeptShort s) (x : At) (f : Fields) {t : State} (e : execHalt x f s = .next t) : KeptShort t := by
  obtain rfl := Host.Outcome.next.inj e
  refine (tidy_iff fun _ _ => ?_).2 h
  refine after_bind (by simp) fun _ _ k => after_bind (by simpa using k) fun _ _ k => ?_
  rw [State.after_modify_bind, State.after_pure]
  split
  · simp only [dropTask_iff]
    split <;> simpa using k
  · exact k

theorem execTload (h : KeptShort s) (x : At) (f : Fields) {t : State} (e : execTload x f s = .next t) : KeptShort t := by
  obtain rfl := Host.Outcome.next.inj e
  refine (tidy_iff fun _ _ => ?_).2 h
  split <;> simp

theorem execStreamBlockReplay (h : KeptShort s) (o : OpRef) (fails : Bool) {t : State}
    (e : execStreamBlockReplay o fails s = .next t) : KeptShort t := by
  unfold Machine.execStreamBlockReplay at e
  dsimp only at e
  split at e <;> cases e
  · repeat' split
    all_goals simpa using h
  · exact h

theorem execRegisterWrite (h : KeptShort s) (x : RegTarget) (size v : Nat) {t : State}
    (e : execRegisterWrite x size v s = .next t) : KeptShort t := by
  cases x with
  | bar0 =>
    obtain rfl := Host.Outcome.next.inj e
    exact inTurn h (h.bar0Write ..)
  | object =>
    obtain rfl := Host.Outcome.next.inj e
    exact inTurn h (h.request _)

theorem execTeardownComplete (h : KeptShort s) (n : Nat) {t : State} (e : execTeardownComplete n s = .next t) : KeptShort t := by
  obtain rfl := Host.Outcome.next.inj e
  split
  · have k := h.teardownComplete n
    dsimp only
    split
    · exact k.pumpCommits _
    · exact k
  · exact h

theorem exec (h : KeptShort s) {i : Instr} {t : State} (e : Machine.exec i s = .next t) : KeptShort t := by
  cases i
  case registerWrite => exact h.execRegisterWrite _ _ _ e
  case streamBlockReplay => exact h.execStreamBlockReplay _ _ e
  case halt => exact h.execHalt _ _ e
  case fenceAll => exact h.execFenceAll _ _ e
  case tload => exact h.execTload _ _ e
  case teardownComplete => exact h.execTeardownComplete _ e
  all_goals obtain rfl := Host.Outcome.next.inj e
  case read | commit | commitDiscard | bulkPut | bulkGet | sessChallenge | sessOpen | sessClose | ownerGrant | opKey |
      keyProvision | keyRevoke | rollbackRaise | ownerEnroll | attnAck | ctxCreate | ctxTeardown | ctxOrphan | ctxAttach |
      spareRequest | injectPoison | fwStage | fwActivate | attestNonce | faultRingDisable | warmResetRetrained |
      warmResetRetained | clusterReset | mgmtRestart =>
    exact h.request _
  case write | faultResumeRetry | faultResumeFail => exact inTurn h (h.request _)
  case winGo => exact inTurn h (h.winGo ..)
  case sqProduced | cqConsumed | wakeArm | wakeDisarm | release => exact inTurn h ((doorbell_iff fun _ => by simp).2 h)
  case mboxNop | mboxRead | mboxWrite | mboxFenceSignal | fenceRead | mboxStatus =>
    exact inTurn h ((mboxGo_iff fun _ _ _ => by simp).2 h)
  case bar2Read => exact inTurn h ((bar2Read_iff ..).2 h)
  case bar2Write => exact inTurn h ((bar2Write_iff ..).2 h)
  case powerOn => exact powerOn ..
  case boardReset => exact h.boardReset
  case railUndervoltage => exact h.undervoltage
  case deviceResetBegin => exact h.resetBegin
  case powerDown => exact h.powerDown
  case imageReportsAlive => exact h.imageAlive
  case watchdogExpiry =>
    split
    · exact (noteAll_iff ..).2 h.mgmtRestart
    · exact h
  case fwAliveTimeout =>
    split
    · exact h.fallback
    · exact h
  case sessionIdleTimeout =>
    split
    · exact h.endSession _
    · exact h
  all_goals simpa using h

theorem releaseHost (h : KeptShort s) {before l : List (Nat × Instr)} {t : State} (e : s.releaseHost before l = some t) :
    KeptShort t := by
  induction l generalizing before with
  | nil => cases e
  | cons x l ih =>
    rw [State.releaseHost] at e
    split at e
    · exact ih e
    · split at e
      · split at e
        · cases e
          exact record_iff.2 (exec (record_iff.2 h) ‹_›)
        · exact ih e
      · exact ih e

theorem tick (h : KeptShort s) : KeptShort s.tick := by
  unfold State.tick
  split
  · exact h
  · split
    · rename_i e
      obtain e | ⟨-, e⟩ := Option.or_eq_some_iff.1 e
      · exact h.releaseHost e
      · obtain ⟨_, -, e⟩ := List.exists_of_findSome?_eq_some e
        exact (mboxGoesOn_iff e).2 h
    · split <;> simpa using h

theorem step (h : KeptShort s) {t : State} (e : Machine.step s = .next t) : KeptShort t := by
  unfold Machine.step at e
  split at e
  · cases e
    exact h.tick
  · exact exec (record_iff.2 h) e

end

end KeptShort

/-! #### The kept replies of a party -/

theorem find?_take_of_findIdx? {α : Type} {q : α → Bool} {l : List α} {i : Nat} (h : l.findIdx? q = some i) (n : Nat) :
    (l.take n).find? q = if i < n then l.find? q else none := by
  induction l generalizing i n with
  | nil => cases h
  | cons a l ih =>
    cases n with
    | zero => simp
    | succ n =>
      rw [List.findIdx?_cons] at h
      split at h
      · cases h
        simp [*]
      · obtain ⟨j, hj, rfl⟩ := Option.map_eq_some_iff.1 h
        simp [ih hj, *]

theorem find?_filter_fst_bne {α β : Type} [DecidableEq α] {a b : α} (h : b ≠ a) (l : List (α × β)) :
    ((l.filter fun x => x.1 != a).find? fun x => x.1 == b) = l.find? fun x => x.1 == b := by
  rw [List.find?_filter]
  congr 1
  funext x
  by_cases hx : x.1 = b <;> simp [hx, h]

namespace State

theorem keptReply_keepReply_self (s : State) (p : Party) (tag : Nat) (bs : List (BitVec 8)) :
    (s.keepReply p tag bs).keptReply p tag = some bs := by
  simp [keepReply, keptReply]

theorem keptReply_keepReply_of_ne (s : State) {p q : Party} (h : q ≠ p) (tag u : Nat) (bs : List (BitVec 8)) :
    (s.keepReply p tag bs).keptReply q u = s.keptReply q u := by
  simp only [keepReply, keptReply, List.find?_cons, beq_eq_false_iff_ne.2 h.symm, find?_filter_fst_bne h]

/-- Of the earlier replies of a party the newest fifteen stay: the one of tag `u` stands at place `i` among those of other tags. -/
theorem keptReply_keepReply_earlier {s : State} {p : Party} {tag u i : Nat} {l : List (Nat × List (BitVec 8))}
    (hl : (s.amiso.kept.find? fun x => x.1 == p) = some (p, l)) (hu : u ≠ tag)
    (hi : (l.filter fun x => x.1 != tag).findIdx? (·.1 == u) = some i) (bs : List (BitVec 8)) :
    (s.keepReply p tag bs).keptReply p u = if i < 15 then s.keptReply p u else none := by
  have k : ((l.filter fun x => x.1 != tag).take 15).find? (·.1 == u) = if i < 15 then l.find? (·.1 == u) else none := by
    rw [find?_take_of_findIdx? hi, find?_filter_fst_bne hu]
  simp only [keepReply, keptReply, hl, List.find?_cons, beq_self_eq_true, Option.bind_some, Option.map_some, Option.getD_some,
    List.take_succ_cons, beq_eq_false_iff_ne.2 hu.symm, k]
  split <;> rfl

/-- A reply put on its carrier changes windows and what was sent, nothing else. -/
theorem carryReply_eq (s : State) (r : Requester) (tag : Option Nat) (bs : List (BitVec 8)) :
    ∃ w o, s.carryReply r tag bs = { s with wins := w, out := o } := by
  unfold carryReply
  split
  · dsimp only
    split
    · exact ⟨_, _, rfl⟩
    · exact ⟨_, _, rfl⟩
  · exact ⟨_, _, rfl⟩

theorem amiso_carryReply (s : State) (r : Requester) (tag : Option Nat) (bs : List (BitVec 8)) :
    (s.carryReply r tag bs).amiso = s.amiso := by
  obtain ⟨w, o, h⟩ := s.carryReply_eq r tag bs
  rw [h]

theorem keptReply_sendReply {s : State} {r : Requester}
    (hr : r.session = 0 ∨ (s.amiso.sessions.any fun x => x.n == r.session) = true) (tag : Nat) (key bs : List (BitVec 8))
    (q : Party) (u : Nat) :
    (s.sendReply r (some tag) key bs).keptReply q u = (s.keepReply (partyOf r) tag (s.sealReply r key bs)).keptReply q u := by
  have hk : (r.session == 0 || s.amiso.sessions.any fun x => x.n == r.session) = true := by simpa using hr
  simp only [sendReply, keptReply, hk, if_true, amiso_carryReply]

/-! #### A message that repeats a tag -/

theorem carryReply_of_noWindow {s : State} {r : Requester} (h : hostFnOf r = none) (tag : Option Nat) (bs : List (BitVec 8)) :
    s.carryReply r tag bs = { s with out := s.out ++ [.amiso r.path r.ident bs] } := by
  unfold carryReply
  rw [h]
  rfl

theorem noteAll_of_ready {s t : State} (h : ∀ i j, t.ready? i j = s.ready? i j) : noteAll s t = t := by
  have e (x : Nat × Nat) : noteReady s t x.1 x.2 = t := if_pos (h x.1 x.2)
  unfold noteAll
  exact List.foldlRecOn (motive := fun u : State => u = t) _ _ rfl fun u hu x _ => hu ▸ e x

theorem serveMessage_of_checked {s : State} {r : Requester} {kind ver tag : Nat} {pl tr : List (BitVec 8)}
    (hr : r.session = 0 ∨ (s.sessionOf r).isSome = true)
    (hk : keyOf (s.sessionOf r) r = [] ∨
      tr = kmac256 (keyOf (s.sessionOf r) r) (header ver kind 0 tag pl.length r.session ++ pl) 128 "AMISO MSG") :
    (∀ bs, s.keptReply (partyOf r) tag = some bs → s.serveMessage r kind ver tag pl tr = s.carryReply r (some tag) bs) ∧
    (s.keptReply (partyOf r) tag = none → s.stillServed r tag = true → s.serveMessage r kind ver tag pl tr = s) := by
  have hsess : ¬(r.session ≠ 0 ∧ (s.sessionOf r).isNone = true) := by
    rintro ⟨hn, hx⟩
    obtain h | h := hr
    · exact hn h
    · simp [Option.isNone_iff_eq_none.1 hx] at h
  have htrail : ¬((keyOf (s.sessionOf r) r).isEmpty = false ∧
      tr ≠ kmac256 (keyOf (s.sessionOf r) r) (header ver kind 0 tag pl.length r.session ++ pl) 128 "AMISO MSG") := by
    rintro ⟨hkey, hne⟩
    obtain h | h := hk
    · simp [h] at hkey
    · exact hne h
  unfold serveMessage
  dsimp only
  rw [if_neg hsess, if_neg htrail]
  constructor
  · intro bs h
    rw [h]
  · intro h hs
    rw [h]
    exact if_pos hs

/-- A message comes to what serving it leaves, where no restart is asked for and no readiness object has changed. -/
theorem request_message_of_quiet {s t : State} {r : Requester} {kind ver tag : Nat} {pl tr : List (BitVec 8)}
    (hm : s.mgmtUp = true) (e : s.serveMessage r kind ver tag pl tr = t) (hd : t.board.restartDue = false)
    (ht : ∀ i j, t.ready? i j = s.ready? i j) : s.request (.message r kind ver tag pl tr) = t := by
  simp only [mgmtUp, Bool.and_eq_true, decide_eq_true_eq] at hm
  obtain ⟨⟨hrun, hstage⟩, halive⟩ := hm
  have h0 : s.fw.stage ≠ 0 := by omega
  have hs : s.serve (.message r kind ver tag pl tr) = t := by
    unfold serve
    simp only [e, hd, Bool.false_eq_true, if_false]
  unfold request
  simp only [hrun, h0, halive, hs, noteAll_of_ready ht, Bool.not_true, Bool.false_eq_true, if_false, if_true]

theorem request_message_of_kept {s : State} {r : Requester} {kind ver tag : Nat} {pl tr bs : List (BitVec 8)}
    (hm : s.mgmtUp = true) (hd : s.board.restartDue = false)
    (e : s.serveMessage r kind ver tag pl tr = s.carryReply r (some tag) bs) :
    s.request (.message r kind ver tag pl tr) = s.carryReply r (some tag) bs := by
  obtain ⟨w, o, ht⟩ := s.carryReply_eq r (some tag) bs
  refine request_message_of_quiet hm e ?_ fun i j => ?_
  · rw [ht]
    exact hd
  · rw [ht]
    rfl

end State

/-- The commands that carry a message, each with the kind that it sends. -/
theorem exec_message {s : State} {r : Requester} {h : MsgHead} {pl tr : List (BitVec 8)} {k : Nat} {c : Instr}
    (hc : (k, c) ∈ [(1, .read r h pl tr), (2, .write r h pl tr), (3, .commit r h pl tr), (3, .commitDiscard r h pl tr),
      (4, .bulkPut r h pl tr), (5, .bulkGet r h pl tr)]) (hu : k = 2 → Unheld s r) :
    exec c s = .next (s.request (.message r k h.version h.tag pl tr)) := by
  simp only [List.mem_cons, List.not_mem_nil, or_false, Prod.mk.injEq] at hc
  obtain ⟨rfl, rfl⟩ | ⟨rfl, rfl⟩ | ⟨rfl, rfl⟩ | ⟨rfl, rfl⟩ | ⟨rfl, rfl⟩ | ⟨rfl, rfl⟩ := hc
  case inr.inl =>
    change Host.Outcome.next (s.inTurn _ _ _) = _
    unfold State.inTurn
    split
    · rw [hu rfl _ ‹_›]
      rfl
    · rfl
  all_goals rfl

/-- Settles O58: every step keeps `KeptShort` (`KeptShort.step`); a message that passes its checks comes to `serveMessage`, which
answers a repeated tag with `carryReply` or discards it, and neither asks for a restart nor changes a readiness object; and
`sendReply` keeps its reply by `keepReply`. -/
theorem repeatedTags : Obligations.RepeatedTags := by
  unfold Obligations.RepeatedTags
  refine ⟨fun s t hs e => (KeptShort.step ⟨hs⟩ e).short, ?_, ?_⟩
  · intro s r h pl tr k c hm hd hc hr hu key hk
    obtain ⟨hkept, hserved⟩ := State.serveMessage_of_checked hr hk
    rw [exec_message hc hu]
    refine ⟨fun bs hb => ?_, fun hb hs => ?_⟩
    · have e := State.request_message_of_kept hm hd (hkept bs hb)
      exact ⟨congrArg _ e, fun hn => congrArg _ (e.trans (State.carryReply_of_noWindow hn ..))⟩
    · exact congrArg _ (State.request_message_of_quiet hm (hserved hb hs) hd fun _ _ => rfl)
  · intro s r tag key bs hr t p
    refine ⟨?_, fun l hl u hu i hi => ?_, fun q hq u => ?_⟩
    · exact (State.keptReply_sendReply hr ..).trans (State.keptReply_keepReply_self ..)
    · exact (State.keptReply_sendReply hr ..).trans (State.keptReply_keepReply_earlier hl hu hi _)
    · exact (State.keptReply_sendReply hr ..).trans (State.keptReply_keepReply_of_ne s hq ..)

end Sys2Proof.Machine
